-- ==== Sys2Proof/Word.lean ====
section
/-!
DEFINITION. Bytes, little-endian numbers, bit fields and sparse tables: the plain data every block of the model is
built from (Table 0.2: byte 8 bits, word 32 bits, dword 64 bits, sector 32 B, line 64 B, little-endian).
Choices of the model: log entry 7.
-/

namespace Sys2Proof

/-- A byte of memory. -/
abbrev Byte := BitVec 8

/-- A run of bytes, lowest address first. -/
abbrev Bytes := List (BitVec 8)

/-- A byte from a number, modulo 256. -/
def byte (n : Nat) : Byte := BitVec.ofNat 8 n

/-- The unsigned little-endian value of a run of bytes (Table 0.2). -/
def leNat : Bytes → Nat
  | [] => 0
  | b :: bs => b.toNat + 256 * leNat bs

/-- The `n` little-endian bytes of a number. -/
def natLE : Nat → Nat → Bytes
  | 0, _ => []
  | n + 1, v => byte v :: natLE n (v / 256)

/-- The unsigned big-endian value of a run of bytes (network and cipher order). -/
def beNat (bs : Bytes) : Nat := bs.foldl (fun a b => a * 256 + b.toNat) 0

/-- The `n` big-endian bytes of a number. -/
def natBE (n v : Nat) : Bytes := (natLE n v).reverse

/-- Bits `hi` down to `lo` of a number (Table 0.2: both inclusive, bit 0 least significant). -/
def bits (v hi lo : Nat) : Nat := v / 2 ^ lo % 2 ^ (hi + 1 - lo)

/-- Bit `i` of a number. -/
def bit (v i : Nat) : Bool := v.testBit i

/-- 1 for true and 0 for false. -/
def b2n (b : Bool) : Nat := if b then 1 else 0

/-- A number with its bits `lo … lo+w-1` replaced by the low `w` bits of `x`. -/
def setBits (v lo w x : Nat) : Nat :=
  v % 2 ^ lo + 2 ^ lo * (x % 2 ^ w) + 2 ^ (lo + w) * (v / 2 ^ (lo + w))

/-- The signed value of the low `w` bits of a number, two's complement. -/
def sint (w v : Nat) : Int :=
  let u := v % 2 ^ w
  if u < 2 ^ (w - 1) then (u : Int) else (u : Int) - 2 ^ w

/-- The low `w` bits of an integer, two's complement. -/
def unsint (w : Nat) (v : Int) : Nat := (v % (2 ^ w : Int)).toNat

/-- The field of `n` bytes at offset `o` of a record, as a number. -/
def fieldN (bs : Bytes) (o n : Nat) : Nat := leNat ((bs.drop o).take n)

/-- `n` copies of the zero byte. -/
def zeros (n : Nat) : Bytes := List.replicate n 0

/-- A run of bytes cut or zero-extended to `n` bytes. -/
def padTo (n : Nat) (bs : Bytes) : Bytes := (bs ++ zeros (n - bs.length)).take n

/-- A record of `n` zero bytes with fields written at their offsets. -/
def record (n : Nat) (fs : List (Nat × Bytes)) : Bytes :=
  fs.foldl (fun r f => (r.take f.1) ++ f.2 ++ r.drop (f.1 + f.2.length)) (zeros n)

/-- The record with the bytes at offset `o` replaced. -/
def patch (r : Bytes) (o : Nat) (b : Bytes) : Bytes := r.take o ++ b ++ r.drop (o + b.length)

/-- Bytewise exclusive or of two runs. -/
def xorBytes (a b : Bytes) : Bytes := List.zipWith (· ^^^ ·) a b

/-- Sum of two 32-bit free-running counts. -/
def add32 (a b : Nat) : Nat := (a + b) % 2 ^ 32

/-- Difference of two 32-bit free-running counts. -/
def sub32 (a b : Nat) : Nat := (a + (2 ^ 32 - b % 2 ^ 32)) % 2 ^ 32

/-- One more than a count of `w` bits, held at its largest value. -/
def satInc (w v : Nat) (by_ : Nat := 1) : Nat := min (v + by_) (2 ^ w - 1)

/-- A sparse table: entries in rising order of their key, each key at most once. -/
abbrev Tab (α : Type) := List (Nat × α)

namespace Tab

variable {α : Type}

/-- The entry at a key, where there is one. -/
def get? : Tab α → Nat → Option α
  | [], _ => none
  | (k, v) :: t, i => if k = i then some v else get? t i

/-- The entry at a key, or the value that stands where no entry does. -/
def getD (t : Tab α) (i : Nat) (d : α) : α := (t.get? i).getD d

/-- The table with an entry stored at a key. -/
def put : Tab α → Nat → α → Tab α
  | [], i, v => [(i, v)]
  | (k, w) :: t, i, v =>
    if k = i then (i, v) :: t else if i < k then (i, v) :: (k, w) :: t else (k, w) :: put t i v

/-- The table without the entry at a key. -/
def del : Tab α → Nat → Tab α
  | [], _ => []
  | (k, w) :: t, i => if k = i then del t i else (k, w) :: del t i

/-- The table with a value stored at a key, in canonical form: a value equal to what an unlisted key holds is not
listed. -/
def set [DecidableEq α] (d : α) (t : Tab α) (i : Nat) (v : α) : Tab α :=
  if v = d then t.del i else t.put i v

/-- The table without the entries whose key lies in `lo … hi-1`. -/
def clear (t : Tab α) (lo hi : Nat) : Tab α := t.filter (fun e => e.1 < lo || hi ≤ e.1)

/-- The keys of a table rise strictly. -/
def sorted : Tab α → Bool
  | [] => true
  | [_] => true
  | a :: b :: t => decide (a.1 < b.1) && sorted (b :: t)

/-- The canonical form: keys rise strictly and no entry holds the default. -/
def wf [DecidableEq α] (d : α) (t : Tab α) : Bool := t.sorted && t.all (fun e => decide (e.2 ≠ d))

end Tab

/-- The first element of a list that meets a test, with its position. -/
def findAt {α : Type} (p : α → Bool) (l : List α) : Option (Nat × α) :=
  (l.zipIdx.find? (fun x => p x.1)).map (fun x => (x.2, x.1))

/-- The list with the element at a position replaced by its image. -/
def modAt {α : Type} (l : List α) (i : Nat) (f : α → α) : List α := l.modify i f

/-- Run an action on a state for each element of a list, in order. -/
def forEach {α σ : Type} (l : List α) (s : σ) (f : α → σ → σ) : σ := l.foldl (fun a x => f x a) s

/-- The runs of at most `n` elements a list is cut into, in order (`fuel` bounds the count). -/
def chunksGo {α : Type} (n : Nat) : Nat → List α → List (List α)
  | 0, _ => []
  | f + 1, l => if l.isEmpty then [] else l.take n :: chunksGo n f (l.drop n)

/-- A list cut into runs of `n` elements, the last one shorter where the length is no multiple. -/
def chunks {α : Type} (n : Nat) (l : List α) : List (List α) :=
  chunksGo n (if n = 0 then 0 else l.length) l

/-- A natural number rounded up to a multiple. -/
def alignUp (v m : Nat) : Nat := (v + m - 1) / m * m

/-- The quotient rounded up. -/
def ceilDiv (a b : Nat) : Nat := (a + b - 1) / b

/-- Whether a half-open range of length `l` at `a` meets one of length `m` at `b`. -/
def overlaps (a l b m : Nat) : Bool := decide (0 < l) && decide (0 < m) && decide (a < b + m) && decide (b < a + l)

end Sys2Proof
end

