-- ==== Sys2Proof/Syntax.lean ====
section
/-!
DEFINITION. The commands of the block: one constructor for each row of the spec's opcode table, with its operands. A
command names what comes from outside a step: who makes an access, which instance it concerns, the data of a transfer,
and what a physical event finds (an error, a measured value).
Choices of the model: log entries 63, 171, 173, 176.
-/

namespace Sys2Proof

/-- Who makes an access: stream identifier (Table 1.4), context, world. -/
structure Initiator where
  sid : Nat
  ctx : Nat
  secure : Bool
  deriving DecidableEq, Repr

/-- A stream identifier that Table 1.4 lists (R24). -/
def listedSid (s : Nat) : Bool :=
  decide (s < 0x240) || (decide (0x240 ≤ s) && decide (s < 0x246)) || s == 0x248 || s == 0x249 || s == 0x250 ||
  s == 0x251 || s == 0x252 || (decide (0x258 ≤ s) && decide (s < 0x260)) || s == 0x260 ||
  (decide (0x270 ≤ s) && decide (s < 0x274)) || s == 0x280 || s == 0x290 || s == 0x2A0

/-- What the spine does to an access: its flits arrive whole, one with data is uncorrectable, or the one with the request is
(R39, R236). -/
inductive SpineFlit where
  | clean | data | request
  deriving DecidableEq, Repr

/-- An 802.1AS Sync (R381): its sequence number, the port it comes from, and the reference time it carries, none where its
Follow_Up is to bring it. -/
structure SyncMsg where
  seq : Nat
  src : Nat
  origin : Option Nat
  deriving DecidableEq, Repr

/-- One of the writes that reach a DRAM line together (R230). -/
structure LineWrite where
  who : Initiator
  pa : Nat
  data : Bytes
  poison : Bool
  deriving DecidableEq, Repr

/-- What a mode-register write programs (R307–R310, Table 11.8). The bit places of the fields are the standard's, so the
command carries its decoded meaning beside the register's number and value. -/
inductive MrEffect where
  /-- fields the spec gives no further behaviour -/
  | plain
  /-- bits of the value that enable Write X, Data Copy, partial-array masking or a bank-group mode (R308) -/
  | unsupported (mask : Nat)
  /-- read latency of a frequency set point, CK cycles (R310) -/
  | latency (fsp rl : Nat)
  /-- data rate in MT/s at which a set point runs, and whether WCK:CK is 4:1 -/
  | clock (fsp rate : Nat) (wck4 : Bool)
  /-- a set point becomes the active one -/
  | activate (fsp : Nat)
  /-- link ECC of reads and of writes -/
  | linkEcc (rd wr : Bool)
  /-- a register that is read-only or that the standard does not define -/
  | readOnly
  deriving DecidableEq, Repr

/-- The commands. A command whose row is a register write names its initiator; instance numbers are those of Table 1.2. -/
inductive Instr where
  -- The fabric, events and tags
  | fabricAccess (who : Initiator) (pa : Nat) (wr : Bool) (size : Nat) (data : Bytes) (poison : Bool) (upset : List (Nat × Nat)) (flit : SpineFlit)  -- R479
  | registerWrite (who : Initiator) (pa size : Nat) (data : Bytes)  -- R11
  | eventQueueDrain  -- R57
  | evrAckWrite (h v : Nat)  -- R58
  | tagRetire (link : Bool) (unit id : Nat)  -- R47
  | tagStallResume (link : Bool) (unit : Nat)  -- R48
  -- Tile cores and region units
  | coreWatchdog (n slot : Nat)  -- R30
  | submit (who : Initiator) (n : Nat) (desc : Bytes)  -- R94
  | descIssue (n : Nat)  -- R96
  | descComplete (n slot : Nat)  -- R99
  | steal (n : Nat)  -- R132
  | cplPop (who : Initiator) (n slot : Nat)  -- R101
  | ucodeWrite (who : Initiator) (n off v : Nat)  -- R115
  | ucodeCommit (who : Initiator) (n : Nat)  -- R116
  | fenceRelease (who : Initiator) (n : Nat)  -- R30
  | bankCntClr (who : Initiator) (n : Nat)  -- R114
  | winCtrlWrite (who : Initiator) (n w off v : Nat)  -- R113
  | windowAccess (p : Nat)  -- R111
  | nop (n slot : Nat)  -- R86
  | denseMm (n slot : Nat)  -- R89
  | sparseMmNm (n slot : Nat)  -- R121
  | sparseMmCsr (n slot : Nat)  -- R123
  | sparseSparseMerge (n slot : Nat)  -- R125
  | gather (n slot : Nat)  -- R92
  | scatterAcc (n slot : Nat)  -- R92
  | compressingStore (n slot : Nat)  -- R139
  | add (n slot : Nat)  -- R91
  | sub (n slot : Nat)  -- R91
  | mul (n slot : Nat)  -- R91
  | max (n slot : Nat)  -- R79
  | min (n slot : Nat)  -- R79
  | cmpgt (n slot : Nat)  -- R91
  | cmpeq (n slot : Nat)  -- R91
  | convert (n slot : Nat)  -- R91
  | relu (n slot : Nat)  -- R91
  | reduceSum (n slot : Nat)  -- R91
  | reduceMax (n slot : Nat)  -- R79
  | reduceMin (n slot : Nat)  -- R79
  | prune (n slot : Nat)  -- R136
  | predict (n slot : Nat)  -- R140
  | predictAudit (n slot : Nat)  -- R142
  | sparseCntClr (who : Initiator) (r : Nat)  -- R147
  | recallClr (who : Initiator) (r : Nat)  -- R147
  -- Firn, Moraine and Sastrugi
  | voxelizeBuild (n slot : Nat) (stop : Option Nat)  -- R158
  | voxelizeLabel (n slot : Nat)  -- R172
  | voxelizeBev (n slot : Nat)  -- R173
  | rulebookBuild (n slot : Nat)  -- R171
  | sensorSlotWrite (who : Initiator) (slot v : Nat)  -- R151
  | firnCntClr (who : Initiator)  -- R177
  | firnReady  -- R179
  | mapLookup (n slot : Nat)  -- R191
  | mapUpdate (n slot : Nat)  -- R195
  | req  -- R197
  | resp  -- R192
  | upd  -- R195
  | fwdReq  -- R199
  | fwdUpd  -- R199
  | lookupServe (t step : Nat)  -- R191
  | updateApply (t step : Nat)  -- R191
  | stepTimeoutOwner (t step : Nat)  -- R193
  | stepTimeoutRequester (n slot : Nat)  -- R193
  | calveStart (t key owner : Nat)  -- R199
  | calve  -- R199
  | calveAck  -- R199
  | dirOvr  -- R199
  | dirAck  -- R199
  | ovrRead (who : Initiator)  -- R183
  | ovrWrite (who : Initiator)  -- R183
  | hotClr (who : Initiator)  -- R201
  | tableDescriptorWrite (who : Initiator) (t off v : Nat)  -- R205
  | morCntClr (who : Initiator)  -- R205
  | topkRow (n slot : Nat)  -- R213
  | topkMerge (n slot : Nat)  -- R216
  | engEnWrite (who : Initiator) (v : Nat)  -- R224
  | sasCntClr (who : Initiator)  -- R224
  -- Vaults, flow engines, contexts, sync objects, mailboxes
  | vaultRead (who : Initiator) (pa : Nat) (upset : List (Nat × Nat))  -- R240
  | vaultWrite (writes : List LineWrite) (upset : List (Nat × Nat))  -- R241
  | vaultRefresh (v bank : Nat)  -- R245
  | scrubRead (v : Nat) (upsets : List (Nat × List (Nat × Nat)))  -- R246
  | vaultReady (v : Nat)  -- R250
  | initStart (who : Initiator) (v : Nat)  -- R250
  | initDone (v : Nat)  -- R250
  | vltCntClr (who : Initiator) (v : Nat)  -- R258
  | ringProdWrite (who : Initiator) (f v : Nat)  -- R255
  | ringEnWrite (who : Initiator) (f v : Nat)  -- R259
  | ringEntryStart (f : Nat)  -- R255
  | copy (f entry : Nat)  -- R252
  | fill (f entry : Nat)  -- R252
  | submitTransfer (f entry : Nat)  -- R252
  | ringEntryComplete (f entry : Nat)  -- R254
  | feCntClr (who : Initiator) (f : Nat)  -- R259
  | translationWalk (cache ctx sid va : Nat) (wr : Bool)  -- R266
  | enable (who : Initiator) (c : Nat)  -- R262
  | suspend (who : Initiator) (c : Nat)  -- R262
  | resume (who : Initiator) (c : Nat)  -- R271
  | invGo (who : Initiator) (v : Nat)  -- R267
  | xlInvDone  -- R267
  | funcDisable (who : Initiator) (fn : Nat) (abort : Bool)  -- R282
  | funcEnable (who : Initiator) (fn : Nat)  -- R282
  | regionDescriptorWrite (who : Initiator) (k off v : Nat)  -- R279
  | tcCntClr (who : Initiator) (r : Nat)  -- R285
  | sigAdd (who : Initiator) (obj v : Nat)  -- R295
  | syncCfgWrite (who : Initiator) (obj v : Nat)  -- R296
  | syncChangeApply (obj : Nat)  -- R289
  | mailboxSend (who : Initiator) (m : Nat) (msg : Bytes)  -- R299
  | popCh (who : Initiator) (m c : Nat)  -- R304
  | mbxTimeout (m c : Nat)  -- R302
  -- Host port and host queues
  | act (h bank r : Nat) (early : Bool)  -- R312
  | pre (h bank : Nat) (all early : Bool)  -- R312
  | rd (h bank col : Nat) (bl32 early : Bool)  -- R310
  | wr (h bank col : Nat) (bl32 : Bool) (data : Bytes) (ecc : Nat) (early : Bool)  -- R313
  | maskedWrite (h bank col : Nat) (data : Bytes) (mask ecc : Nat) (early : Bool)  -- R317
  | mrw (h reg v : Nat) (e : MrEffect) (early : Bool)  -- R308
  | mrr (h reg : Nat) (early : Bool)  -- R309
  | ref (h bank : Nat) (early : Bool)  -- R311
  | selfRefreshEntry (h : Nat) (early : Bool)  -- R311
  | selfRefreshExit (h : Nat) (early : Bool)  -- R311
  | training (h kind : Nat) (last early : Bool)  -- R311
  | unsupportedCommand (h : Nat)  -- R308
  | hostReset (h : Nat)  -- R325
  | sqProdWrite (q v : Nat)  -- R319
  | cqAckWrite (q v : Nat)  -- R319
  | hostNop (q : Nat)  -- R320
  | copyIn (q f : Nat)  -- R320
  | copyOut (q f : Nat)  -- R320
  | frame (q core gran : Nat)  -- R318
  | map (q core gran hdrVa : Nat)  -- R318
  | run (q : Nat)  -- R318
  | publish (q f rflags fcnt ts : Nat)  -- R319
  | hqComplete (q k : Nat)  -- R321
  | mmpCntClr (who : Initiator) (h : Nat)  -- R328
  -- Links and collectives
  | portEnWrite (who : Initiator) (p : Nat) (en : Bool)  -- R333
  | retrain (who : Initiator) (p : Nat)  -- R333
  | lanesTrained (p width : Nat)  -- R330
  | partnerIdentity (p id x y z dx dy dz : Nat)  -- R334
  | laneLockLoss (p : Nat)  -- R333
  | retrainTimeout (p : Nat)  -- R333
  | drainEnd (p : Nat)  -- R333
  | flitReceive (p : Nat) (raw : Bytes) (upsets : List (Nat × List (Nat × Nat)))  -- R332
  | nak (p seq : Nat)  -- R332
  | packetForward (p : Nat)  -- R337
  | escapeTimeout (p : Nat)  -- R338
  | rdReq (p : Nat)  -- R344
  | rdResp (p : Nat)  -- R345
  | wrAck (p : Nat)  -- R345
  | signal (p : Nat)  -- R293
  | mbx (p : Nat)  -- R301
  | moraine (p : Nat)  -- R197
  | coll (p : Nat)  -- R348
  | nakAuth (p : Nat)  -- R341
  | unreach (p : Nat)  -- R338
  | linkState (p : Nat)  -- R346
  | rimeStatus (p : Nat)  -- R405
  | remoteTimeout (p tag : Nat)  -- R345
  | barrier (who : Initiator) (x : Bytes)  -- R348
  | reduce (who : Initiator) (x : Bytes)  -- R349
  | collTopkMerge (who : Initiator) (x : Bytes)  -- R222
  | allToAll (who : Initiator) (x : Bytes)  -- R348
  | collRetransmit (piece : Nat)  -- R350
  | collTimeout (id : Nat)  -- R351
  | collAbort (p : Nat)  -- R351
  | collComplete (id : Nat)  -- R351
  | linkCntClr (who : Initiator) (p : Nat)  -- R353
  | sysCntClr (who : Initiator)  -- R354
  -- Dictionary, field networks and time
  | kopMessage  -- R368
  | canFrame (c id : Nat) (fd : Bool) (data : Bytes)  -- R371
  | canSegmentTimeout (c : Nat)  -- R372
  | canBusOffRecovery (c : Nat)  -- R370
  | reqSeqWrite (slot v : Nat) (secure : Bool)  -- R374
  | mirrorResponse (slot : Nat)  -- R374
  | snapshot  -- R375
  | dictStore  -- R362
  | dictStoreDone (ok : Bool)  -- R362
  | dictRestore  -- R362
  | ethernetFrame (frame : Bytes) (fcs : Bool)  -- R367
  | sync (m : SyncMsg)  -- R381
  | pdelayReq (seq : Nat)  -- R381
  | pdelayResp (seq t2 t3 : Nat)  -- R381
  | announce (data : Bytes)  -- R381
  | aonTick  -- R377
  | stepGo (who : Initiator)  -- R379
  | rateAdjWrite (who : Initiator) (v : Nat)  -- R378
  | syncLoss  -- R382
  -- Rime and self-test
  | pubReq  -- R392
  | pubRspPop (who : Initiator) (v : Nat)  -- R412
  | rimeDeadline (stream : Nat)  -- R395
  | whiteoutStart  -- R394
  | whiteoutDone  -- R394
  | checkPost (n : Nat)  -- R398
  | readbackDone (post : Nat)  -- R399
  | readbackTimeout (post : Nat)  -- R399
  | pairOrphan  -- R399
  | hbKick (who : Initiator)  -- R404
  | hbLost  -- R404
  | lockstep  -- R400
  | rimeClk  -- R400
  | rimeSram  -- R400
  | faultCauseClear (who : Initiator) (v still : Nat)  -- R401
  | safeMaskWrite (who : Initiator) (v : Nat)  -- R401
  | rimeStart  -- R414
  | rimeRestart  -- R403
  | rimePeerSend  -- R405
  | rimePeerSilent (peer : Nat)  -- R405
  | selfTestSliceStart (c : Nat)  -- R406
  | selfTestSliceEnd (ok : Bool)  -- R408
  | stOverdue (c : Nat)  -- R408
  | stReq (who : Initiator) (v : Nat)  -- R409
  | rimeCntClr (who : Initiator)  -- R412
  | streamEnable (who : Initiator) (stream v : Nat)  -- R412
  -- Security, boot and reset
  | svnAdvance (who : Initiator) (arg : Nat)  -- R435
  | revokeRoot (who : Initiator) (arg : Nat)  -- R435
  | provisionLock (who : Initiator)  -- R435
  | retire (who : Initiator)  -- R435
  | ckGo (who : Initiator) (c : Nat)  -- R430
  | load (who : Initiator) (slot : Nat) (ok : Bool)  -- R433
  | erase (who : Initiator) (slot : Nat)  -- R434
  | fail (who : Initiator) (slot : Nat)  -- R434
  | nonceWrite (nonce : Bytes)  -- R427
  | quoteComplete  -- R427
  | kekCommit (k : Nat)  -- R431
  | kekErase (k : Nat)  -- R431
  | managementKeyUnwrap (m kek : Nat)  -- R432
  | secEntropy (test : Nat)  -- R429
  | identityReserve (ok : Bool)  -- R425
  | lowerTreeDone  -- R426
  | secCntClr (who : Initiator)  -- R436
  | bootChain (images : Option (List (Nat × Bytes))) (entropyOk flashOk : Bool) (sweeps : List Nat)  -- R421
  | poresetNAssert  -- R469
  | poresetNRelease  -- R464
  | warmReset  -- R459
  | powerLoss  -- R460
  -- Power, clocks and Creep
  | switchOn (who : Initiator) (k : Nat)  -- R445
  | switchOff (who : Initiator) (k : Nat)  -- R446
  | pwrTransitionDone  -- R445
  | pllUnlock (n : Nat)  -- R450
  | refclkLoss (khz : Nat)  -- R451
  | tempSample (regions : List Nat) (vaults : List (Nat × Nat))  -- R452
  | poweredSecond  -- R454
  | reqGo (who : Initiator) (r : Nat) (drain : Bool)  -- R454
  | creepMeasureStart (r : Nat)  -- R454
  | creepSweepStep (r : Nat) (pass : Bool)  -- R453
  | creepMeasureEnd (r : Nat)  -- R455
  | creepOverdue (r : Nat)  -- R454
  | creepLogWrite (ok : Bool)  -- R458
  | railRampStep (r : Nat)  -- R456
  | voltWindow (r mv : Nat)  -- R456
  | avsAck (r : Nat)  -- R442
  | avsRetry (r : Nat)  -- R442
  | railOutOfRange (rail : Nat)  -- R468
  | vddSafeDip  -- R468
  | vddAonPor  -- R468
  | pccCntClr (who : Initiator)  -- R462
  -- Rows the table lists last
  | moraineReady  -- R203
  | sastrugiReady  -- R226
  | remoteWrite (p : Nat)  -- R344
  | heartbeat  -- R317
  | ethernetLinkChange (up : Bool)  -- R363
  | canErrorState (c st : Nat)  -- R370
  | pllLock (n : Nat)  -- R450
  | entropySourcePass  -- R429
  deriving DecidableEq, Repr

end Sys2Proof
end

