-- ==== Sys2Proof/Decode.lean ====
section
/-!
DEFINITION. The words of the opcode table. The table gives its rows no bits, so no word spells a command.
Choices of the model: log entry 174.
-/

namespace Sys2Proof

/-- The command a word spells by the table's bits: none, for the table gives no row any. -/
def decodeTableWord (_nbits _w : Nat) : Option Instr := none

end Sys2Proof
end

