-- ==== Sys2Proof/Config.lean ====
section
/-!
DEFINITION. What an implementation fixes and the values the spec leaves open. A constant with no body is a FREE
VALUE: no proof can see what it is, and a statement about it holds whatever it is.
-/

namespace Sys2Proof.Config

/-- A fresh free value of any width: the step gives it a serial number of its own (`Dev.free`). Used wherever the spec
says a value is chosen by the implementation or is left unstated: the queue entry a submission takes (R95), the victim
of a translation cache (R266), the order of simultaneous acceptances (R34), the stale content of a memory after
power-on, the result of an operation the spec gives no result for. DESIGN CHOICE, safe: log entry 4. -/
opaque freeValue : Nat → Nat

/-- Which two of the `n` remaining terms of a floating-point sum are added next (R69, R71: order and grouping are
unspecified). Arguments: serial number of the sum, number of terms left. DESIGN CHOICE, safe: log entry 6. -/
opaque sumPick : Nat → Nat → Nat × Nat

/-- The sign of a zero that a floating-point sum of two unequal-signed equal magnitudes leaves (R69 states no sign).
DESIGN CHOICE, safe: log entry 7. -/
opaque cancelSign : Bool

/-- ML-KEM-1024 decapsulation (FIPS 203) by the key pair of a seed d, z: seed and ciphertext to shared secret (R431).
The algorithm is named by the spec and not stated there. DESIGN CHOICE, safe: log entry 151. -/
opaque mlkemDecap : List (BitVec 8) → List (BitVec 8) → List (BitVec 8)

/-- The ML-KEM-1024 encapsulation key of a seed d, z (R431). DESIGN CHOICE, safe: log entry 151. -/
opaque mlkemPublic : List (BitVec 8) → List (BitVec 8)

/-- An identity signature under the key of a seed: seed, leaf number, message (R424, R425). DESIGN CHOICE, safe: log
entry 151. -/
opaque identitySign : List (BitVec 8) → Nat → List (BitVec 8) → List (BitVec 8)

/-- The identity public key of a seed (R424). DESIGN CHOICE, safe: log entry 151. -/
opaque identityPublic : List (BitVec 8) → List (BitVec 8)

/-- Output of the engine's random bit generator: serial number to byte (R429). DESIGN CHOICE, safe: log entry 151. -/
opaque drbg : Nat → BitVec 8

/-- Byte of the keys a context holds under a key number: 64 bytes of the XTS pair, then 32 of the MAC key (R238,
R430). The engine's generator draws them. DESIGN CHOICE, safe: log entry 192. -/
opaque contextKey : Nat → Nat → BitVec 8

/-- The unique device secret held in fuses (R417): byte number to byte. DESIGN CHOICE, safe: log entry 151. -/
opaque deviceSecret : Nat → BitVec 8

/-- The boot ROM revision a quote carries (Table 15.6). DESIGN CHOICE, safe: log entry 151. -/
opaque romRevision : Nat

/-- ROOT_HASH0–3 as fused (Table 15.1): root number to hash. DESIGN CHOICE, safe: log entry 151. -/
opaque rootKeyHash : Nat → List (BitVec 8)

/-- The number an MBX_REFUSED event gives each cause of R301, whose encoding the spec does not state: 0 no channel
matches, 1 the channel is FULL, 2 the mailbox is disabled. DESIGN CHOICE, safe: log entry 85. -/
opaque mbxCause : Nat → Nat

/-- A byte of a Whiteout output: run number and byte number (R394). The network's weights belong to the signed Rime
image, so the spec states no value. DESIGN CHOICE, safe: log entry 141. -/
opaque whiteoutByte : Nat → Nat → BitVec 8

/-- The 64-byte status record Rime sends its peers, by package ID, RIME_STAT, FAULT_CAUSE and Varve time (R405): the
spec names its content and not its layout. DESIGN CHOICE, safe: log entry 141. -/
opaque rimeRecord : Nat → Nat → Nat → Nat → List (BitVec 8)

/-- Status of the event that setting a FAULT_CAUSE bit 0, 1 or 2 raises (R400): Table 14.8 gives none. DESIGN CHOICE,
safe: log entry 141. -/
opaque causeStatus : Nat → Nat

/-- Which event code of Table 16.8 reports that a rail has left its range (R41, R468): the table gives none. DESIGN
CHOICE, safe: log entry 203. -/
opaque railStatus : Nat → Nat

/-- The number a CHECK_MISMATCH event gives each kind (Table 14.8): 0 read-back, 1 pair, 2 orphan. DESIGN CHOICE,
safe: log entry 141. -/
opaque checkKind : Nat → Nat

/-- The DIR_CRC that package `q` reports for table `t` before a message of it has arrived: how packages report it is
not stated (R203). DESIGN CHOICE, safe: log entry 199. -/
opaque peerDirCrc : Nat → Nat → Nat

/-- The bytes of a dictionary store copy: generation, and the entries by index × 256 + subindex (R362). The spec
states no byte form. DESIGN CHOICE, safe: log entry 206. -/
opaque storeImage : Nat → List (Nat × List (BitVec 8)) → List (BitVec 8)

/-- The number an MMP_PROTO event gives a host command, whose coding the spec does not state: 0 ACT, 1 PRE, 2 RD, 3
WR, 4 masked write, 5 refresh, 6 self-refresh entry, 7 exit, 8 MRW, 9 MRR, 10 training. DESIGN CHOICE, safe: log entry
108. -/
opaque mmpCommand : Nat → Nat

/-- The cause an MMP_UNSUPPORTED event gives: 0 data rate, 1 WCK:CK ratio; the spec states no coding. DESIGN CHOICE,
safe: log entry 108. -/
opaque mmpCause : Nat → Nat

/-- What a host mode register reads as before the host writes it (JESD209-5C states it, the spec does not). PRESUMED,
unsafe: log entry 107. -/
opaque modeDefault : Nat → Nat

/-- The pattern a training command returns: kind of training, and the mode registers the host has written (R311; the
patterns are the standard's). DESIGN CHOICE, safe: log entry 108. -/
opaque trainingPattern : Nat → List (Nat × Nat) → List (BitVec 8)

/-- Silicon revision as fused (0x1000:04). DESIGN CHOICE, safe: log entry 151. -/
opaque siliconRevision : Nat

/-- Serial number as fused (0x1000:07), UTF-8. DESIGN CHOICE, safe: log entry 151. -/
opaque serialNumber : List (BitVec 8)

/-- MAC address of the management Ethernet as fused (0x1030:05). DESIGN CHOICE, safe: log entry 151. -/
opaque macAddress : List (BitVec 8)

end Sys2Proof.Config
end

