-- ==== Sys2Proof/Machine/Flags.lean ====
section
/-!
DEFINITION. Values, exact arithmetic, rounding and the arithmetic flags of Arithmetic and Number Formats
(R61–R79). A value is a signed dyadic number `m · 2^e`, an infinity or NaN; every operation is exact until one of the
roundings the spec names.
Choices of the model: log entries 6, 9.
-/

namespace Sys2Proof.Machine

/-- A decoded value (R61): a finite number `±m · 2^e` (zero keeps its sign), an infinity, or NaN. -/
inductive Val where
  | fin (neg : Bool) (m : Nat) (e : Int)
  | inf (neg : Bool)
  | nan
  deriving DecidableEq, Repr

/-- The arithmetic flags of Table 2.5 (R77). -/
structure AFlags where
  sat : Bool := false
  nan : Bool := false
  inf : Bool := false
  ftz : Bool := false
  deriving DecidableEq, Repr

/-- The flags of two parts of one descriptor together (R77: the OR over the whole descriptor). -/
def AFlags.or (a b : AFlags) : AFlags :=
  ⟨a.sat || b.sat, a.nan || b.nan, a.inf || b.inf, a.ftz || b.ftz⟩

/-- The flags in the places of Table 2.5. -/
def AFlags.toNat (f : AFlags) : Nat := b2n f.sat + 2 * b2n f.nan + 4 * b2n f.inf + 8 * b2n f.ftz

/-- The flags a value read, produced or written sets (ARITH_NAN, ARITH_INF of Table 2.5). -/
def Val.flags : Val → AFlags
  | .fin .. => {}
  | .inf _ => { inf := true }
  | .nan => { nan := true }

namespace Val

/-- Positive zero. -/
def zero : Val := .fin false 0 0

/-- An integer as a value. -/
def ofInt (i : Int) : Val := .fin (decide (i < 0)) i.natAbs 0

/-- The integer mantissa of a finite value, signed; 0 for the others. -/
def signed : Val → Int
  | .fin n m _ => if n then -(m : Int) else m
  | _ => 0

/-- Whether a value is NaN. -/
def isNan : Val → Bool
  | .nan => true
  | _ => false

/-- Whether a value is a zero of either sign. -/
def isZero : Val → Bool
  | .fin _ m _ => decide (m = 0)
  | _ => false

/-- Whether a value is below zero. -/
def isNeg : Val → Bool
  | .fin n m _ => n && decide (m ≠ 0)
  | .inf n => n
  | .nan => false

/-- The value with its sign turned. -/
def neg : Val → Val
  | .fin n m e => .fin (!n) m e
  | .inf n => .inf (!n)
  | .nan => .nan

/-- The exact product (R69), with the special values of R70. -/
def mul : Val → Val → Val
  | .nan, _ => .nan
  | _, .nan => .nan
  | .inf a, .inf b => .inf (a != b)
  | .inf a, .fin b m _ => if m = 0 then .nan else .inf (a != b)
  | .fin a m _, .inf b => if m = 0 then .nan else .inf (a != b)
  | .fin a m e, .fin b n f => .fin (a != b) (m * n) (e + f)

/-- The exact sum of two values, with the special values of R70. The sign of a zero sum of operands of unlike sign is
a free value. -/
def addExact : Val → Val → Val
  | .nan, _ => .nan
  | _, .nan => .nan
  | .inf a, .inf b => if a = b then .inf a else .nan
  | .inf a, .fin .. => .inf a
  | .fin .., .inf b => .inf b
  | .fin a m e, .fin b n f =>
    let q := min e f
    let x : Int := (m * 2 ^ (e - q).toNat : Nat)
    let y : Int := (n * 2 ^ (f - q).toNat : Nat)
    let s := (if a then -x else x) + (if b then -y else y)
    if s = 0 then .fin (if a = b then a else Config.cancelSign) 0 q else .fin (decide (s < 0)) s.natAbs q

/-- `m · 2^e` as a multiple of `2^q`, rounded to nearest, ties to even (R75). -/
def rne (m : Nat) (e q : Int) : Nat :=
  if q ≤ e then m * 2 ^ (e - q).toNat
  else
    let k := (q - e).toNat
    let d := m / 2 ^ k
    let r := m % 2 ^ k
    let h := 2 ^ (k - 1)
    if r < h then d else if h < r then d + 1 else d + d % 2

/-- A finite magnitude rounded to `p` bits with least exponent `emin`, ties to even, no upper limit (R75): the
rounded multiple and its exponent. -/
def roundMag (p : Nat) (emin : Int) (m : Nat) (e : Int) : Nat × Int :=
  if m = 0 then (0, emin)
  else
    let q := max emin ((Nat.log2 m : Int) + e - (p - 1 : Nat))
    (rne m e q, q)

/-- Rounding to FP32 (R69): 24 bits, least exponent −149, a signed infinity above the largest finite value. -/
def round32 : Val → Val
  | .fin n m e =>
    let r := roundMag 24 (-149) m e
    if r.1 ≠ 0 ∧ 128 ≤ (Nat.log2 r.1 : Int) + r.2 then .inf n else .fin n r.1 r.2
  | v => v

/-- One FP32 addition (R69). -/
def add32 (a b : Val) : Val := round32 (addExact a b)

/-- The magnitudes compared: `a < b` of two finite magnitudes. -/
def magLt (m : Nat) (e : Int) (n : Nat) (f : Int) : Bool :=
  let q := min e f
  decide (m * 2 ^ (e - q).toNat < n * 2 ^ (f - q).toNat)

/-- Every comparison with NaN is false; −0 and +0 are equal; the infinities rank outermost (R78). -/
def lt : Val → Val → Bool
  | .nan, _ => false
  | _, .nan => false
  | .inf a, .inf b => a && !b
  | .inf a, .fin .. => a
  | .fin .., .inf b => !b
  | .fin a m e, .fin b n f =>
    if m = 0 ∧ n = 0 then false
    else if a && decide (m ≠ 0) then
      if b && decide (n ≠ 0) then magLt n f m e else true
    else if b && decide (n ≠ 0) then false
    else magLt m e n f

/-- Equality under R78: false with NaN, −0 equal to +0. -/
def eq (a b : Val) : Bool := !a.isNan && !b.isNan && !lt a b && !lt b a

/-- The result of ELEMENTWISE or REDUCE maximum of two values (R79): a lone NaN gives the other, equal values give
the first. -/
def max79 (a b : Val) : Val := if a.isNan then b else if b.isNan then a else if lt a b then b else a

/-- The minimum of two values (R79). -/
def min79 (a b : Val) : Val := if a.isNan then b else if b.isNan then a else if lt b a then b else a

/-- Take the element at a position out of a list. -/
def takeOut (l : List Val) (i : Nat) : Val × List Val :=
  ((l[i]?).getD zero, l.eraseIdx i)

/-- Sum terms in FP32 in an order the implementation chooses (R69, R71); with two terms or fewer there is one order.
`n` is the serial number of the sum and the first argument the number of terms. -/
def sumGo (n : Nat) : Nat → List Val → Val
  | 0, _ => zero
  | _, [] => zero
  | _, [a] => round32 a
  | _, [a, b] => add32 a b
  | k + 1, l =>
    let p := Config.sumPick n l.length
    let x := takeOut l (p.1 % l.length)
    let y := takeOut x.2 (p.2 % x.2.length)
    sumGo n k (add32 x.1 y.1 :: y.2)

/-- The FP32 sum of a list of terms, order and grouping free. -/
def sum32 (n : Nat) (l : List Val) : Val := sumGo n l.length l

/-- The partial sums `sumGo` passes through, in its own order. -/
def sumPartials (n : Nat) : Nat → List Val → List Val
  | 0, _ => []
  | _, [] => []
  | _, [a] => [round32 a]
  | _, [a, b] => [add32 a b]
  | k + 1, l =>
    let p := Config.sumPick n l.length
    let x := takeOut l (p.1 % l.length)
    let y := takeOut x.2 (p.2 % x.2.length)
    add32 x.1 y.1 :: sumPartials n k (add32 x.1 y.1 :: y.2)

/-- The flags of a list of values read or produced (Table 2.5). -/
def flagsOf (l : List Val) : AFlags := l.foldl (fun f v => f.or v.flags) {}

/-- The flags of an FP32 sum: of its terms and of every partial sum it produces (R77). -/
def sumFlags (n : Nat) (l : List Val) : AFlags := flagsOf (l ++ sumPartials n l.length l)

/-- The exact integer sum of a list of integer values (R68). -/
def sumInt (l : List Val) : Int := l.foldl (fun a v => a + v.signed) 0

end Val

end Sys2Proof.Machine
end

