-- ==== Sys2Proof/Machine/Operands.lean ====
section
/-!
DEFINITION. Operand forms: the format codes and encodings of Arithmetic and Number Formats (R60–R67, R74–R76), the
packing of rows (R62, R63), and the fields of the 64-byte descriptor (R83, R88).
-/

namespace Sys2Proof.Machine

/-- The formats of Table 2.1. -/
inductive Fmt where
  | int8 | int4 | e4m3 | e5m2 | mxfp4 | mxint8 | bf16 | fp16 | int32 | fp32
  deriving DecidableEq, Repr

namespace Fmt

/-- The format of a code; reserved codes name none (Table 2.1). -/
def ofCode : Nat → Option Fmt
  | 0 => some int8 | 1 => some int4 | 2 => some e4m3 | 3 => some e5m2 | 4 => some mxfp4
  | 5 => some mxint8 | 6 => some bf16 | 7 => some fp16 | 8 => some int32 | 9 => some fp32
  | _ => none

/-- Bits of one element (Table 2.1). -/
def bits : Fmt → Nat
  | int4 => 4 | mxfp4 => 4
  | int8 => 8 | e4m3 => 8 | e5m2 => 8 | mxint8 => 8
  | bf16 => 16 | fp16 => 16
  | int32 => 32 | fp32 => 32

/-- Formats with a block scale (R63). -/
def isMx : Fmt → Bool
  | mxfp4 => true | mxint8 => true | _ => false

/-- Integer formats, whose sums are exact (R68). -/
def isInt : Fmt → Bool
  | int8 => true | int4 => true | int32 => true | _ => false

/-- Formats the array multiplies (Table 2.1). -/
def isMultiplicand : Fmt → Bool
  | int32 => false | fp32 => false | _ => true

/-- Table 2.3: the accumulator of a permitted pair (R65). -/
def pair (a b : Fmt) : Option Fmt :=
  let cls : Fmt → Nat := fun
    | int8 => 1 | int4 => 1 | e4m3 => 2 | e5m2 => 2 | mxfp4 => 3 | mxint8 => 3 | bf16 => 4 | fp16 => 5 | _ => 0
  if cls a = 0 ∨ cls a ≠ cls b then none else if cls a = 1 then some int32 else some fp32

/-- Bytes of the element plane of `rows` rows of `len` elements, each row on a byte boundary (R62). -/
def rowBytes (f : Fmt) (len : Nat) : Nat := (len * f.bits + 7) / 8

/-- Bytes of an operand of `rows` × `len`: the element plane and, for an MX format, the scale plane at the next
64-byte boundary (R63). -/
def planeBytes (f : Fmt) (rows len : Nat) : Nat :=
  let e := rows * f.rowBytes len
  if f.isMx then alignUp e 64 + rows * (len / 32) else e

end Fmt

/-- Decode a binary floating-point code of `eb` exponent bits, `mb` mantissa bits (R61). `ieee` says the all-ones
exponent holds infinity and NaN (Table 2.2). -/
def decodeFloat (eb mb bias : Nat) (ieee : Bool) (c : Nat) : Val :=
  let s := c.testBit (eb + mb)
  let e := c / 2 ^ mb % 2 ^ eb
  let m := c % 2 ^ mb
  if ieee && decide (e = 2 ^ eb - 1) then (if m = 0 then .inf s else .nan)
  else if e = 0 then .fin s m (1 - (bias : Int) - mb)
  else .fin s (2 ^ mb + m) ((e : Int) - bias - mb)

/-- Decode one element code without its block scale and before the flushes of R67 (Table 2.2). -/
def decodeRaw (f : Fmt) (c : Nat) : Val :=
  match f with
  | .int8 => Val.ofInt (sint 8 c)
  | .int4 => Val.ofInt (sint 4 c)
  | .int32 => Val.ofInt (sint 32 c)
  | .mxint8 => match Val.ofInt (sint 8 c) with
    | .fin n m _ => .fin n m (-6)
    | v => v
  | .mxfp4 => decodeFloat 2 1 1 false (c % 16)
  | .e4m3 => if c % 128 = 127 then .nan else decodeFloat 4 3 7 false (c % 256)
  | .e5m2 => decodeFloat 5 2 15 true (c % 256)
  | .bf16 => decodeFloat 8 7 127 true (c % 2 ^ 16)
  | .fp16 => decodeFloat 5 10 15 true (c % 2 ^ 16)
  | .fp32 => decodeFloat 8 23 127 true (c % 2 ^ 32)

/-- Decode an input element with its block scale byte, flushed under R67; the flag says a flush happened (R64, R67). -/
def decodeIn (f : Fmt) (c scale : Nat) : Val × Bool :=
  match f, decodeRaw f c with
  | .e4m3, .fin s m e => if m ≠ 0 ∧ c / 8 % 16 = 0 then (.fin s 0 e, true) else (.fin s m e, false)
  | .e5m2, .fin s m e => if m ≠ 0 ∧ c / 4 % 32 = 0 then (.fin s 0 e, true) else (.fin s m e, false)
  | .mxfp4, .fin s m e => mx s m e
  | .mxint8, .fin s m e => mx s m e
  | _, v => (v, false)
where
  /-- An MX element with its scale applied; a magnitude below 2⁻¹²⁶ is flushed. -/
  mx (s : Bool) (m : Nat) (e : Int) : Val × Bool :=
    if scale % 256 = 255 then (.nan, false)
    else
      let e' := e + (scale % 256 : Nat) - 127
      if m ≠ 0 ∧ Val.magLt m e' 1 (-126) then (.fin s 0 e', true) else (.fin s m e', false)

/-- A finite magnitude rounded into a binary format of `mb` mantissa bits and bias `bias`, with no upper limit of the
exponent (R75). -/
def encodeMag (mb bias : Nat) (m : Nat) (e : Int) : Nat × Int :=
  Val.roundMag (mb + 1) (1 - (bias : Int) - mb) m e

/-- The exponent and mantissa fields of a rounded magnitude (R61). -/
def packMag (mb bias : Nat) (r : Nat × Int) : Nat :=
  if r.1 = 0 then 0
  else
    let lg := Nat.log2 r.1
    let E := (lg : Int) + r.2 + bias
    if E < 1 then r.1 * 2 ^ (r.2 - (1 - (bias : Int) - mb)).toNat
    else E.toNat * 2 ^ mb + (if mb ≤ lg then r.1 / 2 ^ (lg - mb) else r.1 * 2 ^ (mb - lg)) % 2 ^ mb

/-- Round a value to an integer, ties to even (R75). -/
def roundInt (n : Bool) (m : Nat) (e : Int) : Int :=
  let r : Int := (Val.rne m e 0 : Nat)
  if n then -r else r

/-- Convert to an integer of `w` bits, saturating (R75, Table 2.4). -/
def encodeInt (w : Nat) (v : Val) : Nat × AFlags :=
  let hi : Int := 2 ^ (w - 1) - 1
  let lo : Int := -(2 ^ (w - 1))
  match v with
  | .nan => (0, { nan := true })
  | .inf n => (unsint w (if n then lo else hi), { inf := true })
  | .fin n m e =>
    let r := roundInt n m e
    if r < lo then (unsint w lo, { sat := true }) else if hi < r then (unsint w hi,
      { sat := true }) else (unsint w r, {})

/-- Convert a value to a destination format other than MX: the code and the flags (R75, Table 2.4). -/
def encodeOut (f : Fmt) (v : Val) : Nat × AFlags :=
  match f with
  | .int8 => encodeInt 8 v
  | .int4 => encodeInt 4 v
  | .int32 => encodeInt 32 v
  | .mxfp4 => (0, {})
  | .mxint8 => (0, {})
  | .e4m3 => fp8 3 7 v 0x7E 0x7F 448
  | .e5m2 => fp8 2 15 v 0x7B 0x7E 57344
  | .bf16 => fp 15 7 127 v 0x7F80 0x7FC0 127
  | .fp16 => fp 15 10 15 v 0x7C00 0x7E00 15
  | .fp32 => fp 31 23 127 v 0x7F800000 0x7FC00000 127
where
  /-- FP8: overflow and infinity store the largest finite value. -/
  fp8 (mb bias : Nat) (v : Val) (mx nan largest : Nat) : Nat × AFlags :=
    match v with
    | .nan => (nan, { nan := true })
    | .inf n => (b2n n * 128 + mx, { inf := true })
    | .fin n m e =>
      let r := encodeMag mb bias m e
      if largest < (if 0 ≤ r.2 then r.1 * 2 ^ r.2.toNat else r.1 / 2 ^ (-r.2).toNat) then
        (b2n n * 128 + mx, { sat := true })
      else (b2n n * 128 + packMag mb bias r, {})
  /-- BF16, FP16 and FP32: overflow becomes infinity. -/
  fp (sb mb bias : Nat) (v : Val) (inf nan : Nat) (emax : Int) : Nat × AFlags :=
    match v with
    | .nan => (nan, { nan := true })
    | .inf n => (b2n n * 2 ^ sb + inf, { inf := true })
    | .fin n m e =>
      let r := encodeMag mb bias m e
      if r.1 ≠ 0 ∧ emax < (Nat.log2 r.1 : Int) + r.2 then (b2n n * 2 ^ sb + inf, { inf := true })
      else (b2n n * 2 ^ sb + packMag mb bias r, {})

/-- The scale byte and the 32 element codes of one block converted to an MX format (R76). -/
def encodeMx (f : Fmt) (vs : List Val) : Nat × List Nat × AFlags :=
  let fl := vs.foldl (fun a v => a.or v.flags) ({} : AFlags)
  if vs.any (fun v => match v with | .fin .. => false | _ => true) then (0xFF, vs.map (fun _ => 0),
    fl.or { nan := true })
  else if vs.all Val.isZero then (0, vs.map (fun _ => 0), fl)
  else
    let lg := vs.foldl (fun (a : Int) v => match v with
      | .fin _ m e => if m = 0 then a else max a ((Nat.log2 m : Int) + e)
      | _ => a) (-100000)
    let emax : Int := if f = .mxfp4 then 2 else 0
    let se := max (-127) (min 127 (lg - emax))
    let cs := vs.map (fun v => match v with
      | .fin n m e => elem n m (e - se)
      | _ => (0, false))
    ((se + 127).toNat, cs.map (·.1), fl.or { sat := cs.any (·.2) })
where
  /-- One element divided by the scale, rounded and saturated; −0 and small values store code 0. -/
  elem (n : Bool) (m : Nat) (e : Int) : Nat × Bool :=
    if f = .mxfp4 then
      let r := encodeMag 1 1 m e
      let x := if 0 ≤ r.2 then r.1 * 2 ^ r.2.toNat else r.1 / 2 ^ (-r.2).toNat
      if r.1 = 0 then (0, false)
      else if 6 < x then (b2n n * 8 + 7, true) else (b2n n * 8 + packMag 1 1 r, false)
    else
      let k := Val.rne m (e + 6) 0
      if 127 < k then (unsint 8 (if n then -127 else 127), true) else (unsint 8 (if n then -(k : Int) else k), false)

/-- Element code `i` of a row of `b`-bit elements (R62). -/
def codeAt (b : Nat) (row : Bytes) (i : Nat) : Nat :=
  if b = 4 then leNat ((row.drop (i / 2)).take 1) / 16 ^ (i % 2) % 16 else fieldN row (i * (b / 8)) (b / 8)

/-- Pack element codes of `b` bits into bytes; an odd last 4-bit element leaves its upper half zero (R62). -/
def packCodes (b : Nat) (cs : List Nat) : Bytes :=
  if b = 4 then (chunks 2 cs).map (fun p => byte (p.headD 0 % 16 + 16 * ((p.drop 1).headD 0 % 16)))
  else cs.flatMap (fun c => natLE (b / 8) c)

/-! ### Descriptor fields (Table 3.1) -/

/-- A range of granules of a scratchpad (Table 3.1). -/
structure Range where
  base : Nat
  len : Nat
  deriving DecidableEq, Repr

/-- A 64-byte descriptor, as its bytes. Each accessor below is one field of Table 3.1. -/
abbrev Desc := Bytes

namespace Desc

/-- OPCLASS. -/
def opclass (x : Desc) : Nat := fieldN x 0 1
/-- OPVAR. -/
def opvar (x : Desc) : Nat := fieldN x 1 1
/-- FMT_A code. -/
def fmtA (x : Desc) : Nat := bits (fieldN x 2 1) 3 0
/-- FMT_B code. -/
def fmtB (x : Desc) : Nat := bits (fieldN x 2 1) 7 4
/-- FMT_D code. -/
def fmtD (x : Desc) : Nat := bits (fieldN x 3 1) 3 0
/-- CTX_TAG, the whole 16 bits. -/
def ctxTag (x : Desc) : Nat := fieldN x 4 2
/-- CONTEXT. -/
def ctx (x : Desc) : Nat := bits (x.ctxTag) 3 0
/-- FLAGS. -/
def flags (x : Desc) : Nat := fieldN x 6 2
/-- CPL_SUPPRESS. -/
def cplSuppress (x : Desc) : Bool := bit x.flags 0
/-- ACCUM. -/
def accum (x : Desc) : Bool := bit x.flags 1
/-- NO_STEAL. -/
def noSteal (x : Desc) : Bool := bit x.flags 2
/-- FENCE. -/
def fence (x : Desc) : Bool := bit x.flags 3
/-- CHECKSUM. -/
def checksum (x : Desc) : Bool := bit x.flags 4
/-- A range field at an offset. -/
def range (x : Desc) (o : Nat) : Range := ⟨fieldN x o 2, fieldN x (o + 2) 2⟩
/-- SRC_A. -/
def srcA (x : Desc) : Range := x.range 0x08
/-- SRC_B. -/
def srcB (x : Desc) : Range := x.range 0x0C
/-- DST. -/
def dst (x : Desc) : Range := x.range 0x10
/-- META. -/
def metaR (x : Desc) : Range := x.range 0x14
/-- WAIT_IDX. -/
def waitIdx (x : Desc) : Nat := bits (fieldN x 0x18 2) 13 0
/-- WAIT_EQ. -/
def waitEq (x : Desc) : Bool := bit (fieldN x 0x18 2) 14
/-- WAIT_EN. -/
def waitEn (x : Desc) : Bool := bit (fieldN x 0x18 2) 15
/-- SIG_IDX. -/
def sigIdx (x : Desc) : Nat := bits (fieldN x 0x1A 2) 13 0
/-- SIG_EN. -/
def sigEn (x : Desc) : Bool := bit (fieldN x 0x1A 2) 15
/-- SIG_INCR. -/
def sigIncr (x : Desc) : Nat := fieldN x 0x1C 4
/-- WAIT_VALUE. -/
def waitValue (x : Desc) : Nat := fieldN x 0x20 8
/-- A PARAM field: offset from the start of the descriptor and size. -/
def param (x : Desc) (o n : Nat) : Nat := fieldN x o n
/-- M of the matrix classes (Table 3.4). -/
def m (x : Desc) : Nat := x.param 0x28 2
/-- N of the matrix classes. -/
def n (x : Desc) : Nat := x.param 0x2A 2
/-- K of the matrix classes. -/
def k (x : Desc) : Nat := x.param 0x2C 2
/-- COUNT of ELEMENTWISE. -/
def count (x : Desc) : Nat := x.param 0x28 4
/-- B_MODE of ELEMENTWISE. -/
def bMode (x : Desc) : Nat := x.param 0x2C 1
/-- OUT_SCALE, FP32 code. -/
def outScale (x : Desc) : Nat := x.param 0x30 4
/-- ROWS of REDUCE. -/
def rows (x : Desc) : Nat := x.param 0x28 2
/-- COLS of REDUCE. -/
def cols (x : Desc) : Nat := x.param 0x2A 2
/-- TABLE_VA of GATHER and SCATTER_ACC. -/
def tableVa (x : Desc) : Nat := x.param 0x28 8
/-- ROW_BYTES of GATHER and SCATTER_ACC. -/
def rowBytes (x : Desc) : Nat := x.param 0x30 4
/-- COUNT of GATHER and SCATTER_ACC. -/
def idxCount (x : Desc) : Nat := x.param 0x34 4
/-- ROW_LIMIT of GATHER and SCATTER_ACC. -/
def rowLimit (x : Desc) : Nat := x.param 0x38 4

end Desc

end Sys2Proof.Machine
end

