-- ==== Sys2Proof/Machine/Desc.lean ====
section
/-!
DEFINITION. The operator classes of Table 3.3 and the checks of a descriptor at issue (R84–R92, R117, R118, R136,
R139–R144, R157, R169, R187, R212), in the order of R480.
Choices of the model: log entries 10, 182, 183, 187, 188, 189.
-/

namespace Sys2Proof.Machine

/-- The operator classes (Table 3.3). -/
inductive Cls where
  | nop | dense | nm | csr | merge | gather | scatter | store
  | ew (v : Nat) | reduce (v : Nat)
  | topk | voxelize | rulebook | mapLookup | mapUpdate | prune | predict
  deriving DecidableEq, Repr

namespace Desc

/-- The class of OPCLASS and OPVAR; none for a value outside Table 3.3 (R86). -/
def cls (x : Desc) : Option Cls :=
  match x.opclass, x.opvar with
  | 0x00, 0 => some .nop
  | 0x01, 0 => some .dense
  | 0x02, 0 => some .nm
  | 0x03, 0 => some .csr
  | 0x04, 0 => some .merge
  | 0x10, 0 => some .gather
  | 0x11, 0 => some .scatter
  | 0x11, 1 => some .store
  | 0x20, v => if v ≤ 8 then some (.ew v) else none
  | 0x21, v => if v ≤ 2 then some (.reduce v) else none
  | 0x30, 0 => some .topk
  | 0x40, 0 => some .voxelize
  | 0x41, 0 => some .rulebook
  | 0x50, 0 => some .mapLookup
  | 0x51, 0 => some .mapUpdate
  | 0x60, 0 => some .prune
  | 0x61, 0 => some .predict
  | _, _ => none

/-- ELEMENTWISE CONVERT and RELU read A only (R91). -/
def unary (v : Nat) : Bool := v == 7 || v == 8

/-- The fields of PARAM a class uses, as (lowest bit from 0x28, bits) (Tables 3.4, 4.6, 5.8, 5.12, 6.3, 7.2); DENSE_MM uses none past
OUT_SCALE (log 189). -/
def paramFields (x : Desc) : Cls → List (Nat × Nat)
  | .nop => []
  | .dense => [(0, 48), (64, 32)]
  | .nm => [(0, 48), (64, 32), (128, 8)]
  | .csr => [(0, 48), (64, 32)]
  | .merge => [(0, 48), (64, 32)]
  | .gather => [(0, 48), (64, 96)]
  | .scatter => [(0, 48), (64, 96)]
  | .store => [(0, 48), (64, 8), (96, 64)]
  | .ew v => if unary v then [(0, 32), (64, 32)] else [(0, 40), (64, 32)]
  | .reduce _ => [(0, 32), (64, 32)]
  | .topk => [(0, 25), (32, 96)]
  | .voxelize => match x.param 0x30 1 with
    | 1 => [(0, 48), (64, 16)]
    | 2 => [(0, 48), (64, 48)]
    | _ => [(0, 48), (64, 56)]
  | .rulebook => [(0, 64), (64, 48), (128, 64)]
  | .mapLookup => [(0, 48)]
  | .mapUpdate => [(0, 48)]
  | .prune => [(0, 24)]
  | .predict => [(0, 48), (64, 56), (120, 1), (128, 48)]

/-- A bit of PARAM outside the fields of the class is set (R84, R88). -/
def paramRsvd (x : Desc) (c : Cls) : Bool :=
  (x.paramFields c).foldl (fun p f => setBits p f.1 f.2 0) (x.param 0x28 24) != 0

/-- A RSVD or always-zero bit is set (R84, reason 0x05). -/
def rsvd (x : Desc) (c : Cls) : Bool :=
  bits (fieldN x 3 1) 7 4 != 0 || bits x.flags 15 5 != 0 || bit (fieldN x 0x1A 2) 14 || x.paramRsvd c

/-- OUT_SCALE as a value. -/
def scale (x : Desc) : Val := decodeRaw .fp32 x.outScale

/-- OUT_SCALE is infinite or NaN (R90). -/
def badScale (x : Desc) : Bool :=
  match x.scale with
  | .fin .. => false
  | _ => true

/-- Code of a format that Table 2.1 does not reserve. -/
def okCode (c : Nat) : Bool := (Fmt.ofCode c).isSome

/-- FMT_A; INT8 where the code is reserved. -/
def fA (x : Desc) : Fmt := (Fmt.ofCode x.fmtA).getD .int8
/-- FMT_B. -/
def fB (x : Desc) : Fmt := (Fmt.ofCode x.fmtB).getD .int8
/-- FMT_D. -/
def fD (x : Desc) : Fmt := (Fmt.ofCode x.fmtD).getD .int8

/-- The format is INT32 or FP32. -/
def wide (f : Fmt) : Bool := f == .int32 || f == .fp32

/-- ACCUM requires FMT_D INT32 or FP32 (Table 3.2). -/
def accumOk (x : Desc) : Bool := !x.accum || wide x.fD

/-- COUNT of ELEMENTWISE, or another length, is a whole number of MX blocks where the format is MX (R63). -/
def mxOk (f : Fmt) (n : Nat) : Bool := !f.isMx || n % 32 == 0

/-- TOPK MODE. -/
def topkMerge (x : Desc) : Bool := x.param 0x2A 1 == 1
/-- PREDICT MODE. -/
def audit (x : Desc) : Bool := bit (x.param 0x37 1) 0
/-- PREDICT N_OUT. -/
def nOut (x : Desc) : Nat := x.param 0x30 2

/-- The format checks of a class (reason 0x02). Reserved codes are refused in every field the class does not say it
leaves uninterpreted (R60). ACCUM constrains FMT_D of the matrix classes, ELEMENTWISE and REDUCE only (log 183);
CONVERT and RELU take any operand format (log 187). -/
def fmtBad (x : Desc) (c : Cls) : Bool :=
  let a := okCode x.fmtA
  let b := okCode x.fmtB
  let d := okCode x.fmtD
  let all := a && b && d
  let keys : List Fmt := [.int4, .int8, .int32, .e4m3, .e5m2, .bf16, .fp16, .fp32]
  !match c with
  | .nop => all
  | .dense => all && (Fmt.pair x.fA x.fB).isSome && x.accumOk && mxOk x.fA x.k && mxOk x.fD x.n
  | .nm => all && (Fmt.pair x.fA x.fB).isSome && x.accumOk && mxOk x.fA x.k && mxOk x.fD x.n
  | .csr => all && (Fmt.pair x.fA x.fB).isSome && x.accumOk && !x.fA.isMx && mxOk x.fD x.n
  | .merge => all && (Fmt.pair x.fA x.fB).isSome && x.accumOk && !x.fA.isMx && mxOk x.fD x.n
  | .gather => true
  | .scatter => d && !x.fD.isMx
  | .store => all && !(x.fD.isMx && x.param 0x30 1 == 0xFF)
  | .ew v =>
    if unary v then a && d && x.accumOk && mxOk x.fA x.count && mxOk x.fD x.count
    else all && x.accumOk && !(v == 2 && (wide x.fA || wide x.fB)) && !((v == 5 || v == 6) && x.fD != .int8)
      && mxOk x.fA x.count && mxOk x.fB x.count && mxOk x.fD x.count
  | .reduce _ => all && x.accumOk && mxOk x.fA x.cols && mxOk x.fD x.rows
  | .topk => a && keys.contains x.fA && x.fmtB == 0 && x.fmtD == 0
  | .voxelize => fieldN x 2 1 == 0 && x.fmtD == 0
  | .rulebook => fieldN x 2 1 == 0 && x.fmtD == 0
  | .mapLookup => fieldN x 2 1 == 0 && x.fmtD == 0
  | .mapUpdate => fieldN x 2 1 == 0 && x.fmtD == 0
  | .prune => all && x.fmtD == x.fmtA && !wide x.fA
  | .predict => all && ([.int8, .e4m3, .e5m2, .bf16, .fp16] : List Fmt).contains x.fA

/-- The parameter checks of a class (reason 0x06); a count of 0 is none of them (log 188). -/
def paramBad (x : Desc) (c : Cls) : Bool :=
  let mnk := x.m != 0 && x.n != 0 && x.k != 0 && !x.badScale
  let rowB := x.rowBytes % 64 == 0 && decide (64 ≤ x.rowBytes) && decide (x.rowBytes ≤ 65536)
  let in_ := fun v lo hi => decide (lo ≤ v) && decide (v ≤ hi)
  !match c with
  | .nop => true
  | .dense => mnk
  | .nm => mnk && x.n % 64 == 0 && x.k % 64 == 0 && decide (x.param 0x38 1 ≤ 4)
  | .csr => mnk && x.n % 64 == 0 && x.k % 64 == 0
  | .merge => mnk
  | .gather => rowB
  | .scatter => rowB
  | .store =>
    x.tableVa % 64 == 0 && in_ x.rowLimit 1 65536 && (decide (x.param 0x30 1 ≤ 4) || x.param 0x30 1 == 0xFF)
  | .ew v => (unary v || decide (x.bMode ≤ 1)) && !x.badScale
  | .reduce _ => !x.badScale
  | .topk =>
    in_ (x.param 0x28 2) 1 1024 &&
    (if x.param 0x2A 1 = 0 then
      in_ (x.param 0x2C 2) 1 256 && x.param 0x2E 2 == 0 && in_ (x.param 0x30 4) 1 2097152
        && decide (x.param 0x34 4 + x.param 0x30 4 - 1 ≤ 0xFFFFFFFE)
     else x.param 0x2A 1 == 1 && bit (x.param 0x2B 1) 0 && x.param 0x2C 2 == 0 && in_ (x.param 0x2E 2) 1 1024
        && x.param 0x30 4 == 0 && x.param 0x34 4 == 0)
  | .voxelize =>
    x.param 0x28 6 % 0x200000 == 0 && decide (x.param 0x31 1 ≤ 15) &&
    (match x.param 0x30 1 with
     | 0 => decide (x.param 0x32 1 ≤ 6) && in_ (x.param 0x36 1) 1 16 &&
        (if x.param 0x33 1 = 1 then in_ (x.param 0x34 2) 1 8192 else x.param 0x33 1 == 0 && x.param 0x34 2 == 0)
     | 1 => true
     | 2 => in_ (x.param 0x32 1) 1 32 && in_ (x.param 0x33 1) 1 32
     | _ => false)
  | .rulebook =>
    let ks := (x.param 0x2E 1, x.param 0x2F 1)
    (ks == (1, 1) || ks == (3, 1) || ks == (5, 1) || ks == (2, 2)) && x.param 0x3E 2 != 0 &&
    x.param 0x28 6 % 0x200000 == 0 && x.param 0x38 6 % 64 == 0 &&
    (if x.param 0x2F 1 = 2 then x.param 0x30 6 % 0x200000 == 0 else x.param 0x30 6 == 0)
  | .mapLookup => true
  | .mapUpdate => true
  | .prune => x.param 0x28 2 != 0 && decide (x.param 0x2A 1 ≤ 4)
  | .predict =>
    in_ x.nOut 1 16384 &&
    (if x.audit then
      x.param 0x28 8 == 0 && x.param 0x32 2 == 0 && x.param 0x34 2 == 0 && x.param 0x3C 2 == 0
     else x.param 0x28 8 % 64 == 0 && in_ (x.param 0x32 2) 1 16384 && in_ (x.param 0x34 2) 1 256)

/-- Bytes of a top-k list record (R214). -/
def recordBytes (k bits : Nat) (keyed : Bool) : Nat :=
  64 + ceilDiv (4 * k) 64 * 64 + (if keyed then ceilDiv (k * bits) 512 * 64 else 0)

/-- Bytes of the output of PREDICT MODE 0 (Table 4.8). -/
def predictBytes (n : Nat) : Nat := 64 + alignUp (ceilDiv n 8) 64 + alignUp (4 * n) 64

/-- The ranges a class uses, with the bytes it needs of each: SRC_A, SRC_B, DST, META; none for an unused range
(R84, R89, R92, R117, R125, R136, R139, R141, R142, R157). -/
def needs (x : Desc) (c : Cls) : Option Nat × Option Nat × Option Nat × Option Nat :=
  match c with
  | .nop => (none, none, none, none)
  | .dense => (some (x.fA.planeBytes x.m x.k), some (x.fB.planeBytes x.n x.k), some (x.fD.planeBytes x.m x.n), none)
  | .nm => (some (x.fA.planeBytes x.m x.k), some 0, some (x.fD.planeBytes x.m x.n), some (4 * (x.n / 64 * (x.k / 64))))
  | .csr => (some (x.fA.planeBytes x.m x.k), some 0, some (x.fD.planeBytes x.m x.n), some (4 * (x.n / 64 * (x.k / 64))))
  | .merge => (some (4 * (x.m + 1)), some (4 * (x.n + 1)), some (x.fD.planeBytes x.m x.n), none)
  | .gather => (none, some (4 * x.idxCount), some (x.idxCount * x.rowBytes), none)
  | .scatter => (some (x.idxCount * x.rowBytes), some (4 * x.idxCount), none, none)
  | .store => (some (x.idxCount * alignUp (x.fD.planeBytes 64 64) 64), none, some (4 * x.idxCount), none)
  | .ew v =>
    (some (x.fA.planeBytes 1 x.count),
     if unary v then none
     else some (x.fB.planeBytes 1 (if x.bMode = 1 then (if x.fB.isMx then 32 else 1) else x.count)),
     some (x.fD.planeBytes 1 x.count), none)
  | .reduce _ => (some (x.fA.planeBytes x.rows x.cols), none, some (x.fD.planeBytes 1 x.rows), none)
  | .topk =>
    let k := x.param 0x28 2
    let b := x.fA.bits
    if x.topkMerge then (some 64, none, some (recordBytes k b true), none)
    else (some (x.param 0x2C 2 * (ceilDiv (x.param 0x30 4 * b) 512 * 64)), none,
          some (x.param 0x2C 2 * recordBytes k b (bit (x.param 0x2B 1) 0)), none)
  | .voxelize => (if x.param 0x30 1 = 0 then some (64 * x.param 0x36 1) else none, none, some 64, none)
  | .rulebook => (none, none, some 64, none)
  | .mapLookup => (none, none, some 64, none)
  | .mapUpdate => (none, none, some 64, none)
  | .prune => (some (x.param 0x28 2 * alignUp (x.fA.planeBytes 64 64) 64), none, some 0, some 0)
  | .predict =>
    if x.audit then (some (ceilDiv (x.nOut * x.fA.bits) 8), some (predictBytes x.nOut), some 64, none)
    else (some (ceilDiv (x.param 0x32 2 * x.fA.bits) 8), none, some (predictBytes x.nOut), none)

/-- Granules of a scratchpad of the AF-7200. -/
def spGranules : Nat := 16384

/-- One range against what its class needs (reason 0x03). -/
def rangeBad (r : Range) (need : Option Nat) : Bool :=
  match need with
  | none => r.base != 0 || r.len != 0
  | some n => r.len == 0 || decide (spGranules < r.base + r.len) || decide (r.len * 64 < n)

/-- A range of a descriptor breaks R84 (reason 0x03). -/
def rangesBad (x : Desc) (c : Cls) : Bool :=
  let n := x.needs c
  rangeBad x.srcA n.1 || rangeBad x.srcB n.2.1 || rangeBad x.dst n.2.2.1 || rangeBad x.metaR n.2.2.2

/-- The ranges a class reads and those it writes. -/
def reads (x : Desc) (c : Cls) : List Range :=
  let n := x.needs c
  (if n.1.isSome then [x.srcA] else []) ++ (if n.2.1.isSome then [x.srcB] else []) ++
  (if n.2.2.2.isSome && c != .prune then [x.metaR] else [])

/-- The ranges a class writes. -/
def writes (x : Desc) (c : Cls) : List Range :=
  let n := x.needs c
  (if n.2.2.1.isSome then [x.dst] else []) ++ (if n.2.2.2.isSome && c == .prune then [x.metaR] else [])

/-- Two ranges share a granule. -/
def meets (a b : Range) : Bool := overlaps a.base a.len b.base b.len

/-- Ranges of one descriptor overlap against R85 (reason 0x04). -/
def overlapBad (x : Desc) (c : Cls) : Bool :=
  let inPlace := match c with
    | .ew _ => x.srcA == x.dst
    | _ => false
  (x.writes c).any (fun w =>
    (if inPlace then ((if (x.needs c).2.1.isSome then [x.srcB] else []) : List Range) else x.reads c).any (meets w)) ||
  (match x.writes c with
   | [a, b] => meets a b
   | _ => false)

/-- A sync field breaks R84 (reason 0x08). Every 14-bit index names one of the 16,384 objects of the AF-7200. -/
def syncBad (x : Desc) : Bool := x.sigEn && x.sigIncr == 0

/-- The reason a descriptor is refused at issue, the first in the order of R480; none where it passes. -/
def invalid (x : Desc) : Option Nat :=
  match x.cls with
  | none => some 0x01
  | some c =>
    if x.rsvd c then some 0x05
    else if (c == .voxelize || c == .mapLookup || c == .mapUpdate) && x.ctx != 0 then some 0x07
    else if x.fmtBad c then some 0x02
    else if x.paramBad c then some 0x06
    else if x.rangesBad c then some 0x03
    else if x.overlapBad c then some 0x04
    else if x.syncBad then some 0x08
    else none

/-- Ranges of a descriptor, whatever its class: none where the class is undefined. -/
def allReads (x : Desc) : List Range := match x.cls with
  | some c => x.reads c
  | none => []

/-- Ranges a descriptor writes. -/
def allWrites (x : Desc) : List Range := match x.cls with
  | some c => x.writes c
  | none => []

/-- Two descriptors of one queue meet in a granule that at least one of them writes (R98). -/
def conflicts (x y : Desc) : Bool :=
  x.allWrites.any (fun w => (y.allReads ++ y.allWrites).any (meets w)) ||
  x.allReads.any (fun r => y.allWrites.any (meets r))

/-- Two descriptors name a common granule (R275, R98: stealable entries overlap no range of an earlier one). -/
def touches (x y : Desc) : Bool :=
  (x.allReads ++ x.allWrites).any (fun a => (y.allReads ++ y.allWrites).any (meets a))

/-- The class executes on the core's array (Table 3.3, R97). -/
def onArray (x : Desc) : Bool :=
  match x.cls with
  | some .dense => true
  | some .nm => true
  | some .csr => true
  | some .merge => true
  | some (.ew _) => true
  | some (.reduce _) => true
  | _ => false

end Desc

/-! ### Statuses (R103) -/

/-- The place of a status in the precedence of R103 and R257; statuses of one kind keep the order they were met in. -/
def statusRank (s : Nat) : Nat :=
  let order : List (List Nat) := [[0x0206], [0x0205], [0x0210], [0x0B01], [0x0B02], [0x0227], [0x0101],
    [0x0201, 0x0202, 0x0203, 0x0204, 0x020B], [0x0701, 0x0702, 0x0703], [0x020A, 0x0211, 0x0212], [0x0213], [0x0226],
    [0x0302], [0x0303], [0x0403], [0x0404], [0x0405], [0x0502], [0x0503], [0x0504], [0x0505], [0x0506], [0x0603],
    [0x0216], [0x0707], [0x0301], [0x0401], [0x0402], [0x0501], [0x0601], [0x0602]]
  match findAt (fun l => l.contains s) order with
  | some (i, _) => i
  | none => if s = 0 then 1000 else 999

/-- The first of the statuses met, in the order of R103, with its DETAIL; 0x0000 with none. -/
def firstStatus : List (Nat × Nat) → Nat × Nat
  | [] => (0, 0)
  | (s, x) :: l =>
    let r := firstStatus l
    if s = 0 then r else if r.1 = 0 ∨ statusRank s ≤ statusRank r.1 then (s, x) else r

end Sys2Proof.Machine
end

