-- ==== Sys2Proof/Machine/Crypto.lean ====
section
/-!
DEFINITION. The published algorithms the spec names and does not restate: CRC-32C (given by Firn Point Front-End),
AES-256 (FIPS 197), CMAC (SP 800-38B), key wrap (SP 800-38F KW), GCM (SP 800-38D), SHA-256 (FIPS 180-4), HMAC,
the counter-mode KDF of SP 800-108, and LMS verification (RFC 8554). PRESUMED from those standards (assumption 5).
Choices of the model: log entry 5.
-/

namespace Sys2Proof.Crypto

/-! ### CRC-32C -/

/-- One bit of the reflected CRC-32C with polynomial 0x1EDC_6F41. -/
def crcBit (c : Nat) : Nat := if c % 2 = 1 then (c / 2) ^^^ 0x82F63B78 else c / 2

/-- One byte folded into the CRC register. -/
def crcByte (c : Nat) (b : Byte) : Nat :=
  crcBit (crcBit (crcBit (crcBit (crcBit (crcBit (crcBit (crcBit (c ^^^ b.toNat))))))))

/-- CRC-32C: initial value and final XOR 0xFFFF_FFFF. -/
def crc32c (bs : Bytes) : Nat := (bs.foldl crcByte 0xFFFFFFFF) ^^^ 0xFFFFFFFF

/-! ### AES-256 -/

/-- The substitution table, byte i at bits 8i+7 … 8i. -/
def sboxTable : Nat :=
  0x16BB54B00F2D99416842E6BF0D89A18CDF2855CEE9871E9B948ED9691198F8E19E1DC186B95735610EF6034866B53E708A8BBD4B1F74DDE8C6B4A61C2E2578BA08AE7A65EAF4566CA94ED58D6D37C8E779E4959162ACD3C25C2406490A3A32E0DB0B5EDE14B8EE4688902A22DC4F816073195D643D7EA7C41744975FEC130CCDD2F3FF1021DAB6BCF5389D928F40A351A89F3C507F02F94585334D43FBAAEFD0CF584C4A39BECB6A5BB1FC20ED00D153842FE329B3D63B52A05A6E1B1A2C830975B227EBE28012079A059618C323C7041531D871F1E5A534CCF73F362693FDB7C072A49CAFA2D4ADF04759FA7DC982CA76ABD7FE2B670130C56F6BF27B777C63

/-- The inverse substitution table. -/
def invSboxTable : Nat :=
  0x7D0C2155631469E126D677BA7E042B17619953833CBBEBC8B0F52AAE4D3BE0A0EF9CC9939F7AE52D0D4AB519A97F51605FEC8027591012B131C7078833A8DD1FF45ACD78FEC0DB9A2079D2C64B3E56FC1BBE18AA0E62B76F89C5291D711AF1476EDF751CE837F9E28535ADE72274AC9673E6B4F0CECFF297EADC674F4111913A6B8A130103BDAFC1020F3FCA8F1E2CD00645B3B80558E4F70AD3BC8C00ABD890849D8DA75746155EDAB9EDFD5048706C92B6655DCC5CA4D41698688664F6F87225D18B6D49A25B76B224D92866A12E084EC3FA420B954CEE3D23C2A632947B54CBE9DEC444438E3487FF2F9B8239E37CFBD7F3819EA340BF38A53630D56A0952

/-- Byte `i` of a number. -/
def byteN (s i : Nat) : Nat := s / 2 ^ (8 * i) % 256

/-- SubBytes of one byte. -/
def sub (x : Nat) : Nat := byteN sboxTable x

/-- InvSubBytes of one byte. -/
def invSub (x : Nat) : Nat := byteN invSboxTable x

/-- Element `i` of a list of numbers. -/
def nth (l : List Nat) (i : Nat) : Nat := l.getD i 0

/-- A 16-byte state from its bytes, byte i (row i mod 4 of column i / 4) at bits 8i+7 … 8i. -/
def stateOf (f : Nat → Nat) : Nat := (List.range 16).foldl (fun s i => s + f i * 2 ^ (8 * i)) 0

/-- SubBytes, then ShiftRows: output byte 4c + r is input byte 4(c + r) + r. -/
def subShift (s : Nat) : Nat := stateOf (fun i => sub (byteN s ((i + 4 * (i % 4)) % 16)))

/-- InvShiftRows, then InvSubBytes. -/
def invSubShift (s : Nat) : Nat := stateOf (fun i => invSub (byteN s ((i + 16 - 4 * (i % 4)) % 16)))

/-- 1 in the first byte of each column. -/
def colOnes : Nat := 0x00000001000000010000000100000001

/-- Multiplication by x in GF(2⁸) with x⁸ + x⁴ + x³ + x + 1, of every byte of a state. -/
def xt (s : Nat) : Nat :=
  (s &&& (colOnes * 0x7F7F7F7F)) * 2 ^^^ (s &&& (colOnes * 0x80808080)) / 128 * 0x1B

/-- Each column turned by `k` bytes: row r takes the byte of row r + k. -/
def rotCol (k s : Nat) : Nat :=
  (s / 2 ^ (8 * k)) &&& (colOnes * (2 ^ (32 - 8 * k) - 1)) |||
    (s &&& (colOnes * (2 ^ (8 * k) - 1))) * 2 ^ (32 - 8 * k)

/-- MixColumns: row r becomes 2·row r + 3·row (r+1) + row (r+2) + row (r+3). -/
def mixCols (s : Nat) : Nat := xt s ^^^ rotCol 1 (xt s ^^^ s) ^^^ rotCol 2 s ^^^ rotCol 3 s

/-- InvMixColumns: the matrix of 14, 11, 13, 9 is that of MixColumns times that of 5, 0, 4, 0. -/
def invMixCols (s : Nat) : Nat := mixCols (s ^^^ xt (xt (s ^^^ rotCol 2 s)))

/-- The words of the AES-256 key schedule, most recent first, from the words so far; byte i of a word at bits
8i+7 … 8i. -/
def expandGo : Nat → Nat → Nat → List Nat → List Nat
  | 0, _, _, ws => ws
  | n + 1, i, rc, ws =>
    let t := ws.headD 0
    let b := fun (k : Nat) => sub (byteN t k)
    let u := if i % 8 = 0 then (b 1 ^^^ rc) + b 2 * 2 ^ 8 + b 3 * 2 ^ 16 + b 0 * 2 ^ 24
      else if i % 8 = 4 then b 0 + b 1 * 2 ^ 8 + b 2 * 2 ^ 16 + b 3 * 2 ^ 24 else t
    expandGo n (i + 1) (if i % 8 = 0 then xt rc else rc) ((ws.getD 7 0 ^^^ u) :: ws)

/-- The 15 round keys, as states. -/
def roundKeys (key : Bytes) : List Nat :=
  (chunks 4 (expandGo 52 8 1 ((chunks 4 (padTo 32 key)).map leNat).reverse).reverse).map
    (fun w => nth w 0 + nth w 1 * 2 ^ 32 + nth w 2 * 2 ^ 64 + nth w 3 * 2 ^ 96)

/-- AES-256 encryption of one block under expanded keys. -/
def encRounds (rks : List Nat) (blk : Nat) : Nat :=
  subShift (((rks.drop 1).take 13).foldl (fun s k => mixCols (subShift s) ^^^ k) (blk ^^^ nth rks 0)) ^^^ nth rks 14

/-- AES-256 decryption of one block under expanded keys. -/
def decRounds (rks : List Nat) (blk : Nat) : Nat :=
  invSubShift (((rks.drop 1).take 13).reverse.foldl (fun s k => invMixCols (invSubShift s ^^^ k)) (blk ^^^ nth rks 14))
    ^^^ nth rks 0

/-- AES-256 encryption of a 16-byte block. -/
def aesEnc (key blk : Bytes) : Bytes := natLE 16 (encRounds (roundKeys key) (leNat (padTo 16 blk)))

/-- AES-256 decryption of a 16-byte block. -/
def aesDec (key blk : Bytes) : Bytes := natLE 16 (decRounds (roundKeys key) (leNat (padTo 16 blk)))

/-! ### XTS (IEEE Std 1619-2018) -/

/-- The next tweak: multiplication by x in GF(2¹²⁸), byte 0 least significant. -/
def xtsNext (t : Nat) : Nat := if t < 2 ^ 127 then 2 * t else (2 * t - 2 ^ 128) ^^^ 0x87

/-- Each 16-byte block of a data unit through a block function, between two additions of its tweak; `t` is the tweak of
the first. -/
def xtsBlocks (f : Bytes → Bytes) : Nat → List Bytes → Bytes
  | _, [] => []
  | t, b :: bs => xorBytes (f (xorBytes b (natLE 16 t))) (natLE 16 t) ++ xtsBlocks f (xtsNext t) bs

/-- The tweak of data unit `n` under the second key of a pair of 64 bytes. -/
def xtsTweak (keys : Bytes) (n : Nat) : Nat := leNat (aesEnc (keys.drop 32) (natLE 16 n))

/-- AES-256-XTS encryption of data unit `n`, a whole number of blocks. -/
def xtsEnc (keys : Bytes) (n : Nat) (p : Bytes) : Bytes :=
  xtsBlocks (aesEnc (keys.take 32)) (xtsTweak keys n) (chunks 16 p)

/-- AES-256-XTS decryption. -/
def xtsDec (keys : Bytes) (n : Nat) (c : Bytes) : Bytes :=
  xtsBlocks (aesDec (keys.take 32)) (xtsTweak keys n) (chunks 16 c)

/-! ### CMAC (SP 800-38B) -/

/-- Doubling in GF(2¹²⁸) of a big-endian block. -/
def dbl (b : Bytes) : Bytes :=
  let v := beNat b
  natBE 16 (if v < 2 ^ 127 then 2 * v else (2 * v - 2 ^ 128) ^^^ 0x87)

/-- AES-256-CMAC of a message: 16 bytes. -/
def cmac (key msg : Bytes) : Bytes :=
  let k1 := dbl (aesEnc key (zeros 16))
  let k2 := dbl k1
  let bl := if msg.isEmpty then [[]] else chunks 16 msg
  let last := bl.getLastD []
  let fin := if last.length = 16 then xorBytes last k1 else xorBytes (padTo 16 (last ++ [0x80])) k2
  aesEnc key (xorBytes ((bl.dropLast).foldl (fun x m => aesEnc key (xorBytes x m)) (zeros 16)) fin)

/-! ### Key wrap (SP 800-38F KW) -/

/-- The initial value of KW. -/
def kwIv : Bytes := List.replicate 8 0xA6

/-- Unwrap: the plaintext where the integrity check holds. -/
def kwUnwrap (key c : Bytes) : Option Bytes :=
  let bl := chunks 8 c
  let n := bl.length - 1
  let r := (List.range (6 * n)).foldl (fun (st : Bytes × List Bytes) i =>
    let t := 6 * n - i
    let j := (t - 1) % n
    let x := aesDec key (xorBytes st.1 (natBE 8 t) ++ st.2.getD j [])
    (x.take 8, st.2.set j (x.drop 8))) (bl.headD [], bl.drop 1)
  if n < 2 ∨ r.1 ≠ kwIv then none else some r.2.flatten

/-- Wrap a plaintext of whole 8-byte blocks. -/
def kwWrap (key p : Bytes) : Bytes :=
  let bl := chunks 8 p
  let n := bl.length
  let r := (List.range (6 * n)).foldl (fun (st : Bytes × List Bytes) i =>
    let t := i + 1
    let j := i % n
    let x := aesEnc key (st.1 ++ st.2.getD j [])
    (xorBytes (x.take 8) (natBE 8 t), st.2.set j (x.drop 8))) (kwIv, bl)
  r.1 ++ r.2.flatten

/-! ### GCM (SP 800-38D) -/

/-- Multiplication of two 128-bit blocks, bit 127 first (SP 800-38D, 6.3). -/
def gfMul (x y : Nat) : Nat :=
  ((List.range 128).foldl (fun (zv : Nat × Nat) i =>
    (if bit x (127 - i) then zv.1 ^^^ zv.2 else zv.1,
     if zv.2 % 2 = 1 then (zv.2 / 2) ^^^ (0xE1 * 2 ^ 120) else zv.2 / 2)) (0, y)).1

/-- GHASH of whole blocks under a hash key. -/
def ghash (h : Nat) (bs : Bytes) : Nat :=
  (chunks 16 bs).foldl (fun y b => gfMul (y ^^^ beNat (padTo 16 b)) h) 0

/-- A message zero-padded to whole blocks. -/
def pad16 (b : Bytes) : Bytes := padTo (alignUp b.length 16) b

/-- The CTR keystream applied from a counter block value on. -/
def gctr (key : Bytes) (iv : Bytes) (ctr : Nat) (m : Bytes) : Bytes :=
  ((chunks 16 m).zipIdx.map (fun b => xorBytes b.1 (aesEnc key (iv ++ natBE 4 (ctr + b.2))))).flatten

/-- The 16-byte GCM tag over additional data and ciphertext, for a 96-bit nonce. -/
def gcmTag (key iv aad c : Bytes) : Bytes :=
  let h := beNat (aesEnc key (zeros 16))
  let s := ghash h (pad16 aad ++ pad16 c ++ natBE 8 (8 * aad.length) ++ natBE 8 (8 * c.length))
  xorBytes (natBE 16 s) (aesEnc key (iv ++ natBE 4 1))

/-- GCM encryption: ciphertext and tag. -/
def gcmEnc (key iv aad p : Bytes) : Bytes × Bytes :=
  let c := gctr key iv 2 p
  (c, gcmTag key iv aad c)

/-- GCM decryption: the plaintext where the tag verifies. -/
def gcmDec (key iv aad c tag : Bytes) : Option Bytes :=
  if gcmTag key iv aad c = tag then some (gctr key iv 2 c) else none

/-! ### SHA-256, HMAC, KDF -/

/-- The 64 round constants, constant i at bits 32i+31 … 32i. -/
def shaK : Nat :=
  0xC67178F2BEF9A3F7A4506CEB90BEFFFA8CC7020884C8781478A5636F748F82EE682E6FF35B9CCA4F4ED8AA4A391C0CB334B0BCB52748774C1E376C0819A4C116106AA070F40E3585D6990624D192E819C76C51A3C24B8B70A81A664BA2BFE8A192722C8581C2C92E766A0ABB650A735453380D134D2C6DFC2E1B213827B70A851429296706CA6351D5A79147C6E00BF3BF597FC7B00327C8A831C66D983E515276F988DA5CB0A9DC4A7484AA2DE92C6F240CA1CC0FC19DC6EFBE4786E49B69C1C19BF1749BDC06A780DEB1FE72BE5D74550C7DC3243185BE12835B01D807AA98AB1C5ED5923F82A459F111F13956C25BE9B5DBA5B5C0FBCF71374491428A2F98

/-- Right rotation of a 32-bit word. -/
def rotr (x n : Nat) : Nat := (x / 2 ^ n) ||| (x % 2 ^ n * 2 ^ (32 - n))

/-- The message schedule, newest word first. -/
def shaSched : Nat → List Nat → List Nat
  | 0, w => w
  | n + 1, w =>
    let s0 := let x := nth w 14; rotr x 7 ^^^ rotr x 18 ^^^ (x / 8)
    let s1 := let x := nth w 1; rotr x 17 ^^^ rotr x 19 ^^^ (x / 1024)
    shaSched n ((nth w 15 + s0 + nth w 6 + s1) % 2 ^ 32 :: w)

/-- One compression round on the eight working words. -/
def shaRound (h : List Nat) (kw : Nat × Nat) : List Nat :=
  match h with
  | [a, b, c, d, e, f, g, hh] =>
    let t1 := hh + (rotr e 6 ^^^ rotr e 11 ^^^ rotr e 25) + ((e &&& f) ^^^ ((2 ^ 32 - 1 - e) &&& g)) + kw.1 + kw.2
    let t2 := (rotr a 2 ^^^ rotr a 13 ^^^ rotr a 22) + ((a &&& b) ^^^ (a &&& c) ^^^ (b &&& c))
    [(t1 + t2) % 2 ^ 32, a, b, c, (d + t1) % 2 ^ 32, e, f, g]
  | l => l

/-- Compression of one 64-byte block. -/
def shaBlock (h : List Nat) (blk : Bytes) : List Nat :=
  let w := (shaSched 48 ((chunks 4 blk).map beNat).reverse).reverse
  let ks := (List.range 64).map (fun i => shaK / 2 ^ (32 * i) % 2 ^ 32)
  List.zipWith (fun a b => (a + b) % 2 ^ 32) h ((ks.zip w).foldl shaRound h)

/-- SHA-256. -/
def sha256 (m : Bytes) : Bytes :=
  let l := m.length
  let p := m ++ [0x80] ++ zeros ((119 - l % 64) % 64) ++ natBE 8 (8 * l)
  ((chunks 64 p).foldl shaBlock
    [0x6A09E667, 0xBB67AE85, 0x3C6EF372, 0xA54FF53A, 0x510E527F, 0x9B05688C, 0x1F83D9AB, 0x5BE0CD19]).flatMap (natBE 4)

/-- HMAC-SHA-256. -/
def hmac (key m : Bytes) : Bytes :=
  let k := padTo 64 (if 64 < key.length then sha256 key else key)
  sha256 (k.map (· ^^^ 0x5C) ++ sha256 (k.map (· ^^^ 0x36) ++ m))

/-- KDF(s, label) of R429: SP 800-108 counter mode with HMAC-SHA-256, empty context, `n` 32-byte blocks. -/
def kdf (s label : Bytes) (n : Nat) : Bytes :=
  (List.range n).flatMap (fun i => hmac s (natBE 4 (i + 1) ++ label ++ [0] ++ natBE 4 (256 * n)))

/-! ### LMS verification (RFC 8554): LMS_SHA256_M32_H20 over LMOTS_SHA256_N32_W8 -/

/-- Coefficient i of Q ‖ checksum for w = 8. -/
def otsDigits (q : Bytes) : List Nat :=
  let ds := q.map (·.toNat)
  let c := ds.foldl (fun a x => a + (255 - x)) 0
  ds ++ [c / 256, c % 256]

/-- The chain of LM-OTS chain `i` from digit `a` up to 255. -/
def otsChain (id : Bytes) (q i : Nat) : Nat → Nat → Bytes → Bytes
  | 0, _, t => t
  | n + 1, j, t => otsChain id q i n (j + 1) (sha256 (id ++ natBE 4 q ++ natBE 2 i ++ natBE 1 j ++ t))

/-- The LM-OTS public key a signature of a message gives. -/
def otsCandidate (id : Bytes) (q : Nat) (c : Bytes) (y : List Bytes) (msg : Bytes) : Bytes :=
  let qh := sha256 (id ++ natBE 4 q ++ [0x81, 0x81] ++ c ++ msg)
  let zs := ((otsDigits qh).zip y).zipIdx.flatMap (fun x => otsChain id q x.2 (255 - x.1.1) x.1.1 x.1.2)
  sha256 (id ++ natBE 4 q ++ [0x80, 0x80] ++ zs)

/-- The root that an authentication path leads to. -/
def lmsClimb (id : Bytes) : List Bytes → Nat → Bytes → Bytes
  | [], _, t => t
  | p :: ps, n, t =>
    let m := natBE 4 (n / 2) ++ [0x83, 0x83]
    lmsClimb id ps (n / 2) (if n % 2 = 1 then sha256 (id ++ m ++ p ++ t) else sha256 (id ++ m ++ t ++ p))

/-- Verify an HSS signature of one level (R419): public key of 56 bytes (LMS type, LM-OTS type, I, root), signature
of 1,776 bytes: Nspk, then q, LM-OTS type, C, 34 chain values, LMS type, 20 path nodes. -/
def hssVerify (pub sig msg : Bytes) : Bool :=
  let h := 20
  let id := (pub.drop 8).take 16
  let root := (pub.drop 24).take 32
  let q := beNat ((sig.drop 4).take 4)
  let c := (sig.drop 12).take 32
  let y := chunks 32 ((sig.drop 44).take (34 * 32))
  let path := chunks 32 ((sig.drop 1136).take (h * 32))
  let kc := otsCandidate id q c y msg
  let leaf := sha256 (id ++ natBE 4 (2 ^ h + q) ++ [0x82, 0x82] ++ kc)
  decide (pub.length = 56) && decide (sig.length = 1776)
    && decide (beNat (pub.take 4) = 8) && decide (beNat ((pub.drop 4).take 4) = 4)
    && decide (beNat (sig.take 4) = 0) && decide (beNat ((sig.drop 8).take 4) = 4)
    && decide (beNat ((sig.drop 1132).take 4) = 8) && decide (q < 2 ^ h)
    && decide (lmsClimb id path (2 ^ h + q) leaf = root)

end Sys2Proof.Crypto
end

