-- ==== Sys2Proof/Machine/RegTable.lean ====
section
/-!
DEFINITION. The register tables of spec/ (Tables 3.10–3.16, 4.11–4.14, 5.16–5.21, 6.9–6.13, 7.6–7.7, 8.10–8.15,
9.9–9.13, 10.2, 10.4, 11.10, 12.8, 12.9, 13.9, 13.12, 14.10, 14.11, 15.9 and 16.9) as data: one `Fld` for each
field, with its place, access code, world and reset value. RSVD fields are the bits no `Fld` names (R11, R12).
-/

namespace Sys2Proof.Machine

/-- The access codes of Table 0.3 (R11). -/
inductive Acc where
  | ro | rw | rw1c | wo
  deriving DecidableEq, Repr

/-- One field of a register table.
`off` byte offset of its register in the block, `lo` lowest bit in the register, `w` width in bits, `dw` width in
bytes of one access to the register (R13), `bstr` distance in bits between repeated copies, `cnt` number of copies,
`acc` access code (R11), `sec` World S (R14), `rst` reset value and `rst0` the reset value of copy 0. -/
structure Fld where
  off : Nat
  lo : Nat
  w : Nat
  dw : Nat
  bstr : Nat
  cnt : Nat
  acc : Acc
  sec : Bool
  rst : Nat
  rst0 : Nat
  deriving DecidableEq, Repr

namespace F

/-! ### core CSRs (Tables 3.10–3.16) -/

def core_CORE_NUM : Fld := ⟨0x0, 0, 9, 4, 0, 1, .ro, false, 0x0, 0x0⟩ -- (its number, computed at the read)
def core_FENCED : Fld := ⟨0x4, 0, 1, 4, 0, 1, .ro, false, 0x0, 0x0⟩
def core_IDLE : Fld := ⟨0x4, 1, 1, 4, 0, 1, .ro, false, 0x1, 0x1⟩
def core_HEAD_WAIT : Fld := ⟨0x4, 2, 1, 4, 0, 1, .ro, false, 0x0, 0x0⟩
def core_UCODE_VALID : Fld := ⟨0x4, 3, 1, 4, 0, 1, .ro, false, 0x0, 0x0⟩
def core_ST_PASS : Fld := ⟨0x4, 4, 1, 4, 0, 1, .ro, false, 0x0, 0x0⟩
def core_QUEUE_USED : Fld := ⟨0x4, 5, 9, 4, 0, 1, .ro, false, 0x0, 0x0⟩
def core_CPL_USED : Fld := ⟨0x4, 14, 9, 4, 0, 1, .ro, false, 0x0, 0x0⟩
def core_ISSUED_CNT : Fld := ⟨0x4, 23, 3, 4, 0, 1, .ro, false, 0x0, 0x0⟩
def core_SB_BYPASS : Fld := ⟨0x8, 0, 1, 4, 0, 1, .rw, true, 0x0, 0x0⟩
def core_STEAL_EN : Fld := ⟨0x8, 1, 1, 4, 0, 1, .rw, true, 0x1, 0x1⟩
def core_UCODE_COMMIT : Fld := ⟨0x8, 2, 1, 4, 0, 1, .wo, true, 0x0, 0x0⟩
def core_FENCE_RELEASE : Fld := ⟨0x8, 3, 1, 4, 0, 1, .wo, true, 0x0, 0x0⟩
def core_REF_STATUS : Fld := ⟨0xC, 0, 16, 4, 0, 1, .ro, false, 0x0, 0x0⟩
def core_REF_STREAM : Fld := ⟨0xC, 16, 12, 4, 0, 1, .ro, false, 0x0, 0x0⟩
def core_REF_VALID : Fld := ⟨0xC, 31, 1, 4, 0, 1, .rw1c, false, 0x0, 0x0⟩
def core_CPL_RECORD : Fld := ⟨0x20, 0, 128, 4, 0, 1, .ro, true, 0x0, 0x0⟩
def core_POP_QSLOT : Fld := ⟨0x30, 0, 8, 4, 0, 1, .wo, true, 0x0, 0x0⟩
def core_SUBMIT_DROP_CNT : Fld := ⟨0x10, 0, 32, 4, 0, 1, .ro, false, 0x0, 0x0⟩
def core_HEAD_WAIT_CYC : Fld := ⟨0x14, 0, 32, 4, 0, 1, .ro, false, 0x0, 0x0⟩
def core_SB_STALL_CYC : Fld := ⟨0x18, 0, 32, 4, 0, 1, .ro, false, 0x0, 0x0⟩
def core_CPL_POP_MISS_CNT : Fld := ⟨0x1C, 0, 32, 4, 0, 1, .ro, true, 0x0, 0x0⟩
def core_SP_CE_CNT : Fld := ⟨0x40, 0, 32, 4, 0, 1, .ro, false, 0x0, 0x0⟩
def core_SP_UE_CNT : Fld := ⟨0x44, 0, 32, 4, 0, 1, .ro, false, 0x0, 0x0⟩
def core_ISSUE_CNT : Fld := ⟨0x48, 0, 64, 8, 0, 1, .ro, false, 0x0, 0x0⟩
def core_WIDE_CONFLICT_CYC : Fld := ⟨0x400, 0, 32, 4, 64, 16, .ro, false, 0x0, 0x0⟩
def core_NARROW_DEFER_CYC : Fld := ⟨0x404, 0, 32, 4, 64, 16, .ro, false, 0x0, 0x0⟩
def core_BANK_CNT_CLR : Fld := ⟨0x480, 0, 1, 4, 0, 1, .wo, false, 0x0, 0x0⟩
def core_WIN_BASE : Fld := ⟨0x100, 0, 16, 4, 128, 4, .rw, true, 0x0, 0x0⟩
def core_WIN_LEN : Fld := ⟨0x100, 16, 16, 4, 128, 4, .rw, true, 0x0, 0x0⟩
def core_WIN_EN : Fld := ⟨0x104, 0, 1, 4, 128, 4, .rw, true, 0x0, 0x0⟩
def core_PERM_R : Fld := ⟨0x104, 1, 1, 4, 128, 4, .rw, true, 0x0, 0x0⟩
def core_PERM_W : Fld := ⟨0x104, 2, 1, 4, 128, 4, .rw, true, 0x0, 0x0⟩
def core_WIN_BUSY : Fld := ⟨0x104, 3, 1, 4, 128, 4, .ro, true, 0x0, 0x0⟩
def core_WIN_CONTEXT : Fld := ⟨0x104, 4, 4, 4, 128, 4, .rw, true, 0x0, 0x0⟩
def core_WIN_SECURE : Fld := ⟨0x104, 8, 1, 4, 128, 4, .rw, true, 0x0, 0x0⟩
def core_KEY_SLOT : Fld := ⟨0x104, 16, 8, 4, 128, 4, .rw, true, 0x0, 0x0⟩
def core_PEER_SET : Fld := ⟨0x108, 0, 64, 8, 128, 4, .rw, true, 0x0, 0x0⟩

/-- The fields of the core CSRs block. -/
def coreFlds : List Fld :=
  [core_CORE_NUM, core_FENCED, core_IDLE, core_HEAD_WAIT, core_UCODE_VALID, core_ST_PASS, core_QUEUE_USED,
   core_CPL_USED, core_ISSUED_CNT, core_SB_BYPASS, core_STEAL_EN, core_UCODE_COMMIT, core_FENCE_RELEASE,
   core_REF_STATUS, core_REF_STREAM, core_REF_VALID, core_CPL_RECORD, core_POP_QSLOT, core_SUBMIT_DROP_CNT,
   core_HEAD_WAIT_CYC, core_SB_STALL_CYC, core_CPL_POP_MISS_CNT, core_SP_CE_CNT, core_SP_UE_CNT,
   core_ISSUE_CNT, core_WIDE_CONFLICT_CYC, core_NARROW_DEFER_CYC, core_BANK_CNT_CLR, core_WIN_BASE,
   core_WIN_LEN, core_WIN_EN, core_PERM_R, core_PERM_W, core_WIN_BUSY, core_WIN_CONTEXT, core_WIN_SECURE,
   core_KEY_SLOT, core_PEER_SET]

/-! ### Ablation unit and Spindrift (Tables 4.11–4.14) -/

def spu_REGION : Fld := ⟨0x0, 0, 3, 4, 0, 1, .ro, false, 0x0, 0x0⟩ -- (its number, computed at the read)
def spu_ABL_BUSY : Fld := ⟨0x4, 0, 1, 4, 0, 1, .ro, false, 0x0, 0x0⟩
def spu_SPD_BUSY : Fld := ⟨0x4, 1, 1, 4, 0, 1, .ro, false, 0x0, 0x0⟩
def spu_SPD_N_MAX : Fld := ⟨0x8, 0, 16, 4, 0, 1, .ro, false, 0x4000, 0x4000⟩
def spu_SPD_K_MAX : Fld := ⟨0x8, 16, 16, 4, 0, 1, .ro, false, 0x4000, 0x4000⟩
def spu_SPD_RANK_MAX : Fld := ⟨0xC, 0, 9, 4, 0, 1, .ro, false, 0x100, 0x100⟩
def spu_SPARSE_OOB_CNT : Fld := ⟨0x10, 0, 32, 4, 0, 1, .ro, false, 0x0, 0x0⟩
def spu_SPARSE_GRP_OVF_CNT : Fld := ⟨0x14, 0, 32, 4, 0, 1, .ro, false, 0x0, 0x0⟩
def spu_SPARSE_ORDER_CNT : Fld := ⟨0x18, 0, 32, 4, 0, 1, .ro, false, 0x0, 0x0⟩
def spu_SPARSE_WARN_CNT : Fld := ⟨0x1C, 0, 32, 4, 0, 1, .ro, false, 0x0, 0x0⟩
def spu_CLR : Fld := ⟨0x20, 0, 1, 4, 0, 1, .wo, false, 0x0, 0x0⟩
def spu_STEAL_IN_CNT : Fld := ⟨0x40, 0, 32, 4, 128, 4, .ro, false, 0x0, 0x0⟩
def spu_STEAL_XCL_CNT : Fld := ⟨0x44, 0, 32, 4, 128, 4, .ro, false, 0x0, 0x0⟩
def spu_STEAL_OUT_CNT : Fld := ⟨0x48, 0, 32, 4, 128, 4, .ro, false, 0x0, 0x0⟩
def spu_STEAL_CTX_MASK : Fld := ⟨0x4C, 0, 16, 4, 128, 4, .rw, true, 0xFFFF, 0xFFFF⟩
def spu_ABL_TILE_CNT : Fld := ⟨0x100, 0, 32, 4, 0, 1, .ro, false, 0x0, 0x0⟩
def spu_ABL_ZERO_TILE_CNT : Fld := ⟨0x104, 0, 32, 4, 0, 1, .ro, false, 0x0, 0x0⟩
def spu_SPD_PRED_CNT : Fld := ⟨0x180, 0, 32, 4, 0, 1, .ro, false, 0x0, 0x0⟩
def spu_SPD_AUDIT_CNT : Fld := ⟨0x184, 0, 32, 4, 0, 1, .ro, false, 0x0, 0x0⟩
def spu_RECALL_CLR : Fld := ⟨0x188, 0, 1, 4, 0, 1, .wo, true, 0x0, 0x0⟩
def spu_RECALL_NEEDED : Fld := ⟨0x800, 0, 32, 4, 64, 256, .ro, false, 0x0, 0x0⟩
def spu_RECALL_HIT : Fld := ⟨0x804, 0, 32, 4, 64, 256, .ro, false, 0x0, 0x0⟩

/-- The fields of the Ablation unit and Spindrift block. -/
def spuFlds : List Fld :=
  [spu_REGION, spu_ABL_BUSY, spu_SPD_BUSY, spu_SPD_N_MAX, spu_SPD_K_MAX, spu_SPD_RANK_MAX,
   spu_SPARSE_OOB_CNT, spu_SPARSE_GRP_OVF_CNT, spu_SPARSE_ORDER_CNT, spu_SPARSE_WARN_CNT, spu_CLR,
   spu_STEAL_IN_CNT, spu_STEAL_XCL_CNT, spu_STEAL_OUT_CNT, spu_STEAL_CTX_MASK, spu_ABL_TILE_CNT,
   spu_ABL_ZERO_TILE_CNT, spu_SPD_PRED_CNT, spu_SPD_AUDIT_CNT, spu_RECALL_CLR, spu_RECALL_NEEDED,
   spu_RECALL_HIT]

/-! ### Firn (Tables 5.16–5.21) -/

def firn_FIRN_REV : Fld := ⟨0x0, 0, 8, 4, 0, 1, .ro, false, 0x10, 0x10⟩
def firn_SWEEPS_M1 : Fld := ⟨0x0, 8, 4, 4, 0, 1, .ro, false, 0xF, 0xF⟩
def firn_READY : Fld := ⟨0x4, 0, 1, 4, 0, 1, .ro, false, 0x0, 0x0⟩
def firn_VOX_BUSY : Fld := ⟨0x4, 1, 1, 4, 0, 1, .ro, false, 0x0, 0x0⟩
def firn_RB_BUSY : Fld := ⟨0x4, 2, 1, 4, 0, 1, .ro, false, 0x0, 0x0⟩
def firn_FPS_BUSY : Fld := ⟨0x4, 3, 1, 4, 0, 1, .ro, false, 0x0, 0x0⟩
def firn_GRID_NEWEST : Fld := ⟨0x4, 4, 2, 4, 0, 1, .ro, false, 0x0, 0x0⟩
def firn_GRID_VALID : Fld := ⟨0x4, 6, 1, 4, 0, 1, .ro, false, 0x0, 0x0⟩
def firn_PEND : Fld := ⟨0x4, 8, 7, 4, 0, 1, .ro, false, 0x0, 0x0⟩
def firn_GRID_EN : Fld := ⟨0x8, 0, 1, 4, 0, 1, .rw, true, 0x0, 0x0⟩
def firn_GRID_EDGE : Fld := ⟨0x8, 1, 2, 4, 0, 1, .rw, true, 0x1, 0x1⟩
def firn_GRID_CTX : Fld := ⟨0x8, 4, 4, 4, 0, 1, .rw, true, 0x0, 0x0⟩
def firn_FUTURE_TOL_US : Fld := ⟨0xC, 0, 16, 4, 0, 1, .rw, true, 0x3E8, 0x3E8⟩
def firn_PROBE_DROP_TOL : Fld := ⟨0x10, 0, 32, 4, 0, 1, .rw, true, 0x0, 0x0⟩
def firn_CNT_CLR : Fld := ⟨0xA0, 0, 1, 4, 0, 1, .wo, false, 0x0, 0x0⟩
def firn_FRAMES_BUILT : Fld := ⟨0x40, 0, 32, 4, 0, 1, .ro, false, 0x0, 0x0⟩
def firn_FRAMES_DEGRADED : Fld := ⟨0x44, 0, 32, 4, 0, 1, .ro, false, 0x0, 0x0⟩
def firn_FRAMES_GUARD : Fld := ⟨0x48, 0, 32, 4, 0, 1, .ro, false, 0x0, 0x0⟩
def firn_SWEEPS_READ : Fld := ⟨0x4C, 0, 32, 4, 0, 1, .ro, false, 0x0, 0x0⟩
def firn_GUARD_FMT_CNT : Fld := ⟨0x50, 0, 32, 4, 0, 1, .ro, false, 0x0, 0x0⟩
def firn_GUARD_CRC_CNT : Fld := ⟨0x54, 0, 32, 4, 0, 1, .ro, false, 0x0, 0x0⟩
def firn_GUARD_SENSOR_CNT : Fld := ⟨0x58, 0, 32, 4, 0, 1, .ro, false, 0x0, 0x0⟩
def firn_GUARD_SEQ_CNT : Fld := ⟨0x5C, 0, 32, 4, 0, 1, .ro, false, 0x0, 0x0⟩
def firn_GUARD_TS_CNT : Fld := ⟨0x60, 0, 32, 4, 0, 1, .ro, false, 0x0, 0x0⟩
def firn_GUARD_AGE_CNT : Fld := ⟨0x64, 0, 32, 4, 0, 1, .ro, false, 0x0, 0x0⟩
def firn_GUARD_SFLT_CNT : Fld := ⟨0x68, 0, 32, 4, 0, 1, .ro, false, 0x0, 0x0⟩
def firn_DROP_INVALID_CNT : Fld := ⟨0x6C, 0, 32, 4, 0, 1, .ro, false, 0x0, 0x0⟩
def firn_DROP_KEY_CNT : Fld := ⟨0x70, 0, 32, 4, 0, 1, .ro, false, 0x0, 0x0⟩
def firn_DROP_PROBE_CNT : Fld := ⟨0x74, 0, 32, 4, 0, 1, .ro, false, 0x0, 0x0⟩
def firn_DROP_PTCAP_CNT : Fld := ⟨0x78, 0, 32, 4, 0, 1, .ro, false, 0x0, 0x0⟩
def firn_DROP_CELLCAP_CNT : Fld := ⟨0x7C, 0, 32, 4, 0, 1, .ro, false, 0x0, 0x0⟩
def firn_PROBE_HIST : Fld := ⟨0x80, 0, 32, 4, 32, 8, .ro, false, 0x0, 0x0⟩
def firn_SENSOR_ID : Fld := ⟨0x100, 0, 16, 4, 256, 64, .rw, true, 0x0, 0x0⟩
def firn_SLOT_EN : Fld := ⟨0x100, 16, 1, 4, 256, 64, .rw, true, 0x0, 0x0⟩
def firn_REARM : Fld := ⟨0x100, 17, 1, 4, 256, 64, .wo, true, 0x0, 0x0⟩
def firn_GUARD_AGE_EN : Fld := ⟨0x100, 18, 1, 4, 256, 64, .rw, true, 0x1, 0x1⟩
def firn_MAX_AGE_US : Fld := ⟨0x104, 0, 32, 4, 256, 64, .rw, true, 0xC350, 0xC350⟩
def firn_LAST_FCNT : Fld := ⟨0x108, 0, 32, 4, 256, 64, .ro, false, 0x0, 0x0⟩
def firn_ARMED : Fld := ⟨0x10C, 0, 1, 4, 256, 64, .ro, false, 0x0, 0x0⟩
def firn_LAST_FAIL : Fld := ⟨0x10C, 1, 3, 4, 256, 64, .ro, false, 0x0, 0x0⟩
def firn_LAST_TS : Fld := ⟨0x110, 0, 64, 8, 256, 64, .ro, false, 0x0, 0x0⟩
def firn_SLOT_FAIL_CNT : Fld := ⟨0x118, 0, 32, 4, 256, 64, .ro, false, 0x0, 0x0⟩

/-- The fields of the Firn block, part 0. -/
def firnFlds0 : List Fld :=
  [firn_FIRN_REV, firn_SWEEPS_M1, firn_READY, firn_VOX_BUSY, firn_RB_BUSY, firn_FPS_BUSY, firn_GRID_NEWEST,
   firn_GRID_VALID, firn_PEND, firn_GRID_EN, firn_GRID_EDGE, firn_GRID_CTX, firn_FUTURE_TOL_US,
   firn_PROBE_DROP_TOL, firn_CNT_CLR, firn_FRAMES_BUILT, firn_FRAMES_DEGRADED, firn_FRAMES_GUARD,
   firn_SWEEPS_READ, firn_GUARD_FMT_CNT, firn_GUARD_CRC_CNT, firn_GUARD_SENSOR_CNT, firn_GUARD_SEQ_CNT,
   firn_GUARD_TS_CNT, firn_GUARD_AGE_CNT, firn_GUARD_SFLT_CNT, firn_DROP_INVALID_CNT, firn_DROP_KEY_CNT,
   firn_DROP_PROBE_CNT, firn_DROP_PTCAP_CNT, firn_DROP_CELLCAP_CNT, firn_PROBE_HIST, firn_SENSOR_ID,
   firn_SLOT_EN, firn_REARM, firn_GUARD_AGE_EN, firn_MAX_AGE_US, firn_LAST_FCNT, firn_ARMED, firn_LAST_FAIL]

/-- The fields of the Firn block, part 1. -/
def firnFlds1 : List Fld :=
  [firn_LAST_TS, firn_SLOT_FAIL_CNT]

/-- The fields of the Firn block. -/
def firnFlds : List Fld := firnFlds0 ++ firnFlds1

/-! ### Moraine (Tables 6.9–6.13) -/

def moraine_MOR_REV : Fld := ⟨0x0, 0, 8, 4, 0, 1, .ro, false, 0x10, 0x10⟩
def moraine_READY : Fld := ⟨0x4, 0, 1, 4, 0, 1, .ro, false, 0x0, 0x0⟩
def moraine_BUSY : Fld := ⟨0x4, 1, 1, 4, 0, 1, .ro, false, 0x0, 0x0⟩
def moraine_PEND : Fld := ⟨0x4, 2, 7, 4, 0, 1, .ro, false, 0x0, 0x0⟩
def moraine_STUBS : Fld := ⟨0x4, 12, 9, 4, 0, 1, .ro, false, 0x0, 0x0⟩
def moraine_PREFETCH_EN : Fld := ⟨0x8, 0, 1, 4, 0, 1, .rw, true, 0x1, 0x1⟩
def moraine_HOT_CLR : Fld := ⟨0x8, 1, 1, 4, 0, 1, .wo, true, 0x0, 0x0⟩
def moraine_STEP_TIMEOUT_US : Fld := ⟨0xC, 0, 20, 4, 0, 1, .rw, true, 0x2710, 0x2710⟩
def moraine_OVR_IDX : Fld := ⟨0x10, 0, 12, 4, 0, 1, .rw, true, 0x0, 0x0⟩
def moraine_OVR_READ : Fld := ⟨0x14, 0, 1, 4, 0, 1, .wo, true, 0x0, 0x0⟩
def moraine_OVR_WRITE : Fld := ⟨0x14, 1, 1, 4, 0, 1, .wo, true, 0x0, 0x0⟩
def moraine_OVR_KEY : Fld := ⟨0x18, 0, 64, 4, 0, 1, .rw, true, 0x0, 0x0⟩
def moraine_OVR_TABLE : Fld := ⟨0x18, 64, 6, 4, 0, 1, .rw, true, 0x0, 0x0⟩
def moraine_OVR_OWNER : Fld := ⟨0x18, 72, 8, 4, 0, 1, .rw, true, 0x0, 0x0⟩
def moraine_OVR_VALID : Fld := ⟨0x18, 80, 1, 4, 0, 1, .rw, true, 0x0, 0x0⟩
def moraine_OVR_STUB : Fld := ⟨0x18, 81, 1, 4, 0, 1, .ro, true, 0x0, 0x0⟩
def moraine_OVR_EPOCH : Fld := ⟨0x18, 96, 32, 4, 0, 1, .rw, true, 0x0, 0x0⟩
def moraine_HOT_IDX : Fld := ⟨0x30, 0, 6, 4, 0, 1, .rw, true, 0x0, 0x0⟩
def moraine_HOT_KEY : Fld := ⟨0x40, 0, 64, 4, 0, 1, .ro, true, 0x0, 0x0⟩
def moraine_HOT_TABLE : Fld := ⟨0x40, 64, 6, 4, 0, 1, .ro, true, 0x0, 0x0⟩
def moraine_HOT_COUNT : Fld := ⟨0x40, 96, 32, 4, 0, 1, .ro, true, 0x0, 0x0⟩
def moraine_TBL_EN : Fld := ⟨0x1000, 0, 1, 4, 1024, 64, .rw, true, 0x0, 0x0⟩
def moraine_KEY_KIND : Fld := ⟨0x1000, 1, 1, 4, 1024, 64, .rw, true, 0x0, 0x0⟩
def moraine_COMBINE : Fld := ⟨0x1000, 2, 2, 4, 1024, 64, .rw, true, 0x0, 0x0⟩
def moraine_ELEM_FMT : Fld := ⟨0x1000, 4, 4, 4, 1024, 64, .rw, true, 0x0, 0x0⟩
def moraine_ROW_G : Fld := ⟨0x1000, 8, 5, 4, 1024, 64, .rw, true, 0x0, 0x0⟩
def moraine_PEER_COUNT_M1 : Fld := ⟨0x1000, 16, 6, 4, 1024, 64, .rw, true, 0x0, 0x0⟩
def moraine_INDEX_LOG2 : Fld := ⟨0x1000, 22, 5, 4, 1024, 64, .rw, true, 0x0, 0x0⟩
def moraine_ROWS_LOCAL : Fld := ⟨0x1004, 0, 32, 4, 1024, 64, .rw, true, 0x0, 0x0⟩
def moraine_STORE_VA : Fld := ⟨0x1008, 0, 64, 8, 1024, 64, .rw, true, 0x0, 0x0⟩
def moraine_INDEX_VA : Fld := ⟨0x1010, 0, 64, 8, 1024, 64, .rw, true, 0x0, 0x0⟩
def moraine_ROWS_USED : Fld := ⟨0x1018, 0, 32, 4, 1024, 64, .ro, true, 0x0, 0x0⟩
def moraine_CTX_MASK : Fld := ⟨0x101C, 0, 16, 4, 1024, 64, .rw, true, 0x1, 0x1⟩
def moraine_DIR_CRC : Fld := ⟨0x1020, 0, 32, 4, 1024, 64, .ro, true, 0x0, 0x0⟩
def moraine_NEXT_STEP : Fld := ⟨0x100, 0, 32, 8, 64, 64, .ro, false, 0x0, 0x0⟩
def moraine_NEXT_PART : Fld := ⟨0x100, 32, 1, 8, 64, 64, .ro, false, 0x0, 0x0⟩
def moraine_OPEN_STEPS : Fld := ⟨0x100, 33, 2, 8, 64, 64, .ro, false, 0x0, 0x0⟩
def moraine_LOOKUP_KEYS_CNT : Fld := ⟨0x80, 0, 32, 4, 0, 1, .ro, false, 0x0, 0x0⟩
def moraine_UPDATE_KEYS_CNT : Fld := ⟨0x84, 0, 32, 4, 0, 1, .ro, false, 0x0, 0x0⟩
def moraine_ROWS_CREATED_CNT : Fld := ⟨0x88, 0, 32, 4, 0, 1, .ro, false, 0x0, 0x0⟩
def moraine_ROW_REFUSED_CNT : Fld := ⟨0x8C, 0, 32, 4, 0, 1, .ro, false, 0x0, 0x0⟩
def moraine_FWD_SENT_CNT : Fld := ⟨0x90, 0, 32, 4, 0, 1, .ro, false, 0x0, 0x0⟩
def moraine_FWD_RECV_CNT : Fld := ⟨0x94, 0, 32, 4, 0, 1, .ro, false, 0x0, 0x0⟩
def moraine_STALE_CNT : Fld := ⟨0x98, 0, 32, 4, 0, 1, .ro, false, 0x0, 0x0⟩
def moraine_LATE_MSG_CNT : Fld := ⟨0x9C, 0, 32, 4, 0, 1, .ro, false, 0x0, 0x0⟩
def moraine_DIR_MISMATCH_CNT : Fld := ⟨0xA0, 0, 32, 4, 0, 1, .ro, false, 0x0, 0x0⟩
def moraine_MISROUTE_CNT : Fld := ⟨0xA4, 0, 32, 4, 0, 1, .ro, false, 0x0, 0x0⟩
def moraine_CALVE_DONE_CNT : Fld := ⟨0xA8, 0, 32, 4, 0, 1, .ro, false, 0x0, 0x0⟩
def moraine_CALVE_FAIL_CNT : Fld := ⟨0xAC, 0, 32, 4, 0, 1, .ro, false, 0x0, 0x0⟩
def moraine_PREFETCH_HIT_CNT : Fld := ⟨0xB0, 0, 32, 4, 0, 1, .ro, false, 0x0, 0x0⟩
def moraine_PREFETCH_MISS_CNT : Fld := ⟨0xB4, 0, 32, 4, 0, 1, .ro, false, 0x0, 0x0⟩
def moraine_STEP_TIMEOUT_CNT : Fld := ⟨0xB8, 0, 32, 4, 0, 1, .ro, false, 0x0, 0x0⟩
def moraine_CNT_CLR : Fld := ⟨0xC0, 0, 1, 4, 0, 1, .wo, false, 0x0, 0x0⟩
def moraine_PEER_LIST0 : Fld := ⟨0x1040, 0, 32, 4, 1024, 64, .rw, true, 0x0, 0x0⟩
def moraine_PEER_LIST1 : Fld := ⟨0x1044, 0, 32, 4, 1024, 64, .rw, true, 0x0, 0x0⟩
def moraine_PEER_LIST2 : Fld := ⟨0x1048, 0, 32, 4, 1024, 64, .rw, true, 0x0, 0x0⟩
def moraine_PEER_LIST3 : Fld := ⟨0x104C, 0, 32, 4, 1024, 64, .rw, true, 0x0, 0x0⟩
def moraine_PEER_LIST4 : Fld := ⟨0x1050, 0, 32, 4, 1024, 64, .rw, true, 0x0, 0x0⟩
def moraine_PEER_LIST5 : Fld := ⟨0x1054, 0, 32, 4, 1024, 64, .rw, true, 0x0, 0x0⟩
def moraine_PEER_LIST6 : Fld := ⟨0x1058, 0, 32, 4, 1024, 64, .rw, true, 0x0, 0x0⟩
def moraine_PEER_LIST7 : Fld := ⟨0x105C, 0, 32, 4, 1024, 64, .rw, true, 0x0, 0x0⟩
def moraine_PEER_LIST8 : Fld := ⟨0x1060, 0, 32, 4, 1024, 64, .rw, true, 0x0, 0x0⟩
def moraine_PEER_LIST9 : Fld := ⟨0x1064, 0, 32, 4, 1024, 64, .rw, true, 0x0, 0x0⟩
def moraine_PEER_LIST10 : Fld := ⟨0x1068, 0, 32, 4, 1024, 64, .rw, true, 0x0, 0x0⟩
def moraine_PEER_LIST11 : Fld := ⟨0x106C, 0, 32, 4, 1024, 64, .rw, true, 0x0, 0x0⟩
def moraine_PEER_LIST12 : Fld := ⟨0x1070, 0, 32, 4, 1024, 64, .rw, true, 0x0, 0x0⟩
def moraine_PEER_LIST13 : Fld := ⟨0x1074, 0, 32, 4, 1024, 64, .rw, true, 0x0, 0x0⟩
def moraine_PEER_LIST14 : Fld := ⟨0x1078, 0, 32, 4, 1024, 64, .rw, true, 0x0, 0x0⟩
def moraine_PEER_LIST15 : Fld := ⟨0x107C, 0, 32, 4, 1024, 64, .rw, true, 0x0, 0x0⟩

/-- The fields of the Moraine block, part 0. -/
def moraineFlds0 : List Fld :=
  [moraine_MOR_REV, moraine_READY, moraine_BUSY, moraine_PEND, moraine_STUBS, moraine_PREFETCH_EN,
   moraine_HOT_CLR, moraine_STEP_TIMEOUT_US, moraine_OVR_IDX, moraine_OVR_READ, moraine_OVR_WRITE,
   moraine_OVR_KEY, moraine_OVR_TABLE, moraine_OVR_OWNER, moraine_OVR_VALID, moraine_OVR_STUB,
   moraine_OVR_EPOCH, moraine_HOT_IDX, moraine_HOT_KEY, moraine_HOT_TABLE, moraine_HOT_COUNT, moraine_TBL_EN,
   moraine_KEY_KIND, moraine_COMBINE, moraine_ELEM_FMT, moraine_ROW_G, moraine_PEER_COUNT_M1,
   moraine_INDEX_LOG2, moraine_ROWS_LOCAL, moraine_STORE_VA, moraine_INDEX_VA, moraine_ROWS_USED,
   moraine_CTX_MASK, moraine_DIR_CRC, moraine_NEXT_STEP, moraine_NEXT_PART, moraine_OPEN_STEPS,
   moraine_LOOKUP_KEYS_CNT, moraine_UPDATE_KEYS_CNT, moraine_ROWS_CREATED_CNT]

/-- The fields of the Moraine block, part 1. -/
def moraineFlds1 : List Fld :=
  [moraine_ROW_REFUSED_CNT, moraine_FWD_SENT_CNT, moraine_FWD_RECV_CNT, moraine_STALE_CNT,
   moraine_LATE_MSG_CNT, moraine_DIR_MISMATCH_CNT, moraine_MISROUTE_CNT, moraine_CALVE_DONE_CNT,
   moraine_CALVE_FAIL_CNT, moraine_PREFETCH_HIT_CNT, moraine_PREFETCH_MISS_CNT, moraine_STEP_TIMEOUT_CNT,
   moraine_CNT_CLR, moraine_PEER_LIST0, moraine_PEER_LIST1, moraine_PEER_LIST2, moraine_PEER_LIST3,
   moraine_PEER_LIST4, moraine_PEER_LIST5, moraine_PEER_LIST6, moraine_PEER_LIST7, moraine_PEER_LIST8,
   moraine_PEER_LIST9, moraine_PEER_LIST10, moraine_PEER_LIST11, moraine_PEER_LIST12, moraine_PEER_LIST13,
   moraine_PEER_LIST14, moraine_PEER_LIST15]

/-- The fields of the Moraine block. -/
def moraineFlds : List Fld := moraineFlds0 ++ moraineFlds1

/-! ### Sastrugi (Tables 7.6–7.7) -/

def sastrugi_SAS_REV : Fld := ⟨0x0, 0, 8, 4, 0, 1, .ro, false, 0x10, 0x10⟩
def sastrugi_ENGINES_M1 : Fld := ⟨0x0, 8, 3, 4, 0, 1, .ro, false, 0x3, 0x3⟩
def sastrugi_READY : Fld := ⟨0x4, 0, 1, 4, 0, 1, .ro, false, 0x0, 0x0⟩
def sastrugi_ENG_BUSY : Fld := ⟨0x4, 1, 4, 4, 0, 1, .ro, false, 0x0, 0x0⟩
def sastrugi_PEND : Fld := ⟨0x4, 5, 7, 4, 0, 1, .ro, false, 0x0, 0x0⟩
def sastrugi_ENG_EN : Fld := ⟨0x8, 0, 4, 4, 0, 1, .rw, true, 0xF, 0xF⟩
def sastrugi_CNT_CLR : Fld := ⟨0x80, 0, 1, 4, 0, 1, .wo, false, 0x0, 0x0⟩
def sastrugi_ROWS_DONE_CNT : Fld := ⟨0x40, 0, 32, 4, 0, 1, .ro, false, 0x0, 0x0⟩
def sastrugi_MERGES_DONE_CNT : Fld := ⟨0x44, 0, 32, 4, 0, 1, .ro, false, 0x0, 0x0⟩
def sastrugi_ELEM_READ_CNT : Fld := ⟨0x48, 0, 32, 4, 0, 1, .ro, false, 0x0, 0x0⟩
def sastrugi_INSERT_CNT : Fld := ⟨0x4C, 0, 32, 4, 0, 1, .ro, false, 0x0, 0x0⟩
def sastrugi_NAN_SKIP_CNT : Fld := ⟨0x50, 0, 32, 4, 0, 1, .ro, false, 0x0, 0x0⟩
def sastrugi_SHORT_ROW_CNT : Fld := ⟨0x54, 0, 32, 4, 0, 1, .ro, false, 0x0, 0x0⟩
def sastrugi_DUP_DROP_CNT : Fld := ⟨0x58, 0, 32, 4, 0, 1, .ro, false, 0x0, 0x0⟩
def sastrugi_CONFLICT_CNT : Fld := ⟨0x5C, 0, 32, 4, 0, 1, .ro, false, 0x0, 0x0⟩
def sastrugi_LIST_INVALID_CNT : Fld := ⟨0x60, 0, 32, 4, 0, 1, .ro, false, 0x0, 0x0⟩
def sastrugi_UNDERSIZED_CNT : Fld := ⟨0x64, 0, 32, 4, 0, 1, .ro, false, 0x0, 0x0⟩

/-- The fields of the Sastrugi block. -/
def sastrugiFlds : List Fld :=
  [sastrugi_SAS_REV, sastrugi_ENGINES_M1, sastrugi_READY, sastrugi_ENG_BUSY, sastrugi_PEND, sastrugi_ENG_EN,
   sastrugi_CNT_CLR, sastrugi_ROWS_DONE_CNT, sastrugi_MERGES_DONE_CNT, sastrugi_ELEM_READ_CNT,
   sastrugi_INSERT_CNT, sastrugi_NAN_SKIP_CNT, sastrugi_SHORT_ROW_CNT, sastrugi_DUP_DROP_CNT,
   sastrugi_CONFLICT_CNT, sastrugi_LIST_INVALID_CNT, sastrugi_UNDERSIZED_CNT]

/-! ### vault controller (Tables 8.10–8.12) -/

def vault_VAULT : Fld := ⟨0x0, 0, 3, 4, 0, 1, .ro, false, 0x0, 0x0⟩ -- (its number, computed at the read)
def vault_VLT_REV : Fld := ⟨0x0, 8, 8, 4, 0, 1, .ro, false, 0x10, 0x10⟩
def vault_READY : Fld := ⟨0x4, 0, 1, 4, 0, 1, .ro, false, 0x0, 0x0⟩
def vault_TRAINING : Fld := ⟨0x4, 1, 1, 4, 0, 1, .ro, false, 0x0, 0x0⟩
def vault_INIT_BUSY : Fld := ⟨0x4, 2, 1, 4, 0, 1, .ro, false, 0x0, 0x0⟩
def vault_INIT_DONE : Fld := ⟨0x4, 3, 1, 4, 0, 1, .ro, false, 0x0, 0x0⟩
def vault_REFRESH_MULT : Fld := ⟨0x4, 4, 2, 4, 0, 1, .ro, false, 0x0, 0x0⟩
def vault_TAGS_USED : Fld := ⟨0x4, 8, 14, 4, 0, 1, .ro, false, 0x0, 0x0⟩
def vault_INIT_START : Fld := ⟨0x8, 0, 1, 4, 0, 1, .wo, true, 0x0, 0x0⟩
def vault_SCRUB_EN : Fld := ⟨0x8, 1, 1, 4, 0, 1, .rw, true, 0x1, 0x1⟩
def vault_SCRUB_SHIFT : Fld := ⟨0xC, 0, 5, 4, 0, 1, .rw, true, 0x18, 0x18⟩
def vault_QOS_W : Fld := ⟨0x10, 0, 4, 8, 4, 16, .rw, true, 0x8, 0x8⟩
def vault_CE_EVT_THRESH : Fld := ⟨0x18, 0, 32, 4, 0, 1, .rw, true, 0x400, 0x400⟩
def vault_LANE_THRESH : Fld := ⟨0x1C, 0, 16, 4, 0, 1, .rw, true, 0x40, 0x40⟩
def vault_ERR_ADDR : Fld := ⟨0x20, 0, 48, 4, 0, 1, .ro, true, 0x0, 0x0⟩
def vault_ERR_CAUSE : Fld := ⟨0x20, 48, 8, 4, 0, 1, .ro, true, 0x0, 0x0⟩
def vault_ERR_CTX : Fld := ⟨0x20, 56, 4, 4, 0, 1, .ro, true, 0x0, 0x0⟩
def vault_ERR_STREAM : Fld := ⟨0x20, 64, 12, 4, 0, 1, .ro, true, 0x0, 0x0⟩
def vault_ERR_VALID : Fld := ⟨0x20, 95, 1, 4, 0, 1, .rw1c, true, 0x0, 0x0⟩
def vault_ERR_TIME : Fld := ⟨0x20, 96, 32, 4, 0, 1, .ro, true, 0x0, 0x0⟩
def vault_LANE : Fld := ⟨0x180, 0, 10, 4, 32, 32, .ro, false, 0x0, 0x0⟩
def vault_SUSPECT : Fld := ⟨0x180, 31, 1, 4, 32, 32, .rw1c, false, 0x0, 0x0⟩
def vault_CNT_CLR : Fld := ⟨0x80, 0, 1, 4, 0, 1, .wo, false, 0x0, 0x0⟩
def vault_CE_CNT : Fld := ⟨0x40, 0, 32, 4, 0, 1, .ro, false, 0x0, 0x0⟩
def vault_UE_CNT : Fld := ⟨0x44, 0, 32, 4, 0, 1, .ro, false, 0x0, 0x0⟩
def vault_ATTR_FAULT_CNT : Fld := ⟨0x48, 0, 32, 4, 0, 1, .ro, false, 0x0, 0x0⟩
def vault_TAG_FAIL_CNT : Fld := ⟨0x4C, 0, 32, 4, 0, 1, .ro, false, 0x0, 0x0⟩
def vault_CTX_MISMATCH_CNT : Fld := ⟨0x50, 0, 32, 4, 0, 1, .ro, false, 0x0, 0x0⟩
def vault_KEY_STALE_CNT : Fld := ⟨0x54, 0, 32, 4, 0, 1, .ro, false, 0x0, 0x0⟩
def vault_POISON_RD_CNT : Fld := ⟨0x58, 0, 32, 4, 0, 1, .ro, false, 0x0, 0x0⟩
def vault_POISON_WR_CNT : Fld := ⟨0x5C, 0, 32, 4, 0, 1, .ro, false, 0x0, 0x0⟩
def vault_SCRUB_CE_CNT : Fld := ⟨0x60, 0, 32, 4, 0, 1, .ro, false, 0x0, 0x0⟩
def vault_SCRUB_UE_CNT : Fld := ⟨0x64, 0, 32, 4, 0, 1, .ro, false, 0x0, 0x0⟩
def vault_SCRUB_PASS_CNT : Fld := ⟨0x68, 0, 32, 4, 0, 1, .ro, false, 0x0, 0x0⟩
def vault_PC_CE_CNT : Fld := ⟨0x100, 0, 32, 4, 32, 32, .ro, false, 0x0, 0x0⟩

/-- The fields of the vault controller block. -/
def vaultFlds : List Fld :=
  [vault_VAULT, vault_VLT_REV, vault_READY, vault_TRAINING, vault_INIT_BUSY, vault_INIT_DONE,
   vault_REFRESH_MULT, vault_TAGS_USED, vault_INIT_START, vault_SCRUB_EN, vault_SCRUB_SHIFT, vault_QOS_W,
   vault_CE_EVT_THRESH, vault_LANE_THRESH, vault_ERR_ADDR, vault_ERR_CAUSE, vault_ERR_CTX, vault_ERR_STREAM,
   vault_ERR_VALID, vault_ERR_TIME, vault_LANE, vault_SUSPECT, vault_CNT_CLR, vault_CE_CNT, vault_UE_CNT,
   vault_ATTR_FAULT_CNT, vault_TAG_FAIL_CNT, vault_CTX_MISMATCH_CNT, vault_KEY_STALE_CNT,
   vault_POISON_RD_CNT, vault_POISON_WR_CNT, vault_SCRUB_CE_CNT, vault_SCRUB_UE_CNT, vault_SCRUB_PASS_CNT,
   vault_PC_CE_CNT]

/-! ### flow engine (Tables 8.14–8.15) -/

def fe_ENGINE : Fld := ⟨0x0, 0, 6, 4, 0, 1, .ro, false, 0x0, 0x0⟩ -- (its number, computed at the read)
def fe_REGION : Fld := ⟨0x0, 6, 3, 4, 0, 1, .ro, false, 0x0, 0x0⟩ -- (its number, computed at the read)
def fe_READY : Fld := ⟨0x4, 0, 1, 4, 0, 1, .ro, false, 0x0, 0x0⟩
def fe_BUSY : Fld := ⟨0x4, 1, 1, 4, 0, 1, .ro, false, 0x0, 0x0⟩
def fe_SUSPENDED : Fld := ⟨0x4, 2, 1, 4, 0, 1, .ro, false, 0x0, 0x0⟩
def fe_RING_ACTIVE : Fld := ⟨0x4, 3, 3, 4, 0, 1, .ro, false, 0x0, 0x0⟩
def fe_TAGS_USED : Fld := ⟨0x4, 7, 9, 4, 0, 1, .ro, false, 0x0, 0x0⟩
def fe_RING_EN : Fld := ⟨0x8, 0, 1, 4, 0, 1, .rw, true, 0x0, 0x0⟩
def fe_RING_CTX : Fld := ⟨0x8, 4, 4, 4, 0, 1, .rw, true, 0x0, 0x0⟩
def fe_RING_VA : Fld := ⟨0x10, 0, 48, 8, 0, 1, .rw, true, 0x0, 0x0⟩
def fe_RING_LOG2 : Fld := ⟨0x18, 0, 5, 4, 0, 1, .rw, true, 0x4, 0x4⟩
def fe_PROD : Fld := ⟨0x1C, 0, 32, 4, 0, 1, .rw, false, 0x0, 0x0⟩
def fe_CONS : Fld := ⟨0x20, 0, 32, 4, 0, 1, .ro, false, 0x0, 0x0⟩
def fe_CNT_CLR : Fld := ⟨0x60, 0, 1, 4, 0, 1, .wo, false, 0x0, 0x0⟩
def fe_RING_DONE_CNT : Fld := ⟨0x40, 0, 32, 4, 0, 1, .ro, false, 0x0, 0x0⟩
def fe_CLASS_DONE_CNT : Fld := ⟨0x44, 0, 32, 4, 0, 1, .ro, false, 0x0, 0x0⟩
def fe_FE_POISON_CNT : Fld := ⟨0x48, 0, 32, 4, 0, 1, .ro, false, 0x0, 0x0⟩
def fe_TAG_WAIT_CYC : Fld := ⟨0x4C, 0, 32, 4, 0, 1, .ro, false, 0x0, 0x0⟩
def fe_GRANULES_MOVED : Fld := ⟨0x50, 0, 64, 8, 0, 1, .ro, false, 0x0, 0x0⟩

/-- The fields of the flow engine block. -/
def feFlds : List Fld :=
  [fe_ENGINE, fe_REGION, fe_READY, fe_BUSY, fe_SUSPENDED, fe_RING_ACTIVE, fe_TAGS_USED, fe_RING_EN,
   fe_RING_CTX, fe_RING_VA, fe_RING_LOG2, fe_PROD, fe_CONS, fe_CNT_CLR, fe_RING_DONE_CNT, fe_CLASS_DONE_CNT,
   fe_FE_POISON_CNT, fe_TAG_WAIT_CYC, fe_GRANULES_MOVED]

/-! ### isolation and Varve (Tables 9.9–9.12, 13.12) -/

def mgmt_ISO_REV : Fld := ⟨0x8000, 0, 8, 4, 0, 1, .ro, true, 0x10, 0x10⟩
def mgmt_CTX_M1 : Fld := ⟨0x8000, 8, 5, 4, 0, 1, .ro, true, 0xF, 0xF⟩
def mgmt_FUNC : Fld := ⟨0x8010, 0, 8, 4, 0, 1, .rw, true, 0x0, 0x0⟩
def mgmt_POLICY : Fld := ⟨0x8010, 8, 1, 4, 0, 1, .rw, true, 0x0, 0x0⟩
def mgmt_OP : Fld := ⟨0x8010, 9, 1, 4, 0, 1, .rw, true, 0x0, 0x0⟩
def mgmt_GO : Fld := ⟨0x8010, 31, 1, 4, 0, 1, .wo, true, 0x0, 0x0⟩
def mgmt_DIS_FUNC : Fld := ⟨0x8014, 0, 8, 4, 0, 1, .ro, true, 0x0, 0x0⟩
def mgmt_DIS_POLICY : Fld := ⟨0x8014, 8, 1, 4, 0, 1, .ro, true, 0x0, 0x0⟩
def mgmt_DIS_BUSY : Fld := ⟨0x8014, 9, 1, 4, 0, 1, .ro, true, 0x0, 0x0⟩
def mgmt_DIS_REJECT : Fld := ⟨0x8014, 16, 8, 4, 0, 1, .ro, true, 0x0, 0x0⟩
def mgmt_DIS_DONE : Fld := ⟨0x8014, 31, 1, 4, 0, 1, .rw1c, true, 0x0, 0x0⟩
def mgmt_INV_CTX : Fld := ⟨0x8018, 0, 4, 4, 0, 1, .rw, true, 0x0, 0x0⟩
def mgmt_INV_ALL : Fld := ⟨0x8018, 4, 1, 4, 0, 1, .rw, true, 0x0, 0x0⟩
def mgmt_INV_GO : Fld := ⟨0x8018, 5, 1, 4, 0, 1, .wo, true, 0x0, 0x0⟩
def mgmt_INV_BUSY : Fld := ⟨0x8018, 6, 1, 4, 0, 1, .ro, true, 0x0, 0x0⟩
def mgmt_INV_COUNT : Fld := ⟨0x8018, 16, 16, 4, 0, 1, .rw, true, 0x1, 0x1⟩
def mgmt_INV_VA : Fld := ⟨0x8020, 21, 27, 8, 0, 1, .rw, true, 0x0, 0x0⟩
def mgmt_BLK_SECURE : Fld := ⟨0x8028, 0, 31, 4, 0, 1, .rw, true, 0x7FFFFFFF, 0x7FFFFFFF⟩
def mgmt_DENY_PA : Fld := ⟨0x8030, 0, 48, 4, 0, 1, .ro, true, 0x0, 0x0⟩
def mgmt_DENY_DESC : Fld := ⟨0x8030, 48, 6, 4, 0, 1, .ro, true, 0x0, 0x0⟩
def mgmt_DENY_NONE : Fld := ⟨0x8030, 54, 1, 4, 0, 1, .ro, true, 0x0, 0x0⟩
def mgmt_DENY_WRITE : Fld := ⟨0x8030, 55, 1, 4, 0, 1, .ro, true, 0x0, 0x0⟩
def mgmt_DENY_CTX : Fld := ⟨0x8030, 56, 4, 4, 0, 1, .ro, true, 0x0, 0x0⟩
def mgmt_DENY_SECURE : Fld := ⟨0x8030, 60, 1, 4, 0, 1, .ro, true, 0x0, 0x0⟩
def mgmt_DENY_STREAM : Fld := ⟨0x8030, 64, 12, 4, 0, 1, .ro, true, 0x0, 0x0⟩
def mgmt_FW_DENY_VALID : Fld := ⟨0x8030, 95, 1, 4, 0, 1, .rw1c, true, 0x0, 0x0⟩
def mgmt_DENY_TIME : Fld := ⟨0x8030, 96, 32, 4, 0, 1, .ro, true, 0x0, 0x0⟩
def mgmt_FW_DENY_CNT : Fld := ⟨0x8040, 0, 32, 4, 0, 1, .ro, true, 0x0, 0x0⟩
def mgmt_FUNC_OFF : Fld := ⟨0x8048, 0, 128, 8, 0, 1, .ro, true, 0x0, 0x0⟩
def mgmt_OWNER : Fld := ⟨0x8600, 0, 4, 4, 32, 8, .rw, true, 0x0, 0x0⟩
def mgmt_OWNED : Fld := ⟨0x8600, 4, 1, 4, 32, 8, .rw, true, 0x0, 0x0⟩
def mgmt_CTX_SECURE : Fld := ⟨0x8100, 0, 1, 4, 512, 16, .rw, true, 0x0, 0x1⟩
def mgmt_LATENCY : Fld := ⟨0x8100, 1, 1, 4, 512, 16, .rw, true, 0x0, 0x0⟩
def mgmt_SAFETY : Fld := ⟨0x8100, 2, 1, 4, 512, 16, .rw, true, 0x0, 0x0⟩
def mgmt_VA_BITS : Fld := ⟨0x8100, 3, 6, 4, 512, 16, .rw, true, 0x1E, 0x1E⟩
def mgmt_STATE : Fld := ⟨0x8104, 0, 3, 4, 512, 16, .ro, true, 0x0, 0x1⟩
def mgmt_PARKED_ANY : Fld := ⟨0x8104, 3, 1, 4, 512, 16, .ro, true, 0x0, 0x0⟩
def mgmt_RUNNING : Fld := ⟨0x8104, 4, 12, 4, 512, 16, .ro, true, 0x0, 0x0⟩
def mgmt_ENABLE : Fld := ⟨0x8108, 0, 1, 4, 512, 16, .wo, true, 0x0, 0x0⟩
def mgmt_SUSPEND : Fld := ⟨0x8108, 1, 1, 4, 512, 16, .wo, true, 0x0, 0x0⟩
def mgmt_RESUME : Fld := ⟨0x8108, 2, 1, 4, 512, 16, .wo, true, 0x0, 0x0⟩
def mgmt_CTX_TTB : Fld := ⟨0x8110, 16, 32, 8, 512, 16, .rw, true, 0x0, 0x0⟩
def mgmt_FAULT_VA : Fld := ⟨0x8118, 0, 48, 8, 512, 16, .ro, true, 0x0, 0x0⟩
def mgmt_FAULT_CODE : Fld := ⟨0x8120, 0, 8, 4, 512, 16, .ro, true, 0x0, 0x0⟩
def mgmt_FAULT_STREAM : Fld := ⟨0x8120, 8, 12, 4, 512, 16, .ro, true, 0x0, 0x0⟩
def mgmt_FAULT_WRITE : Fld := ⟨0x8120, 20, 1, 4, 512, 16, .ro, true, 0x0, 0x0⟩
def mgmt_FAULT_VALID : Fld := ⟨0x8120, 31, 1, 4, 512, 16, .rw1c, true, 0x0, 0x0⟩
def mgmt_FAULT_TIME : Fld := ⟨0x8124, 0, 32, 4, 512, 16, .ro, true, 0x0, 0x0⟩
def mgmt_CTX_FAULT_CNT : Fld := ⟨0x8128, 0, 32, 4, 512, 16, .ro, true, 0x0, 0x0⟩
def mgmt_RD_BASE : Fld := ⟨0x8800, 16, 32, 8, 256, 64, .rw, true, 0x0, 0x0⟩
def mgmt_RD_LIMIT : Fld := ⟨0x8808, 16, 32, 8, 256, 64, .rw, true, 0x0, 0x0⟩
def mgmt_RD_EN : Fld := ⟨0x8810, 0, 1, 4, 256, 64, .rw, true, 0x0, 0x0⟩
def mgmt_RD_SECURE : Fld := ⟨0x8810, 1, 1, 4, 256, 64, .rw, true, 0x0, 0x0⟩
def mgmt_PERM_R : Fld := ⟨0x8810, 2, 1, 4, 256, 64, .rw, true, 0x0, 0x0⟩
def mgmt_PERM_W : Fld := ⟨0x8810, 3, 1, 4, 256, 64, .rw, true, 0x0, 0x0⟩
def mgmt_ILV : Fld := ⟨0x8810, 4, 2, 4, 256, 64, .rw, true, 0x0, 0x0⟩
def mgmt_SID_ANY : Fld := ⟨0x8810, 6, 1, 4, 256, 64, .rw, true, 0x0, 0x0⟩
def mgmt_CTX_MASK : Fld := ⟨0x8810, 16, 16, 4, 256, 64, .rw, true, 0x0, 0x0⟩
def mgmt_SID_LO : Fld := ⟨0x8814, 0, 12, 4, 256, 64, .rw, true, 0x0, 0x0⟩
def mgmt_SID_HI : Fld := ⟨0x8814, 16, 12, 4, 256, 64, .rw, true, 0x0, 0x0⟩
def mgmt_RD_DENY_CNT : Fld := ⟨0x8818, 0, 32, 4, 256, 64, .ro, true, 0x0, 0x0⟩
def mgmt_VARVE_NOW : Fld := ⟨0x0, 0, 64, 8, 0, 1, .ro, false, 0x0, 0x0⟩
def mgmt_VARVE_NOW32 : Fld := ⟨0x8, 0, 32, 4, 0, 1, .ro, false, 0x0, 0x0⟩
def mgmt_RATE_ADJ : Fld := ⟨0x10, 0, 32, 4, 0, 1, .rw, true, 0x0, 0x0⟩
def mgmt_STEPPED : Fld := ⟨0x14, 0, 1, 4, 0, 1, .ro, false, 0x0, 0x0⟩
def mgmt_LIMIT_HIT : Fld := ⟨0x14, 1, 1, 4, 0, 1, .rw1c, false, 0x0, 0x0⟩
def mgmt_STEP_OFFSET : Fld := ⟨0x18, 0, 64, 8, 0, 1, .rw, true, 0x0, 0x0⟩
def mgmt_STEP_GO : Fld := ⟨0x20, 0, 1, 4, 0, 1, .wo, true, 0x0, 0x0⟩
def mgmt_STEP_BEFORE : Fld := ⟨0x28, 0, 64, 8, 0, 1, .ro, false, 0x0, 0x0⟩
def mgmt_STEP_AFTER : Fld := ⟨0x30, 0, 64, 8, 0, 1, .ro, false, 0x0, 0x0⟩

/-- The fields of the isolation and Varve block, part 0. -/
def mgmtFlds0 : List Fld :=
  [mgmt_ISO_REV, mgmt_CTX_M1, mgmt_FUNC, mgmt_POLICY, mgmt_OP, mgmt_GO, mgmt_DIS_FUNC, mgmt_DIS_POLICY,
   mgmt_DIS_BUSY, mgmt_DIS_REJECT, mgmt_DIS_DONE, mgmt_INV_CTX, mgmt_INV_ALL, mgmt_INV_GO, mgmt_INV_BUSY,
   mgmt_INV_COUNT, mgmt_INV_VA, mgmt_BLK_SECURE, mgmt_DENY_PA, mgmt_DENY_DESC, mgmt_DENY_NONE,
   mgmt_DENY_WRITE, mgmt_DENY_CTX, mgmt_DENY_SECURE, mgmt_DENY_STREAM, mgmt_FW_DENY_VALID, mgmt_DENY_TIME,
   mgmt_FW_DENY_CNT, mgmt_FUNC_OFF, mgmt_OWNER, mgmt_OWNED, mgmt_CTX_SECURE, mgmt_LATENCY, mgmt_SAFETY,
   mgmt_VA_BITS, mgmt_STATE, mgmt_PARKED_ANY, mgmt_RUNNING, mgmt_ENABLE, mgmt_SUSPEND]

/-- The fields of the isolation and Varve block, part 1. -/
def mgmtFlds1 : List Fld :=
  [mgmt_RESUME, mgmt_CTX_TTB, mgmt_FAULT_VA, mgmt_FAULT_CODE, mgmt_FAULT_STREAM, mgmt_FAULT_WRITE,
   mgmt_FAULT_VALID, mgmt_FAULT_TIME, mgmt_CTX_FAULT_CNT, mgmt_RD_BASE, mgmt_RD_LIMIT, mgmt_RD_EN,
   mgmt_RD_SECURE, mgmt_PERM_R, mgmt_PERM_W, mgmt_ILV, mgmt_SID_ANY, mgmt_CTX_MASK, mgmt_SID_LO, mgmt_SID_HI,
   mgmt_RD_DENY_CNT, mgmt_VARVE_NOW, mgmt_VARVE_NOW32, mgmt_RATE_ADJ, mgmt_STEPPED, mgmt_LIMIT_HIT,
   mgmt_STEP_OFFSET, mgmt_STEP_GO, mgmt_STEP_BEFORE, mgmt_STEP_AFTER]

/-- The fields of the isolation and Varve block. -/
def mgmtFlds : List Fld := mgmtFlds0 ++ mgmtFlds1

/-! ### region translation cache (Table 9.13) -/

def region_TC_VALID : Fld := ⟨0x100, 0, 13, 4, 0, 1, .ro, false, 0x0, 0x0⟩
def region_TC_HIT_CNT : Fld := ⟨0x104, 0, 32, 4, 0, 1, .ro, false, 0x0, 0x0⟩
def region_TC_MISS_CNT : Fld := ⟨0x108, 0, 32, 4, 0, 1, .ro, false, 0x0, 0x0⟩
def region_TC_WALK_RD_CNT : Fld := ⟨0x10C, 0, 32, 4, 0, 1, .ro, false, 0x0, 0x0⟩
def region_TC_FAULT_CNT : Fld := ⟨0x110, 0, 32, 4, 0, 1, .ro, false, 0x0, 0x0⟩
def region_TC_INV_CNT : Fld := ⟨0x114, 0, 32, 4, 0, 1, .ro, false, 0x0, 0x0⟩
def region_TC_CNT_CLR : Fld := ⟨0x118, 0, 1, 4, 0, 1, .wo, false, 0x0, 0x0⟩

/-- The fields of the region translation cache block. -/
def regionFlds : List Fld :=
  [region_TC_VALID, region_TC_HIT_CNT, region_TC_MISS_CNT, region_TC_WALK_RD_CNT, region_TC_FAULT_CNT,
   region_TC_INV_CNT, region_TC_CNT_CLR]

/-! ### sync object (Table 10.2) -/

def sync_COUNT : Fld := ⟨0x0, 0, 64, 8, 0, 1, .ro, false, 0x0, 0x0⟩
def sync_SIG_ADD : Fld := ⟨0x8, 0, 32, 4, 0, 1, .wo, false, 0x0, 0x0⟩
def sync_OBJ_EN : Fld := ⟨0xC, 0, 1, 4, 0, 1, .rw, true, 0x0, 0x0⟩
def sync_SCOPE : Fld := ⟨0xC, 1, 2, 4, 0, 1, .rw, true, 0x2, 0x2⟩
def sync_CLUSTER : Fld := ⟨0xC, 3, 2, 4, 0, 1, .rw, true, 0x0, 0x0⟩
def sync_OBJ_CTX : Fld := ⟨0xC, 5, 4, 4, 0, 1, .rw, true, 0x0, 0x0⟩
def sync_CTX_ANY : Fld := ⟨0xC, 9, 1, 4, 0, 1, .rw, true, 0x0, 0x0⟩
def sync_CLR : Fld := ⟨0xC, 10, 1, 4, 0, 1, .wo, true, 0x0, 0x0⟩
def sync_SAT : Fld := ⟨0xC, 11, 1, 4, 0, 1, .rw1c, false, 0x0, 0x0⟩
def sync_KEY_SLOT : Fld := ⟨0xC, 12, 8, 4, 0, 1, .rw, true, 0x0, 0x0⟩
def sync_WAITERS : Fld := ⟨0xC, 20, 10, 4, 0, 1, .ro, false, 0x0, 0x0⟩

/-- The fields of the sync object block. -/
def syncFlds : List Fld :=
  [sync_COUNT, sync_SIG_ADD, sync_OBJ_EN, sync_SCOPE, sync_CLUSTER, sync_OBJ_CTX, sync_CTX_ANY, sync_CLR,
   sync_SAT, sync_KEY_SLOT, sync_WAITERS]

/-! ### mailbox (Table 10.4) -/

def mbx_MBX_EN : Fld := ⟨0x0, 0, 1, 4, 0, 1, .rw, true, 0x0, 0x0⟩
def mbx_MODE : Fld := ⟨0x0, 1, 1, 4, 0, 1, .rw, true, 0x0, 0x0⟩
def mbx_FULL : Fld := ⟨0x4, 0, 8, 4, 0, 1, .ro, false, 0x0, 0x0⟩
def mbx_TMO : Fld := ⟨0x4, 8, 8, 4, 0, 1, .rw1c, false, 0x0, 0x0⟩
def mbx_COLLISION : Fld := ⟨0x4, 16, 1, 4, 0, 1, .rw1c, false, 0x0, 0x0⟩
def mbx_LAST_SID : Fld := ⟨0x4, 17, 12, 4, 0, 1, .ro, false, 0x0, 0x0⟩
def mbx_TMO_US : Fld := ⟨0x8, 0, 20, 4, 0, 1, .rw, true, 0x3E8, 0x3E8⟩
def mbx_CH_SID : Fld := ⟨0x10, 0, 12, 4, 16, 8, .rw, true, 0xFFF, 0xFFF⟩
def mbx_DB_OBJ : Fld := ⟨0x20, 0, 14, 4, 0, 1, .rw, true, 0x0, 0x0⟩
def mbx_DB_EN : Fld := ⟨0x20, 15, 1, 4, 0, 1, .rw, true, 0x0, 0x0⟩
def mbx_POP_CH : Fld := ⟨0x24, 0, 3, 4, 0, 1, .wo, false, 0x0, 0x0⟩
def mbx_ACCEPT_CNT : Fld := ⟨0x30, 0, 32, 4, 0, 1, .ro, false, 0x0, 0x0⟩
def mbx_REFUSE_CNT : Fld := ⟨0x34, 0, 32, 4, 0, 1, .ro, false, 0x0, 0x0⟩
def mbx_COLL_CNT : Fld := ⟨0x38, 0, 32, 4, 0, 1, .ro, false, 0x0, 0x0⟩
def mbx_TMO_CNT : Fld := ⟨0x3C, 0, 32, 4, 0, 1, .ro, false, 0x0, 0x0⟩

/-- The fields of the mailbox block. -/
def mbxFlds : List Fld :=
  [mbx_MBX_EN, mbx_MODE, mbx_FULL, mbx_TMO, mbx_COLLISION, mbx_LAST_SID, mbx_TMO_US, mbx_CH_SID, mbx_DB_OBJ,
   mbx_DB_EN, mbx_POP_CH, mbx_ACCEPT_CNT, mbx_REFUSE_CNT, mbx_COLL_CNT, mbx_TMO_CNT]

/-! ### MMP (Table 11.10) -/

def mmp_MMP_REV : Fld := ⟨0x0, 0, 8, 4, 0, 1, .ro, false, 0x10, 0x10⟩
def mmp_CH_READY : Fld := ⟨0x100, 0, 1, 4, 2048, 2, .ro, false, 0x0, 0x0⟩
def mmp_HALT : Fld := ⟨0x100, 1, 1, 4, 2048, 2, .ro, false, 0x0, 0x0⟩
def mmp_TRAINED : Fld := ⟨0x100, 2, 1, 4, 2048, 2, .ro, false, 0x0, 0x0⟩
def mmp_FSP : Fld := ⟨0x100, 3, 2, 4, 2048, 2, .ro, false, 0x0, 0x0⟩
def mmp_RL : Fld := ⟨0x100, 5, 8, 4, 2048, 2, .ro, false, 0x0, 0x0⟩
def mmp_LECC_RD : Fld := ⟨0x100, 13, 1, 4, 2048, 2, .ro, false, 0x0, 0x0⟩
def mmp_LECC_WR : Fld := ⟨0x100, 14, 1, 4, 2048, 2, .ro, false, 0x0, 0x0⟩
def mmp_IN_SR : Fld := ⟨0x100, 15, 1, 4, 2048, 2, .ro, false, 0x0, 0x0⟩
def mmp_RATE : Fld := ⟨0x100, 16, 16, 4, 2048, 2, .ro, false, 0x0, 0x0⟩
def mmp_HOST_CTX : Fld := ⟨0x104, 0, 4, 4, 2048, 2, .rw, true, 0x0, 0x0⟩
def mmp_HOST_SECURE : Fld := ⟨0x104, 4, 1, 4, 2048, 2, .rw, true, 0x0, 0x0⟩
def mmp_IRQ_EVR : Fld := ⟨0x104, 5, 1, 4, 2048, 2, .rw, true, 0x0, 0x0⟩
def mmp_PROTO_ERR_CNT : Fld := ⟨0x140, 0, 32, 4, 2048, 2, .ro, false, 0x0, 0x0⟩
def mmp_RL_SHORT_CNT : Fld := ⟨0x144, 0, 32, 4, 2048, 2, .ro, false, 0x0, 0x0⟩
def mmp_LECC_CE_CNT : Fld := ⟨0x148, 0, 32, 4, 2048, 2, .ro, false, 0x0, 0x0⟩
def mmp_LECC_UE_CNT : Fld := ⟨0x14C, 0, 32, 4, 2048, 2, .ro, false, 0x0, 0x0⟩
def mmp_DEAD_RD_CNT : Fld := ⟨0x150, 0, 32, 4, 2048, 2, .ro, false, 0x0, 0x0⟩
def mmp_DEAD_WR_CNT : Fld := ⟨0x154, 0, 32, 4, 2048, 2, .ro, false, 0x0, 0x0⟩
def mmp_SRAM_CE_CNT : Fld := ⟨0x158, 0, 32, 4, 2048, 2, .ro, false, 0x0, 0x0⟩
def mmp_SRAM_UE_CNT : Fld := ⟨0x15C, 0, 32, 4, 2048, 2, .ro, false, 0x0, 0x0⟩
def mmp_REF_CNT : Fld := ⟨0x160, 0, 32, 4, 2048, 2, .ro, false, 0x0, 0x0⟩
def mmp_DB_CNT : Fld := ⟨0x164, 0, 32, 4, 2048, 2, .ro, false, 0x0, 0x0⟩
def mmp_DB_REJECT_CNT : Fld := ⟨0x168, 0, 32, 4, 2048, 2, .ro, false, 0x0, 0x0⟩
def mmp_CNT_CLR : Fld := ⟨0x180, 0, 1, 4, 2048, 2, .wo, false, 0x0, 0x0⟩
def mmp_HQ_EN : Fld := ⟨0x1000, 0, 1, 4, 256, 32, .rw, true, 0x0, 0x0⟩
def mmp_HQ_CTX : Fld := ⟨0x1000, 1, 4, 4, 256, 32, .rw, true, 0x0, 0x0⟩
def mmp_SQ_LOG2 : Fld := ⟨0x1000, 5, 5, 4, 256, 32, .rw, true, 0x4, 0x4⟩
def mmp_CQ_LOG2 : Fld := ⟨0x1000, 10, 5, 4, 256, 32, .rw, true, 0x4, 0x4⟩
def mmp_SQ_BASE : Fld := ⟨0x1004, 0, 32, 4, 256, 32, .rw, true, 0x0, 0x0⟩
def mmp_CQ_BASE : Fld := ⟨0x1008, 0, 32, 4, 256, 32, .rw, true, 0x0, 0x0⟩
def mmp_SQ_PROD_SEEN : Fld := ⟨0x100C, 0, 32, 4, 256, 32, .ro, true, 0x0, 0x0⟩
def mmp_SQ_CONS : Fld := ⟨0x1010, 0, 32, 4, 256, 32, .rw, true, 0x0, 0x0⟩
def mmp_CQ_PROD : Fld := ⟨0x1014, 0, 32, 4, 256, 32, .rw, true, 0x0, 0x0⟩
def mmp_CQ_ACK_SEEN : Fld := ⟨0x1018, 0, 32, 4, 256, 32, .ro, true, 0x0, 0x0⟩

/-- The fields of the MMP block. -/
def mmpFlds : List Fld :=
  [mmp_MMP_REV, mmp_CH_READY, mmp_HALT, mmp_TRAINED, mmp_FSP, mmp_RL, mmp_LECC_RD, mmp_LECC_WR, mmp_IN_SR,
   mmp_RATE, mmp_HOST_CTX, mmp_HOST_SECURE, mmp_IRQ_EVR, mmp_PROTO_ERR_CNT, mmp_RL_SHORT_CNT,
   mmp_LECC_CE_CNT, mmp_LECC_UE_CNT, mmp_DEAD_RD_CNT, mmp_DEAD_WR_CNT, mmp_SRAM_CE_CNT, mmp_SRAM_UE_CNT,
   mmp_REF_CNT, mmp_DB_CNT, mmp_DB_REJECT_CNT, mmp_CNT_CLR, mmp_HQ_EN, mmp_HQ_CTX, mmp_SQ_LOG2, mmp_CQ_LOG2,
   mmp_SQ_BASE, mmp_CQ_BASE, mmp_SQ_PROD_SEEN, mmp_SQ_CONS, mmp_CQ_PROD, mmp_CQ_ACK_SEEN]

/-! ### link port (Table 12.8) -/

def link_PORT : Fld := ⟨0x0, 0, 3, 4, 0, 1, .ro, false, 0x0, 0x0⟩ -- (its number, computed at the read)
def link_LINK_REV : Fld := ⟨0x0, 8, 8, 4, 0, 1, .ro, false, 0x10, 0x10⟩
def link_STATE : Fld := ⟨0x4, 0, 3, 4, 0, 1, .ro, false, 0x0, 0x0⟩
def link_WIDTH8 : Fld := ⟨0x4, 3, 1, 4, 0, 1, .ro, false, 0x0, 0x0⟩
def link_RATE_HALF : Fld := ⟨0x4, 4, 1, 4, 0, 1, .ro, false, 0x0, 0x0⟩
def link_NBR_VALID : Fld := ⟨0x4, 5, 1, 4, 0, 1, .ro, false, 0x0, 0x0⟩
def link_NBR_PKG : Fld := ⟨0x4, 6, 6, 4, 0, 1, .ro, false, 0x0, 0x0⟩
def link_TAGS_USED : Fld := ⟨0x4, 13, 13, 4, 0, 1, .ro, false, 0x0, 0x0⟩
def link_PORT_EN : Fld := ⟨0x8, 0, 1, 4, 0, 1, .rw, true, 0x0, 0x0⟩
def link_ALLOW_W8 : Fld := ⟨0x8, 1, 1, 4, 0, 1, .rw, true, 0x1, 0x1⟩
def link_RATE_56 : Fld := ⟨0x8, 2, 1, 4, 0, 1, .rw, true, 0x0, 0x0⟩
def link_RETRAIN : Fld := ⟨0x8, 3, 1, 4, 0, 1, .wo, true, 0x0, 0x0⟩
def link_FLITS_TX_CNT : Fld := ⟨0x40, 0, 32, 4, 0, 1, .ro, false, 0x0, 0x0⟩
def link_FLITS_RX_CNT : Fld := ⟨0x44, 0, 32, 4, 0, 1, .ro, false, 0x0, 0x0⟩
def link_CE_SYM_CNT : Fld := ⟨0x48, 0, 32, 4, 0, 1, .ro, false, 0x0, 0x0⟩
def link_UE_FLIT_CNT : Fld := ⟨0x4C, 0, 32, 4, 0, 1, .ro, false, 0x0, 0x0⟩
def link_REPLAY_CNT : Fld := ⟨0x50, 0, 32, 4, 0, 1, .ro, false, 0x0, 0x0⟩
def link_RETRAIN_CNT : Fld := ⟨0x54, 0, 32, 4, 0, 1, .ro, false, 0x0, 0x0⟩
def link_FWD_PKT_CNT : Fld := ⟨0x58, 0, 32, 4, 0, 1, .ro, false, 0x0, 0x0⟩
def link_ESCAPE_CNT : Fld := ⟨0x5C, 0, 32, 4, 0, 1, .ro, false, 0x0, 0x0⟩
def link_ROUTE_DROP_CNT : Fld := ⟨0x60, 0, 32, 4, 0, 1, .ro, false, 0x0, 0x0⟩
def link_BAD_END_CNT : Fld := ⟨0x64, 0, 32, 4, 0, 1, .ro, false, 0x0, 0x0⟩
def link_CNT_CLR : Fld := ⟨0x80, 0, 1, 4, 0, 1, .wo, false, 0x0, 0x0⟩
def link_W0 : Fld := ⟨0xC, 0, 4, 4, 0, 1, .rw, true, 4, 4⟩
def link_W1 : Fld := ⟨0xC, 4, 4, 4, 0, 1, .rw, true, 2, 2⟩
def link_W2 : Fld := ⟨0xC, 8, 4, 4, 0, 1, .rw, true, 6, 6⟩
def link_W3 : Fld := ⟨0xC, 12, 4, 4, 0, 1, .rw, true, 4, 4⟩

/-- The fields of the link port block. -/
def linkFlds : List Fld :=
  [link_PORT, link_LINK_REV, link_STATE, link_WIDTH8, link_RATE_HALF, link_NBR_VALID, link_NBR_PKG,
   link_TAGS_USED, link_PORT_EN, link_ALLOW_W8, link_RATE_56, link_RETRAIN, link_FLITS_TX_CNT,
   link_FLITS_RX_CNT, link_CE_SYM_CNT, link_UE_FLIT_CNT, link_REPLAY_CNT, link_RETRAIN_CNT, link_FWD_PKT_CNT,
   link_ESCAPE_CNT, link_ROUTE_DROP_CNT, link_BAD_END_CNT, link_CNT_CLR, link_W0, link_W1, link_W2, link_W3]

/-! ### system link registers, in the block of port 0 (Table 12.9) -/

def link0_TOPO_EN : Fld := ⟨0x8000, 0, 1, 4, 0, 1, .rw, true, 0x0, 0x0⟩
def link0_DIM_X : Fld := ⟨0x8000, 1, 4, 4, 0, 1, .rw, true, 0x1, 0x1⟩
def link0_DIM_Y : Fld := ⟨0x8000, 5, 4, 4, 0, 1, .rw, true, 0x1, 0x1⟩
def link0_DIM_Z : Fld := ⟨0x8000, 9, 4, 4, 0, 1, .rw, true, 0x1, 0x1⟩
def link0_COORD_X : Fld := ⟨0x8004, 0, 3, 4, 0, 1, .ro, true, 0x0, 0x0⟩
def link0_COORD_Y : Fld := ⟨0x8004, 3, 3, 4, 0, 1, .ro, true, 0x0, 0x0⟩
def link0_COORD_Z : Fld := ⟨0x8004, 6, 3, 4, 0, 1, .ro, true, 0x0, 0x0⟩
def link0_COLL_INFLIGHT : Fld := ⟨0x8004, 9, 4, 4, 0, 1, .ro, true, 0x0, 0x0⟩
def link0_REMOTE_TMO : Fld := ⟨0x8008, 0, 20, 4, 0, 1, .rw, true, 0x2710, 0x2710⟩
def link0_REACH : Fld := ⟨0x8010, 0, 64, 8, 0, 1, .rw, true, 0x0, 0x0⟩
def link0_OUT_EN : Fld := ⟨0x8040, 0, 1, 8, 64, 64, .rw, true, 0x0, 0x0⟩
def link0_OUT_SLOT : Fld := ⟨0x8040, 8, 8, 8, 64, 64, .rw, true, 0x0, 0x0⟩
def link0_OUT_CTX_MASK : Fld := ⟨0x8040, 16, 16, 8, 64, 64, .rw, true, 0x0, 0x0⟩
def link0_WB_BASE : Fld := ⟨0x8400, 16, 32, 8, 256, 32, .rw, true, 0x0, 0x0⟩
def link0_WB_LIMIT : Fld := ⟨0x8408, 16, 32, 8, 256, 32, .rw, true, 0x0, 0x0⟩
def link0_DW_EN : Fld := ⟨0x8410, 0, 1, 4, 256, 32, .rw, true, 0x0, 0x0⟩
def link0_PERM_R : Fld := ⟨0x8410, 1, 1, 4, 256, 32, .rw, true, 0x0, 0x0⟩
def link0_PERM_W : Fld := ⟨0x8410, 2, 1, 4, 256, 32, .rw, true, 0x0, 0x0⟩
def link0_DW_BUSY : Fld := ⟨0x8410, 3, 1, 4, 256, 32, .ro, true, 0x0, 0x0⟩
def link0_DW_CTX : Fld := ⟨0x8410, 4, 4, 4, 256, 32, .rw, true, 0x0, 0x0⟩
def link0_DW_SECURE : Fld := ⟨0x8410, 8, 1, 4, 256, 32, .rw, true, 0x0, 0x0⟩
def link0_DW_SLOT : Fld := ⟨0x8410, 16, 8, 4, 256, 32, .rw, true, 0x0, 0x0⟩
def link0_DW_PEERS : Fld := ⟨0x8418, 0, 64, 8, 256, 32, .rw, true, 0x0, 0x0⟩
def link0_GCM_FAIL_CNT : Fld := ⟨0x8840, 0, 32, 4, 0, 1, .ro, true, 0x0, 0x0⟩
def link0_REPLAY_REJ_CNT : Fld := ⟨0x8844, 0, 32, 4, 0, 1, .ro, true, 0x0, 0x0⟩
def link0_REMOTE_TMO_CNT : Fld := ⟨0x8848, 0, 32, 4, 0, 1, .ro, true, 0x0, 0x0⟩
def link0_LATE_RESP_CNT : Fld := ⟨0x884C, 0, 32, 4, 0, 1, .ro, true, 0x0, 0x0⟩
def link0_WIN_DENY_CNT : Fld := ⟨0x8850, 0, 32, 4, 0, 1, .ro, true, 0x0, 0x0⟩
def link0_COLL_DONE_CNT : Fld := ⟨0x8854, 0, 32, 4, 0, 1, .ro, true, 0x0, 0x0⟩
def link0_COLL_FAIL_CNT : Fld := ⟨0x8858, 0, 32, 4, 0, 1, .ro, true, 0x0, 0x0⟩
def link0_COLL_RETX_CNT : Fld := ⟨0x885C, 0, 32, 4, 0, 1, .ro, true, 0x0, 0x0⟩
def link0_SYS_CNT_CLR : Fld := ⟨0x8860, 0, 1, 4, 0, 1, .wo, true, 0x0, 0x0⟩

/-- The fields of the system link registers, in the block of port 0 block. -/
def link0Flds : List Fld :=
  [link0_TOPO_EN, link0_DIM_X, link0_DIM_Y, link0_DIM_Z, link0_COORD_X, link0_COORD_Y, link0_COORD_Z,
   link0_COLL_INFLIGHT, link0_REMOTE_TMO, link0_REACH, link0_OUT_EN, link0_OUT_SLOT, link0_OUT_CTX_MASK,
   link0_WB_BASE, link0_WB_LIMIT, link0_DW_EN, link0_PERM_R, link0_PERM_W, link0_DW_BUSY, link0_DW_CTX,
   link0_DW_SECURE, link0_DW_SLOT, link0_DW_PEERS, link0_GCM_FAIL_CNT, link0_REPLAY_REJ_CNT,
   link0_REMOTE_TMO_CNT, link0_LATE_RESP_CNT, link0_WIN_DENY_CNT, link0_COLL_DONE_CNT, link0_COLL_FAIL_CNT,
   link0_COLL_RETX_CNT, link0_SYS_CNT_CLR]

/-! ### dictionary mirror (Table 13.9) -/

def dictm_DM_REV : Fld := ⟨0x0, 0, 8, 4, 0, 1, .ro, false, 0x10, 0x10⟩
def dictm_DM_READY : Fld := ⟨0x4, 0, 1, 4, 0, 1, .ro, false, 0x0, 0x0⟩
def dictm_SNAP_EN : Fld := ⟨0x8, 0, 1, 4, 0, 1, .rw, true, 0x1, 0x1⟩
def dictm_SNAP_PERIOD_MS : Fld := ⟨0x8, 8, 8, 4, 0, 1, .rw, true, 0xA, 0xA⟩

/-- The fields of the dictionary mirror block. -/
def dictmFlds : List Fld :=
  [dictm_DM_REV, dictm_DM_READY, dictm_SNAP_EN, dictm_SNAP_PERIOD_MS]

/-! ### Rime (Tables 14.10, 14.11) -/

def rime_RIME_REV : Fld := ⟨0x0, 0, 8, 4, 0, 1, .ro, false, 0x10, 0x10⟩
def rime_STREAMS_M1 : Fld := ⟨0x0, 8, 4, 4, 0, 1, .ro, false, 0xF, 0xF⟩
def rime_RUN : Fld := ⟨0x4, 0, 1, 4, 0, 1, .ro, false, 0x0, 0x0⟩
def rime_FAULT_OUT : Fld := ⟨0x4, 1, 1, 4, 0, 1, .ro, false, 0x1, 0x1⟩
def rime_SAFE_OUT : Fld := ⟨0x4, 2, 1, 4, 0, 1, .ro, false, 0x0, 0x0⟩
def rime_WO_BUSY : Fld := ⟨0x4, 3, 1, 4, 0, 1, .ro, false, 0x0, 0x0⟩
def rime_PUB_PEND : Fld := ⟨0x4, 4, 5, 4, 0, 1, .ro, false, 0x0, 0x0⟩
def rime_LOCKSTEP : Fld := ⟨0x8, 0, 1, 4, 0, 1, .ro, false, 0x0, 0x0⟩
def rime_CAUSE : Fld := ⟨0x8, 1, 6, 4, 0, 1, .rw1c, false, 0x0, 0x0⟩
def rime_RIME_RESET : Fld := ⟨0x8, 7, 1, 4, 0, 1, .ro, false, 0x0, 0x0⟩
def rime_FMASK : Fld := ⟨0xC, 0, 7, 4, 0, 1, .rw, true, 0x3F, 0x3F⟩
def rime_SMASK : Fld := ⟨0x10, 0, 7, 4, 0, 1, .rw, true, 0x7, 0x7⟩
def rime_SAMPLE_SHIFT : Fld := ⟨0x14, 0, 4, 4, 0, 1, .rw, true, 0x6, 0x6⟩
def rime_READBACK_EN : Fld := ⟨0x14, 4, 1, 4, 0, 1, .rw, true, 0x1, 0x1⟩
def rime_PAIR_EN : Fld := ⟨0x14, 5, 1, 4, 0, 1, .rw, true, 0x1, 0x1⟩
def rime_PAIR_WIN_US : Fld := ⟨0x14, 16, 16, 4, 0, 1, .rw, true, 0x7D0, 0x7D0⟩
def rime_HB_TMO_US : Fld := ⟨0x18, 0, 20, 4, 0, 1, .rw, true, 0x2710, 0x2710⟩
def rime_KICK : Fld := ⟨0x1C, 0, 32, 4, 0, 1, .wo, true, 0x0, 0x0⟩
def rime_RIME_PEER_EN : Fld := ⟨0x20, 0, 1, 4, 0, 1, .rw, true, 0x0, 0x0⟩
def rime_RIME_SLOT : Fld := ⟨0x20, 8, 8, 4, 0, 1, .rw, true, 0x0, 0x0⟩
def rime_SILENT : Fld := ⟨0x28, 0, 64, 8, 0, 1, .rw1c, false, 0x0, 0x0⟩
def rime_RSP : Fld := ⟨0x140, 0, 256, 4, 0, 1, .ro, true, 0x0, 0x0⟩
def rime_REQ_ID : Fld := ⟨0x160, 0, 32, 4, 0, 1, .wo, true, 0x0, 0x0⟩
def rime_ST_EN : Fld := ⟨0x200, 0, 1, 4, 0, 1, .rw, true, 0x1, 0x1⟩
def rime_ST_MAX_S : Fld := ⟨0x200, 8, 24, 4, 0, 1, .rw, true, 0xE10, 0xE10⟩
def rime_REQ_CLUSTER : Fld := ⟨0x204, 0, 5, 4, 0, 1, .rw, true, 0x0, 0x0⟩
def rime_DRAIN : Fld := ⟨0x204, 5, 1, 4, 0, 1, .rw, true, 0x0, 0x0⟩
def rime_RELEASE : Fld := ⟨0x204, 6, 1, 4, 0, 1, .rw, true, 0x0, 0x0⟩
def rime_GO : Fld := ⟨0x204, 7, 1, 4, 0, 1, .wo, true, 0x0, 0x0⟩
def rime_SLICE_BUSY : Fld := ⟨0x208, 0, 1, 4, 0, 1, .ro, false, 0x0, 0x0⟩
def rime_SLICE_CLUSTER : Fld := ⟨0x208, 1, 5, 4, 0, 1, .ro, false, 0x0, 0x0⟩
def rime_SLICE_NUM : Fld := ⟨0x208, 6, 5, 4, 0, 1, .ro, false, 0x0, 0x0⟩
def rime_REQ_PENDING : Fld := ⟨0x208, 11, 1, 4, 0, 1, .ro, false, 0x0, 0x0⟩
def rime_WIN_EN : Fld := ⟨0x210, 0, 1, 4, 128, 4, .rw, true, 0x0, 0x0⟩
def rime_WIN_PERIOD_US : Fld := ⟨0x214, 0, 32, 4, 128, 4, .rw, true, 0x0, 0x0⟩
def rime_OFFSET_US : Fld := ⟨0x218, 0, 32, 4, 128, 4, .rw, true, 0x0, 0x0⟩
def rime_LEN_US : Fld := ⟨0x21C, 0, 32, 4, 128, 4, .rw, true, 0x0, 0x0⟩
def rime_NEXT_SLICE : Fld := ⟨0x400, 0, 5, 4, 64, 32, .ro, false, 0x0, 0x0⟩
def rime_PASS : Fld := ⟨0x400, 5, 1, 4, 64, 32, .ro, false, 0x0, 0x0⟩
def rime_FAIL : Fld := ⟨0x400, 6, 1, 4, 64, 32, .ro, false, 0x0, 0x0⟩
def rime_OVERDUE : Fld := ⟨0x400, 7, 1, 4, 64, 32, .ro, false, 0x0, 0x0⟩
def rime_LAST_FULL_S : Fld := ⟨0x404, 0, 32, 4, 64, 32, .ro, false, 0x0, 0x0⟩
def rime_CHECK_POST_CNT : Fld := ⟨0x40, 0, 32, 4, 0, 1, .ro, false, 0x0, 0x0⟩
def rime_READBACK_CNT : Fld := ⟨0x44, 0, 32, 4, 0, 1, .ro, false, 0x0, 0x0⟩
def rime_RB_MISMATCH_CNT : Fld := ⟨0x48, 0, 32, 4, 0, 1, .ro, false, 0x0, 0x0⟩
def rime_PAIR_CNT : Fld := ⟨0x4C, 0, 32, 4, 0, 1, .ro, false, 0x0, 0x0⟩
def rime_PAIR_MISMATCH_CNT : Fld := ⟨0x50, 0, 32, 4, 0, 1, .ro, false, 0x0, 0x0⟩
def rime_PAIR_ORPHAN_CNT : Fld := ⟨0x54, 0, 32, 4, 0, 1, .ro, false, 0x0, 0x0⟩
def rime_POST_DROP_CNT : Fld := ⟨0x58, 0, 32, 4, 0, 1, .ro, false, 0x0, 0x0⟩
def rime_CHECK_SKIP_CNT : Fld := ⟨0x5C, 0, 32, 4, 0, 1, .ro, false, 0x0, 0x0⟩
def rime_HB_MISS_CNT : Fld := ⟨0x60, 0, 32, 4, 0, 1, .ro, false, 0x0, 0x0⟩
def rime_ST_SLICE_CNT : Fld := ⟨0x64, 0, 32, 4, 0, 1, .ro, false, 0x0, 0x0⟩
def rime_ST_DEFER_CNT : Fld := ⟨0x68, 0, 32, 4, 0, 1, .ro, false, 0x0, 0x0⟩
def rime_WO_RUN_CNT : Fld := ⟨0x6C, 0, 32, 4, 0, 1, .ro, false, 0x0, 0x0⟩
def rime_WO_SKIP_CNT : Fld := ⟨0x70, 0, 32, 4, 0, 1, .ro, false, 0x0, 0x0⟩
def rime_CNT_CLR : Fld := ⟨0x80, 0, 1, 4, 0, 1, .wo, false, 0x0, 0x0⟩
def rime_STR_EN : Fld := ⟨0x1000, 0, 1, 4, 512, 16, .rw, true, 0x0, 0x0⟩
def rime_KIND : Fld := ⟨0x1000, 1, 1, 4, 512, 16, .rw, true, 0x0, 0x0⟩
def rime_CHECK_CTX : Fld := ⟨0x1000, 2, 4, 4, 512, 16, .rw, true, 0x0, 0x0⟩
def rime_PUB_CH : Fld := ⟨0x1000, 6, 1, 4, 512, 16, .rw, true, 0x0, 0x0⟩
def rime_MIS_N : Fld := ⟨0x1000, 8, 8, 4, 512, 16, .rw, true, 0x1, 0x1⟩
def rime_MIS_M : Fld := ⟨0x1000, 16, 8, 4, 512, 16, .rw, true, 0x1, 0x1⟩
def rime_PUB_OFF : Fld := ⟨0x1004, 0, 32, 4, 512, 16, .rw, true, 0x0, 0x0⟩
def rime_WO_OFF : Fld := ⟨0x1008, 0, 32, 4, 512, 16, .rw, true, 0x0, 0x0⟩
def rime_MAX_AGE_US : Fld := ⟨0x100C, 0, 32, 4, 512, 16, .rw, true, 0xEA60, 0xEA60⟩
def rime_STR_PERIOD_US : Fld := ⟨0x1010, 0, 32, 4, 512, 16, .rw, true, 0xC350, 0xC350⟩
def rime_WIN_COUNT : Fld := ⟨0x1014, 0, 8, 4, 512, 16, .ro, false, 0x0, 0x0⟩
def rime_PERSIST : Fld := ⟨0x1014, 8, 1, 4, 512, 16, .rw1c, true, 0x0, 0x0⟩
def rime_PUB_CNT : Fld := ⟨0x1018, 0, 32, 4, 512, 16, .ro, false, 0x0, 0x0⟩
def rime_FALLBACK_CNT : Fld := ⟨0x101C, 0, 32, 4, 512, 16, .ro, false, 0x0, 0x0⟩
def rime_LATE_CNT : Fld := ⟨0x1020, 0, 32, 4, 512, 16, .ro, false, 0x0, 0x0⟩
def rime_DEADLINE_CNT : Fld := ⟨0x1024, 0, 32, 4, 512, 16, .ro, false, 0x0, 0x0⟩
def rime_STALE_CNT : Fld := ⟨0x1028, 0, 32, 4, 512, 16, .ro, false, 0x0, 0x0⟩

/-- The fields of the Rime block, part 0. -/
def rimeFlds0 : List Fld :=
  [rime_RIME_REV, rime_STREAMS_M1, rime_RUN, rime_FAULT_OUT, rime_SAFE_OUT, rime_WO_BUSY, rime_PUB_PEND,
   rime_LOCKSTEP, rime_CAUSE, rime_RIME_RESET, rime_FMASK, rime_SMASK, rime_SAMPLE_SHIFT, rime_READBACK_EN,
   rime_PAIR_EN, rime_PAIR_WIN_US, rime_HB_TMO_US, rime_KICK, rime_RIME_PEER_EN, rime_RIME_SLOT, rime_SILENT,
   rime_RSP, rime_REQ_ID, rime_ST_EN, rime_ST_MAX_S, rime_REQ_CLUSTER, rime_DRAIN, rime_RELEASE, rime_GO,
   rime_SLICE_BUSY, rime_SLICE_CLUSTER, rime_SLICE_NUM, rime_REQ_PENDING, rime_WIN_EN, rime_WIN_PERIOD_US,
   rime_OFFSET_US, rime_LEN_US, rime_NEXT_SLICE, rime_PASS, rime_FAIL]

/-- The fields of the Rime block, part 1. -/
def rimeFlds1 : List Fld :=
  [rime_OVERDUE, rime_LAST_FULL_S, rime_CHECK_POST_CNT, rime_READBACK_CNT, rime_RB_MISMATCH_CNT,
   rime_PAIR_CNT, rime_PAIR_MISMATCH_CNT, rime_PAIR_ORPHAN_CNT, rime_POST_DROP_CNT, rime_CHECK_SKIP_CNT,
   rime_HB_MISS_CNT, rime_ST_SLICE_CNT, rime_ST_DEFER_CNT, rime_WO_RUN_CNT, rime_WO_SKIP_CNT, rime_CNT_CLR,
   rime_STR_EN, rime_KIND, rime_CHECK_CTX, rime_PUB_CH, rime_MIS_N, rime_MIS_M, rime_PUB_OFF, rime_WO_OFF,
   rime_MAX_AGE_US, rime_STR_PERIOD_US, rime_WIN_COUNT, rime_PERSIST, rime_PUB_CNT, rime_FALLBACK_CNT,
   rime_LATE_CNT, rime_DEADLINE_CNT, rime_STALE_CNT]

/-- The fields of the Rime block. -/
def rimeFlds : List Fld := rimeFlds0 ++ rimeFlds1

/-! ### security engine (Table 15.9) -/

def sec_SEC_REV : Fld := ⟨0x0, 0, 8, 4, 0, 1, .ro, true, 0x10, 0x10⟩
def sec_DRBG_OK : Fld := ⟨0x4, 0, 1, 4, 0, 1, .ro, true, 0x0, 0x0⟩
def sec_CMD_BUSY : Fld := ⟨0x4, 1, 1, 4, 0, 1, .ro, true, 0x0, 0x0⟩
def sec_ID_READY : Fld := ⟨0x4, 2, 1, 4, 0, 1, .ro, true, 0x0, 0x0⟩
def sec_BOOT_STEP : Fld := ⟨0x8, 0, 4, 4, 0, 1, .ro, true, 0x0, 0x0⟩
def sec_BOOT_SET : Fld := ⟨0x8, 4, 1, 4, 0, 1, .ro, true, 0x0, 0x0⟩
def sec_BOOT_CAUSE : Fld := ⟨0x8, 16, 16, 4, 0, 1, .ro, true, 0x0, 0x0⟩
def sec_LIFECYCLE : Fld := ⟨0xC, 0, 2, 4, 0, 1, .ro, true, 0x0, 0x0⟩ -- (fused: read from the fuses)
def sec_ROOT_REVOKE : Fld := ⟨0xC, 2, 4, 4, 0, 1, .ro, true, 0x0, 0x0⟩ -- (fused: read from the fuses)
def sec_SVN_MIN : Fld := ⟨0xC, 8, 7, 4, 0, 1, .ro, true, 0x0, 0x0⟩ -- (fused: read from the fuses)
def sec_ID_EPOCH : Fld := ⟨0xC, 16, 8, 4, 0, 1, .ro, true, 0x0, 0x0⟩ -- (fused: read from the fuses)
def sec_SEC_OP : Fld := ⟨0x10, 0, 4, 4, 0, 1, .wo, true, 0x0, 0x0⟩
def sec_SEC_ARG : Fld := ⟨0x10, 4, 7, 4, 0, 1, .wo, true, 0x0, 0x0⟩
def sec_SEC_KEY : Fld := ⟨0x10, 16, 16, 4, 0, 1, .wo, true, 0x0, 0x0⟩
def sec_SEC_RESULT : Fld := ⟨0x14, 0, 16, 4, 0, 1, .ro, true, 0x0, 0x0⟩
def sec_ID_NEXT_FREE : Fld := ⟨0x20, 0, 32, 4, 0, 1, .ro, true, 0x0, 0x0⟩
def sec_ID_NEXT_LEAF : Fld := ⟨0x24, 0, 32, 4, 0, 1, .ro, true, 0x0, 0x0⟩
def sec_ID_SIGNED : Fld := ⟨0x28, 0, 32, 4, 0, 1, .ro, true, 0x0, 0x0⟩
def sec_CK_CTX : Fld := ⟨0x40, 0, 4, 4, 0, 1, .rw, true, 0x0, 0x0⟩
def sec_CK_GO : Fld := ⟨0x40, 4, 1, 4, 0, 1, .wo, true, 0x0, 0x0⟩
def sec_KEY_GEN : Fld := ⟨0x50, 0, 8, 4, 8, 16, .ro, true, 0x0, 0x0⟩
def sec_JK_SLOT : Fld := ⟨0x60, 0, 8, 4, 0, 1, .rw, true, 0x0, 0x0⟩
def sec_JK_OP : Fld := ⟨0x60, 8, 2, 4, 0, 1, .rw, true, 0x0, 0x0⟩
def sec_JK_GO : Fld := ⟨0x60, 31, 1, 4, 0, 1, .wo, true, 0x0, 0x0⟩
def sec_JK_STATUS : Fld := ⟨0x64, 0, 16, 4, 0, 1, .ro, true, 0x0, 0x0⟩
def sec_SEC_WORLD_CNT : Fld := ⟨0xC0, 0, 32, 4, 0, 1, .ro, true, 0x0, 0x0⟩
def sec_UNWRAP_FAIL_CNT : Fld := ⟨0xC4, 0, 32, 4, 0, 1, .ro, true, 0x0, 0x0⟩
def sec_ENTROPY_FAIL_CNT : Fld := ⟨0xC8, 0, 32, 4, 0, 1, .ro, true, 0x0, 0x0⟩
def sec_SLOT_CMD_REJ_CNT : Fld := ⟨0xCC, 0, 32, 4, 0, 1, .ro, true, 0x0, 0x0⟩
def sec_CNT_CLR : Fld := ⟨0xE0, 0, 1, 4, 0, 1, .wo, true, 0x0, 0x0⟩
def sec_MEAS : Fld := ⟨0x100, 0, 32, 4, 32, 32, .ro, true, 0x0, 0x0⟩
def sec_JK_STATE : Fld := ⟨0x200, 0, 2, 4, 2, 256, .ro, true, 0x0, 0x0⟩
def sec_JK_PEERS : Fld := ⟨0x800, 0, 64, 8, 64, 256, .ro, true, 0x0, 0x0⟩

/-- The fields of the security engine block. -/
def secFlds : List Fld :=
  [sec_SEC_REV, sec_DRBG_OK, sec_CMD_BUSY, sec_ID_READY, sec_BOOT_STEP, sec_BOOT_SET, sec_BOOT_CAUSE,
   sec_LIFECYCLE, sec_ROOT_REVOKE, sec_SVN_MIN, sec_ID_EPOCH, sec_SEC_OP, sec_SEC_ARG, sec_SEC_KEY,
   sec_SEC_RESULT, sec_ID_NEXT_FREE, sec_ID_NEXT_LEAF, sec_ID_SIGNED, sec_CK_CTX, sec_CK_GO, sec_KEY_GEN,
   sec_JK_SLOT, sec_JK_OP, sec_JK_GO, sec_JK_STATUS, sec_SEC_WORLD_CNT, sec_UNWRAP_FAIL_CNT,
   sec_ENTROPY_FAIL_CNT, sec_SLOT_CMD_REJ_CNT, sec_CNT_CLR, sec_MEAS, sec_JK_STATE, sec_JK_PEERS]

/-! ### power, clock and Creep (Table 16.9) -/

def pcc_PCC_REV : Fld := ⟨0x0, 0, 8, 4, 0, 1, .ro, false, 0x10, 0x10⟩
def pcc_DOMAINS_M1 : Fld := ⟨0x0, 8, 6, 4, 0, 1, .ro, false, 0x3E, 0x3E⟩
def pcc_PWR_ON : Fld := ⟨0x8, 0, 64, 8, 0, 1, .ro, false, 0xD000000000000000, 0xD000000000000000⟩
def pcc_PWR_DOM : Fld := ⟨0x10, 0, 6, 4, 0, 1, .rw, true, 0x0, 0x0⟩
def pcc_PWR_ON_REQ : Fld := ⟨0x10, 6, 1, 4, 0, 1, .rw, true, 0x0, 0x0⟩
def pcc_PWR_GO : Fld := ⟨0x10, 31, 1, 4, 0, 1, .wo, true, 0x0, 0x0⟩
def pcc_PWR_STATUS : Fld := ⟨0x14, 0, 16, 4, 0, 1, .ro, true, 0x0, 0x0⟩
def pcc_PWR_RES_DOM : Fld := ⟨0x14, 16, 6, 4, 0, 1, .ro, true, 0x0, 0x0⟩
def pcc_PWR_REASON : Fld := ⟨0x14, 22, 3, 4, 0, 1, .ro, true, 0x0, 0x0⟩
def pcc_PWR_BUSY : Fld := ⟨0x14, 30, 1, 4, 0, 1, .ro, true, 0x0, 0x0⟩
def pcc_PWR_DONE : Fld := ⟨0x14, 31, 1, 4, 0, 1, .rw1c, true, 0x0, 0x0⟩
def pcc_ARITH_LOCK : Fld := ⟨0x20, 0, 8, 4, 0, 1, .ro, false, 0x0, 0x0⟩
def pcc_FABRIC_LOCK : Fld := ⟨0x20, 8, 1, 4, 0, 1, .ro, false, 0x0, 0x0⟩
def pcc_VAULT_LOCK : Fld := ⟨0x20, 9, 1, 4, 0, 1, .ro, false, 0x0, 0x0⟩
def pcc_MGMT_LOCK : Fld := ⟨0x20, 10, 1, 4, 0, 1, .ro, false, 0x0, 0x0⟩
def pcc_REFCLK_OK : Fld := ⟨0x20, 11, 1, 4, 0, 1, .ro, false, 0x0, 0x0⟩
def pcc_PORT_LOCK : Fld := ⟨0x20, 12, 6, 4, 0, 1, .ro, false, 0x0, 0x0⟩
def pcc_WARN_C : Fld := ⟨0x30, 0, 8, 4, 0, 1, .rw, true, 0x73, 0x73⟩ -- (grade S: 0x5F)
def pcc_THROTTLE_C : Fld := ⟨0x30, 8, 8, 4, 0, 1, .rw, true, 0x78, 0x78⟩ -- (grade S: 0x64)
def pcc_THROTTLE_EN : Fld := ⟨0x30, 16, 1, 4, 0, 1, .rw, true, 0x1, 0x1⟩
def pcc_GUARD_MV : Fld := ⟨0x34, 0, 8, 4, 0, 1, .rw, true, 0x19, 0x19⟩
def pcc_HEADROOM_THRESH_MV : Fld := ⟨0x34, 8, 8, 4, 0, 1, .rw, true, 0x14, 0x14⟩
def pcc_INTERVAL_H : Fld := ⟨0x34, 16, 8, 4, 0, 1, .rw, true, 0x18, 0x18⟩
def pcc_CREEP_EN : Fld := ⟨0x34, 24, 1, 4, 0, 1, .rw, true, 0x1, 0x1⟩
def pcc_REQ_REGION : Fld := ⟨0x38, 0, 3, 4, 0, 1, .rw, true, 0x0, 0x0⟩
def pcc_REQ_DRAIN : Fld := ⟨0x38, 3, 1, 4, 0, 1, .rw, true, 0x0, 0x0⟩
def pcc_REQ_GO : Fld := ⟨0x38, 7, 1, 4, 0, 1, .wo, true, 0x0, 0x0⟩
def pcc_POWERED_S : Fld := ⟨0x40, 0, 64, 8, 0, 1, .ro, false, 0x0, 0x0⟩
def pcc_VTGT_MV : Fld := ⟨0x100, 0, 10, 4, 128, 8, .ro, false, 0x28A, 0x28A⟩
def pcc_VMEAS_MV : Fld := ⟨0x100, 10, 10, 4, 128, 8, .ro, false, 0x0, 0x0⟩
def pcc_VWIN_OK : Fld := ⟨0x100, 20, 1, 4, 128, 8, .ro, false, 0x0, 0x0⟩
def pcc_THROTTLED : Fld := ⟨0x100, 21, 1, 4, 128, 8, .ro, false, 0x0, 0x0⟩
def pcc_ARITH_100 : Fld := ⟨0x100, 22, 1, 4, 128, 8, .ro, false, 0x0, 0x0⟩
def pcc_AVS_PENDING : Fld := ⟨0x100, 23, 1, 4, 128, 8, .ro, false, 0x0, 0x0⟩
def pcc_TJ : Fld := ⟨0x104, 0, 12, 4, 128, 8, .ro, false, 0x0, 0x0⟩
def pcc_TJ_MAX : Fld := ⟨0x104, 12, 12, 4, 128, 8, .ro, false, 0x800, 0x800⟩
def pcc_VMIN_MV : Fld := ⟨0x108, 0, 10, 4, 128, 8, .ro, false, 0x0, 0x0⟩
def pcc_HEADROOM_MV : Fld := ⟨0x108, 10, 8, 4, 128, 8, .ro, false, 0x0, 0x0⟩
def pcc_HEADROOM_LOW : Fld := ⟨0x108, 18, 1, 4, 128, 8, .ro, false, 0x0, 0x0⟩
def pcc_MEAS_BUSY : Fld := ⟨0x108, 19, 1, 4, 128, 8, .ro, false, 0x0, 0x0⟩
def pcc_MEAS_DUE : Fld := ⟨0x108, 20, 1, 4, 128, 8, .ro, false, 0x0, 0x0⟩
def pcc_MEAS_OVERDUE : Fld := ⟨0x108, 21, 1, 4, 128, 8, .ro, false, 0x0, 0x0⟩
def pcc_EXHAUSTED : Fld := ⟨0x108, 22, 1, 4, 128, 8, .ro, false, 0x0, 0x0⟩
def pcc_LAST_MEAS_S : Fld := ⟨0x10C, 0, 32, 4, 128, 8, .ro, false, 0x0, 0x0⟩
def pcc_VLT_TEMP : Fld := ⟨0x200, 0, 8, 4, 32, 8, .ro, false, 0x0, 0x0⟩
def pcc_HOT_TIER : Fld := ⟨0x200, 8, 2, 4, 32, 8, .ro, false, 0x0, 0x0⟩
def pcc_PWR_REFUSE_CNT : Fld := ⟨0x300, 0, 32, 4, 0, 1, .ro, false, 0x0, 0x0⟩
def pcc_PLL_UNLOCK_CNT : Fld := ⟨0x304, 0, 32, 4, 0, 1, .ro, false, 0x0, 0x0⟩
def pcc_VWIN_CNT : Fld := ⟨0x308, 0, 32, 4, 0, 1, .ro, false, 0x0, 0x0⟩
def pcc_THROTTLE_CNT : Fld := ⟨0x30C, 0, 32, 4, 0, 1, .ro, false, 0x0, 0x0⟩
def pcc_AVS_RETRY_CNT : Fld := ⟨0x310, 0, 32, 4, 0, 1, .ro, false, 0x0, 0x0⟩
def pcc_CREEP_MEAS_CNT : Fld := ⟨0x314, 0, 32, 4, 0, 1, .ro, false, 0x0, 0x0⟩
def pcc_CREEP_DEFER_CNT : Fld := ⟨0x318, 0, 32, 4, 0, 1, .ro, false, 0x0, 0x0⟩
def pcc_CNT_CLR : Fld := ⟨0x320, 0, 1, 4, 0, 1, .wo, false, 0x0, 0x0⟩

/-- The fields of the power, clock and Creep block, part 0. -/
def pccFlds0 : List Fld :=
  [pcc_PCC_REV, pcc_DOMAINS_M1, pcc_PWR_ON, pcc_PWR_DOM, pcc_PWR_ON_REQ, pcc_PWR_GO, pcc_PWR_STATUS,
   pcc_PWR_RES_DOM, pcc_PWR_REASON, pcc_PWR_BUSY, pcc_PWR_DONE, pcc_ARITH_LOCK, pcc_FABRIC_LOCK,
   pcc_VAULT_LOCK, pcc_MGMT_LOCK, pcc_REFCLK_OK, pcc_PORT_LOCK, pcc_WARN_C, pcc_THROTTLE_C, pcc_THROTTLE_EN,
   pcc_GUARD_MV, pcc_HEADROOM_THRESH_MV, pcc_INTERVAL_H, pcc_CREEP_EN, pcc_REQ_REGION, pcc_REQ_DRAIN,
   pcc_REQ_GO, pcc_POWERED_S, pcc_VTGT_MV, pcc_VMEAS_MV, pcc_VWIN_OK, pcc_THROTTLED, pcc_ARITH_100,
   pcc_AVS_PENDING, pcc_TJ, pcc_TJ_MAX, pcc_VMIN_MV, pcc_HEADROOM_MV, pcc_HEADROOM_LOW, pcc_MEAS_BUSY]

/-- The fields of the power, clock and Creep block, part 1. -/
def pccFlds1 : List Fld :=
  [pcc_MEAS_DUE, pcc_MEAS_OVERDUE, pcc_EXHAUSTED, pcc_LAST_MEAS_S, pcc_VLT_TEMP, pcc_HOT_TIER,
   pcc_PWR_REFUSE_CNT, pcc_PLL_UNLOCK_CNT, pcc_VWIN_CNT, pcc_THROTTLE_CNT, pcc_AVS_RETRY_CNT,
   pcc_CREEP_MEAS_CNT, pcc_CREEP_DEFER_CNT, pcc_CNT_CLR]

/-- The fields of the power, clock and Creep block. -/
def pccFlds : List Fld := pccFlds0 ++ pccFlds1

end F

end Sys2Proof.Machine
end

