-- ==== Sys2Proof/Machine/State.lean ====
section
/-!
DEFINITION. The state of the block: every register, memory, queue, buffer and mode the spec names, as plain data.
Register fields live in one sparse file (`Dev.regs`), keyed by their device physical bit address, with the reset
values of the register tables standing for what is not listed.
Choices of the model: log entries 2, 3, 83, 137, 158, 199, 208, 213.
-/

namespace Sys2Proof.Machine

/-! ### Memories and the symbol code -/

/-- The symbols of a stored codeword that differ from the correct codeword: (symbol number, difference), numbers
rising, no zero difference (R234, R235). Symbol numbers of a 34-symbol sector: 0–31 data bytes, 32 is P1, 33 is P0. -/
abbrev ErrPat := List (Nat × Nat)

/-- One stored DRAM line (R232, R233, R238, R239). The 80 stored bytes are `Line.stored` of it: the plaintext and the
context, key, key generation and address determine the ciphertext, check symbols, tag and attribute word. -/
structure Line where
  /-- the 64 data bytes as written -/
  data : Bytes
  /-- CTX of the attribute word (Table 8.3) -/
  ctx : Nat
  /-- ZERO -/
  zero : Bool
  /-- POISON -/
  poison : Bool
  /-- KEY_GEN -/
  gen : Nat
  /-- which key of the context encrypted and tagged the line (R238, R239) -/
  key : Nat
  /-- the device physical address the data-unit number and the tag were made with -/
  pa : Nat
  /-- differences of the 80 stored bytes from what was written (Table 8.2) -/
  err : ErrPat
  deriving DecidableEq, Repr

/-- One vault controller's state beyond its registers (R246–R250). -/
structure Vault where
  /-- INIT has run: an unlisted line is a ZERO line, otherwise it holds arbitrary bits (R250) -/
  zeroed : Bool := false
  /-- line number the scrubber reads next (R246) -/
  scrubNext : Nat := 0
  /-- corrections of this pass by pseudo-channel × 640 + lane (R247) -/
  laneCnt : Tab Nat := []
  /-- tiers in self-refresh (R249) -/
  selfRefresh : Bool := false
  /-- context the arbiter visits and the grants left of its round (R248) -/
  rrCtx : Nat := 0
  rrLeft : Nat := 0
  deriving DecidableEq, Repr

/-! ### Events (R55–R58) -/

/-- An event record before its EFLAGS LOST bit and ESEQ are set (Table 1.9). -/
structure Ev where
  time : Nat
  cls : Nat
  inst : Nat
  status : Nat
  ctx : Nat
  secure : Bool
  detail : Bytes
  deriving DecidableEq, Repr

/-- A record of the event queue or log: the event with LOST and its sequence number. -/
structure EvRec where
  ev : Ev
  lost : Bool
  seq : Nat
  deriving DecidableEq, Repr

/-! ### Tags and fabric accesses (R46–R49, R276) -/

/-- Owners of transaction tags (Table 1.6). -/
inductive Owner where
  | vault (v : Nat)
  | port (p : Nat)
  | engine (f : Nat)
  deriving DecidableEq, Repr

/-- The WR_ACK that a peer's write is owed once it has retired (R345): source, slot, the source's TAG, RSTAT. -/
structure AckDue where
  src : Nat
  slot : Nat
  tag : Nat
  rstat : Nat
  deriving DecidableEq, Repr

/-- A transaction tag in use: its owner, its number, the context and stream of the operation, the virtual channel for
a link tag, and what waits on it (a DRAM window, an invalidation, an answer, a stub). -/
structure Tag where
  owner : Owner
  id : Nat
  ctx : Nat
  sid : Nat
  vc : Nat := 0
  /-- virtual address the access was translated from, none where it was not (R267) -/
  va : Option Nat := none
  /-- DRAM window held busy (R344) -/
  dramWin : Option Nat := none
  /-- a running invalidation waits for it (R267) -/
  inv : Bool := false
  /-- the answer a peer's write is owed once no tag of it is left (R345) -/
  ack : Option AckDue := none
  /-- a forwarded Moraine message: its table and the package it goes to (R199) -/
  fwd : Option (Nat × Nat) := none
  deriving DecidableEq, Repr

/-- One fabric access (R276, R479): stream, context, world, address, direction, size, write data with its byte
enables and poison. -/
structure Req where
  sid : Nat
  ctx : Nat
  secure : Bool
  pa : Nat
  wr : Bool
  size : Nat
  data : Bytes := []
  poison : Bool := false
  /-- the access is made for an engine or block inside another operation, whose own tag covers it -/
  inner : Bool := false
  /-- the virtual address it was translated from -/
  va : Option Nat := none
  deriving DecidableEq, Repr

/-- What a fabric access answers: data, poison, and the status the operation reports (0 when admitted). -/
structure Rsp where
  data : Bytes
  poison : Bool
  status : Nat := 0
  /-- DETAIL of that status: VA[47:16] or PA[47:16] (Table 9.7) -/
  detail : Nat := 0
  deriving DecidableEq, Repr

/-- A translation or access fault an operation met: status, DETAIL, virtual address (R268, R283). -/
structure Xl where
  status : Nat
  detail : Nat
  va : Nat
  deriving DecidableEq, Repr

/-! ### Cores (R93–R116) -/

/-- State of an entry of a core queue that is not FREE and not DONE (Table 3.6). -/
inductive QState where
  | queued | issued | stolen
  deriving DecidableEq, Repr

/-- What a descriptor has met so far (R77, R99, R103): arithmetic flags, statuses with their DETAIL in the order they
were met, poisoned granules read, and indices at or above ROW_LIMIT. -/
structure Result where
  flags : Nat := 0
  met : List (Nat × Nat) := []
  /-- poisoned granules read, and the first of them -/
  pois : Nat := 0
  poisFirst : Nat := 0
  /-- indices at or above ROW_LIMIT (R92) -/
  oor : Nat := 0
  deriving DecidableEq, Repr

/-- What two parts of one execution have met. -/
def Result.join (a b : Result) : Result :=
  { flags := Nat.lor a.flags b.flags, met := a.met ++ b.met, pois := a.pois + b.pois, oor := a.oor + b.oor
    poisFirst := if a.pois = 0 then b.poisFirst else if b.pois = 0 then a.poisFirst else min a.poisFirst b.poisFirst }

/-- A check post of a core (R398, Table 14.5), before it has reached Rime: the core that executed it, the core whose
scratchpad holds the tile and the entry there, and the fields of the record. -/
structure Post where
  exec : Nat
  home : Nat
  slot : Nat
  ctxTag : Nat
  gran : Nat
  lenG : Nat
  /-- bytes of the tile -/
  len : Nat
  ord : Nat
  crc : Nat
  time : Nat
  deriving DecidableEq, Repr

/-- An entry of a core queue. -/
structure QEntry where
  slot : Nat
  desc : Desc
  st : QState
  /-- core that executes it -/
  exec : Nat
  /-- its wait condition has held at a test (R288) -/
  released : Bool := false
  /-- it holds a watch entry (R294) -/
  watching : Bool := false
  /-- its sync objects have passed admission (R291) -/
  checked : Bool := false
  /-- issued in raw mode (R110) -/
  raw : Bool := false
  /-- execution has ended -/
  done : Bool := false
  /-- what it has met -/
  res : Result := {}
  /-- parked on a translation fault (R268) -/
  parked : Bool := false
  /-- recorded point it restarts at (Table 9.4) -/
  point : Nat := 0
  /-- posts of it that Rime holds for read-back (R399) -/
  held : Nat := 0
  /-- the signal object failed admission, so it is not signalled (R291) -/
  sigDenied : Bool := false
  /-- its place in the order of issue -/
  issueNo : Nat := 0
  /-- the owner of its frame owned every region when it issued (R167) -/
  fpsOk : Bool := false
  /-- the host command that firmware submitted it for, 0 where there is none (R318) -/
  own : Nat := 0
  deriving DecidableEq, Repr

/-- A completion record waiting at a core (R100, R101): its slot and 16 bytes. -/
structure CplRec where
  slot : Nat
  bytes : Bytes
  /-- the host command the entry was submitted for (R318) -/
  own : Nat := 0
  deriving DecidableEq, Repr

/-- A transfer registered at a core's scoreboard (R109): engine, ring entry, its rows of granules, direction. -/
structure SbXfer where
  engine : Nat
  entry : Nat
  base : Nat
  rowG : Nat
  rows : Nat
  stride : Nat
  write : Bool
  deriving DecidableEq, Repr

/-- One core's state beyond its registers. -/
structure Core where
  /-- entries that are neither FREE nor DONE, in queue order (R95) -/
  q : List QEntry := []
  /-- completion records in completion order (R101) -/
  cpl : List CplRec := []
  /-- flow-engine transfers at the scoreboard, in order of registration (R109) -/
  sb : List SbXfer := []
  /-- microprogram words written, by offset in the UCODE window (R82) -/
  ucode : Tab Nat := []
  /-- check posts on their way to Rime, oldest first (R398) -/
  posts : List Post := []
  /-- posts this core has made, for the choice of every 2^SAMPLE_SHIFT-th (R399) -/
  postCnt : Nat := 0
  deriving DecidableEq, Repr

/-! ### Translation (R264–R267) -/

/-- A cached leaf translation. -/
structure TcEntry where
  ctx : Nat
  /-- virtual page number in 64 KiB units; a 2 MiB page is held by its first -/
  page : Nat
  /-- 2 MiB page -/
  large : Bool
  pa : Nat
  write : Bool
  deriving DecidableEq, Repr

/-- A cached level-1 entry. -/
structure L1Entry where
  ctx : Nat
  index : Nat
  large : Bool
  base : Nat
  deriving DecidableEq, Repr

/-- One translation cache: of a region (0–7), Firn (8), Moraine (9) or the management cluster (10). -/
structure TCache where
  leaf : List TcEntry := []
  l1 : List L1Entry := []
  deriving DecidableEq, Repr

/-! ### Synchronisation (R287–R305) -/

/-- A change that has reached a sync object and is not applied yet (R289): the cycle it arrived in, its stream, the
increment (none for a clear). -/
structure SyncChange where
  cycle : Nat
  sid : Nat
  incr : Option Nat
  /-- a signal that a peer has sent (R292) -/
  peer : Bool := false
  deriving DecidableEq, Repr

/-- A ring head or a core head that waits (R294). -/
inductive Waiter where
  | core (n slot : Nat)
  | ring (f : Nat)
  deriving DecidableEq, Repr

/-- A watch entry: who waits, for equality or for at least, and the value (R288, R294). -/
structure Watch where
  who : Waiter
  eq : Bool
  value : Nat
  deriving DecidableEq, Repr

/-- A mailbox slot (Table 10.3): message, sender, Varve time at which it became FULL. -/
structure MbxSlot where
  msg : Bytes
  sid : Nat
  since : Nat
  full : Bool
  /-- the interval has been reported for this message (R302) -/
  tmo : Bool := false
  deriving DecidableEq, Repr

/-! ### Flow engines (R251–R259) -/

/-- A ring entry that has started and not completed (R255). -/
structure RingRun where
  /-- free-running entry number -/
  entry : Nat
  /-- the descriptor as read from the ring -/
  desc : Bytes
  /-- device physical address of the entry in its ring -/
  pa : Nat
  /-- granules completed (R254) -/
  progress : Nat := 0
  parked : Bool := false
  /-- moved poisoned data -/
  poison : Bool := false
  /-- statuses met with their detail, in order -/
  met : List (Nat × Nat) := []
  /-- every granule has been moved, or the transfer has ended -/
  moved : Bool := false
  deriving DecidableEq, Repr

/-- One flow engine's state beyond its registers. -/
structure Engine where
  run : List RingRun := []
  /-- entries that are DONE ahead of RING_CONS (R255) -/
  doneAhead : List Nat := []
  /-- the sync objects of the ring head have passed admission (R291) -/
  headChecked : Bool := false
  /-- the ring head's wait has held (R288) -/
  headReleased : Bool := false
  /-- the ring head holds a watch entry on this object -/
  headWatch : Option Nat := none
  /-- ring head parked on its own read (R255) -/
  headParked : Bool := false
  deriving DecidableEq, Repr

/-! ### Links (R329–R351) -/

/-- A packet of Table 12.4: header, payload as carried (ciphertext unless CLEAR) and GCM tag. -/
structure Pkt where
  dst : Nat
  src : Nat
  kind : Nat
  clear : Bool := false
  escaped : Bool := false
  slot : Nat := 0
  rstat : Nat := 0
  addr : Nat := 0
  nonce : Nat := 0
  tag : Nat := 0
  pmap : Nat := 0
  payload : Bytes := []
  mac : Bytes := []
  deriving DecidableEq, Repr

/-- A flit of Table 12.2: header fields and payload. -/
structure Flit where
  ftype : Nat
  flags : Nat
  vc : Nat
  seq : Nat
  ack : Nat
  credits : Nat
  payload : Bytes
  /-- bit i: sector i of the flit is carried as the poison marker (R236) -/
  marks : Nat := 0
  deriving DecidableEq, Repr

/-- A packet waiting at an output port for credits: its header, virtual channel and class (0 or 1 dateline, 2 escape),
and what of it has still to be sent. -/
structure TxWait where
  pkt : Pkt
  vc : Nat
  cls : Nat
  /-- the port it comes in by, none for the package's own -/
  from_ : Option Nat
  /-- the class it came in by -/
  inCls : Nat := 0
  /-- payloads of the flits still to be sent, with their marked sectors -/
  data : List (Bytes × Nat) := []
  /-- further flits of it are still to come in (R337) -/
  more : Bool := false
  /-- its SOP flit has been sent -/
  started : Bool := false
  /-- it was cut short and ends with BAD_END (R333) -/
  bad : Bool := false
  /-- the link tag that a message of this package holds -/
  held : Option Nat := none
  /-- Varve time at which it was put on the port -/
  since : Nat := 0
  deriving DecidableEq, Repr

/-- A message of this package sent whole and not yet acknowledged: SEQ of its last flit, its header, its link tag. -/
structure SentMsg where
  seq : Nat
  pkt : Pkt
  held : Nat
  deriving DecidableEq, Repr

/-- A message of this package that waits for a link tag (R48): port, virtual channel, the forwarded table and package
of a Moraine message. -/
structure MsgWait where
  port : Nat
  pkt : Pkt
  vc : Nat
  fwd : Option (Nat × Nat) := none
  deriving DecidableEq, Repr

/-- A whole packet received at a port and not handled: virtual channel, class, the payloads of its flits with their
marked sectors, and whether it was cut short. -/
structure RxPkt where
  pkt : Pkt
  vc : Nat
  cls : Nat
  data : List (Bytes × Nat) := []
  bad : Bool := false
  deriving DecidableEq, Repr

/-- One link port's state beyond its registers (R331–R335). -/
structure Port where
  /-- next SEQ to send -/
  txSeq : Nat := 0
  /-- flits sent and not acknowledged, oldest first (R332) -/
  replay : List Flit := []
  /-- SEQ of the latest replay and how often it followed without progress -/
  replaySeq : Nat := 0
  replayRuns : Nat := 0
  /-- next SEQ expected -/
  rxSeq : Nat := 0
  /-- discarding until the replay arrives -/
  rxDiscard : Bool := false
  /-- RETRAIN has failed this often in a row -/
  retrainFails : Nat := 0
  /-- classes of the flits of each VC sent and not credited back, oldest first; 64 of a class at most (R335) -/
  sent : Tab (List Nat) := []
  /-- buffers freed and not yet reported, by VC -/
  freed : Tab Nat := []
  /-- packets waiting to be sent, in the order they were put on the port -/
  txq : List TxWait := []
  /-- virtual channel whose turn it is, and flits left of its turn (R335) -/
  rrVc : Nat := 3
  rrLeft : Nat := 0
  /-- messages of this package sent and not acknowledged -/
  msgs : List SentMsg := []
  /-- flit payloads, with marked sectors, of the packet being received, by VC × 3 + class -/
  partialRx : Tab (List (Bytes × Nat)) := []
  /-- output port that a packet being received is forwarded to, by VC × 3 + class; 6 where it was dropped (R337) -/
  fwd : Tab Nat := []
  /-- whole packets received and not yet handled, oldest first -/
  arrived : List RxPkt := []
  /-- Varve time at which the port entered RETRAIN or DRAINING -/
  since : Nat := 0
  deriving DecidableEq, Repr

/-- Where the data of a remote read goes when it returns. -/
inductive RdDest where
  /-- to the requester of a single fabric access -/
  | response
  /-- to a device physical address, as the write of an operation -/
  | store (sid ctx : Nat) (secure : Bool) (pa : Nat)
  /-- to a byte offset of a core's scratchpad, for a GATHER -/
  | pad (n off : Nat) (who : Initiator)
  /-- to the SUBMIT window of a core, for a SUBMIT transfer -/
  | submit (n : Nat)
  /-- the access was a write -/
  | none
  deriving DecidableEq, Repr

/-- The operation a remote access belongs to. -/
inductive OpRef where
  | alone
  | core (n slot : Nat)
  | ring (f entry : Nat)
  /-- a copy of a host command: queue, its number, engine (R318) -/
  | host (q id f : Nat)
  /-- an operation that engine `f` carried and that has ended: the answer retires the tag and writes nothing -/
  | ended (f : Nat)
  deriving DecidableEq, Repr

/-- A remote access in flight (R345). -/
structure RemoteOp where
  port : Nat
  tag : Nat
  peer : Nat
  slot : Nat
  wr : Bool
  size : Nat
  dest : RdDest
  op : OpRef
  /-- Varve time of issue -/
  since : Nat
  /-- context and virtual address it was translated from (R267) -/
  ctx : Nat
  va : Option Nat
  /-- a running invalidation waits for it (R267) -/
  inv : Bool := false
  deriving DecidableEq, Repr

/-- The last counters seen from a source under a slot: highest, and which of the 1,024 below it (R341). -/
structure Replay where
  top : Nat := 0
  seen : List Nat := []
  deriving DecidableEq, Repr

/-- A message of a collective sent and not acknowledged (R350): collective, direction (0 up the tree, 1 down, 2 a
block), piece, destination, and the packet. -/
structure CollTx where
  coll : Nat
  dir : Nat
  chunk : Nat
  dst : Nat
  slot : Nat
  vc : Nat
  payload : Bytes
  pmap : Nat
  resends : Nat := 0
  since : Nat
  deriving DecidableEq, Repr

/-- A piece of a message of a collective received, the first copy (R350): collective, direction, sender rank, piece,
pieces of the message, data with a poison bit for each granule. -/
structure CollRx where
  coll : Nat
  dir : Nat
  rank : Nat
  chunk : Nat
  count : Nat
  data : Bytes
  pmap : Nat
  deriving DecidableEq, Repr

/-- A collective submitted on this package and not complete (R347–R351). -/
structure Coll where
  req : Bytes
  since : Nat
  /-- it is one of the eight in flight; a request waits until then (R347) -/
  started : Bool := false
  /-- its contribution has met a fault and is parked (R273) -/
  parked : Bool := false
  /-- it has failed while its contribution waits: status and DETAIL with which it completes (R273) -/
  ended : Option (Nat × Nat) := none
  /-- the local contribution, once it has been made (R273), with its poisoned granules -/
  mine : Option (Bytes × List Bool) := none
  /-- combine steps done, the value combined so far, and the parts of the step that is not whole (R349) -/
  step : Nat := 0
  acc : Option (Bytes × List Bool) := none
  parts : List (Bytes × List Bool) := []
  /-- queue slot of the combine descriptor on CORE -/
  job : Option Nat := none
  /-- the combined value of this rank's subtree, or the blocks, have been sent -/
  sent : Bool := false
  /-- the result, once it is held; empty where nothing is delivered here -/
  result : Option (Bytes × List Bool) := none
  /-- statuses of the local combine steps -/
  met : List (Nat × Nat) := []
  deriving DecidableEq, Repr

/-! ### Fuses (Table 15.1) -/

/-- The fused bits (Table 15.1): they only ever grow (R417). The unique device secret and the root hashes never change
and stand in Config. -/
structure Otp where
  /-- LIFECYCLE: 0 UNPROVISIONED, 1 PROVISIONED, 2 RETIRED -/
  lifecycle : Nat := 0
  /-- ROOT_REVOKE, a bit for each root -/
  rootRevoke : Nat := 0
  /-- SVN_MIN, 0–64 -/
  svnMin : Nat := 0
  /-- ID_EPOCH, 0–255 -/
  idEpoch : Nat := 0
  /-- the package is of grade S (R2) -/
  gradeS : Bool := false
  deriving DecidableEq, Repr

/-! ### Self-test requests (R409) -/

/-- The request accepted through ST_REQ that has not ended. -/
structure StReq where
  cluster : Nat
  drain : Bool
  release : Bool
  /-- a slice of the cluster ran when a RELEASE request came: the full test starts after it (R409) -/
  late : Bool := false
  deriving DecidableEq, Repr

/-! ### Firn (R174) -/

/-- A buffer of the count grid: counts by row × 256 + column, and its tag (R174). -/
structure Grid where
  cells : Tab Nat := []
  fcnt : Nat := 0
  ts : Nat := 0
  guard : Bool := false
  deriving DecidableEq, Repr

/-! ### Moraine (R180–R206) -/

/-- An item of a Moraine message (R197): position, key, epoch, status of an answer, row. -/
structure MorItem where
  pos : Nat
  key : Nat := 0
  epoch : Nat := 0
  status : Nat := 0
  row : Bytes := []
  deriving DecidableEq, Repr

/-- A Moraine message (Table 6.6) with its items; `bad` says that its row was read poisoned. -/
structure MorMsg where
  kind : Nat
  table : Nat
  src : Nat
  orig : Nat
  step : Nat := 0
  crc : Nat := 0
  part : Bool := false
  next : Bool := false
  freed : Bool := false
  epoch : Nat := 0
  key : Nat := 0
  items : List MorItem := []
  bad : Bool := false
  deriving DecidableEq, Repr

/-- An item an owner holds for a step: requester, whether it came through a stub, the item. -/
structure MorHeld where
  src : Nat
  fwd : Bool
  item : MorItem
  deriving DecidableEq, Repr

/-- What an owner holds of one step of a table (R191). -/
structure OwnStep where
  /-- packages whose REQ has arrived -/
  reqFrom : List Nat := []
  /-- look-ups held and not served -/
  reqs : List MorHeld := []
  /-- keys of look-ups served -/
  served : List Nat := []
  /-- packages whose UPD has arrived -/
  updFrom : List Nat := []
  upds : List MorHeld := []
  /-- FWD_REQ and FWD_UPD messages that have arrived, as sender × 64 + requester -/
  fwdReqFrom : List Nat := []
  fwdUpdFrom : List Nat := []
  /-- look-ups that a stub forwards: new owner and item -/
  fwdReqs : List (Nat × MorHeld) := []
  /-- every REQ is held, so the FWD_REQ messages of the step have been sent; every UPD, the FWD_UPD messages -/
  fwdSent : Bool := false
  fwdUpdSent : Bool := false
  /-- new owners that have been sent them -/
  fwdReqTo : List Nat := []
  fwdUpdTo : List Nat := []
  /-- arrival of the first message of the update part -/
  first : Option Nat := none
  /-- STEP_TIMEOUT has closed the update part (R193) -/
  closed : Bool := false
  deriving DecidableEq, Repr

/-- An open step of the package as requester (R194): step, its look-up part and its update part have completed. -/
structure OpenStep where
  step : Nat
  look : Bool := false
  upd : Bool := false
  deriving DecidableEq, Repr

/-- One table's state beyond its registers. -/
structure MorTab where
  /-- update parts applied: every step below this number -/
  applied : Nat := 0
  steps : Tab OwnStep := []
  opened : List OpenStep := []
  /-- local row numbers in use -/
  rows : List Nat := []
  /-- stubs of other packages that forward to this one: package, step of the calving, key (R199) -/
  fwdFrom : List (Nat × Nat × Nat) := []
  /-- packages that have sent STUB_FREED, once for each of their stubs that is gone -/
  fwdGone : List Nat := []
  /-- new owners that are still to be told STUB_FREED, once for each stub -/
  freedTo : List Nat := []
  /-- keys hinted for a step's look-up (R196) -/
  hinted : List (Nat × List Nat) := []
  deriving DecidableEq, Repr

/-- A batch in progress (R187–R193). -/
structure MorBatch where
  core : Nat
  slot : Nat
  table : Nat
  step : Nat
  upd : Bool
  ctx : Nat
  rowsVa : Nat
  statVa : Nat
  /-- owner each key was routed to, and its answer where there is one -/
  owners : List Nat
  answers : List (Option Nat)
  sent : Bool := false
  sentAt : Nat := 0
  met : List (Nat × Nat) := []
  /-- keys that were hinted to another owner, by position -/
  hinted : List Bool := []
  /-- look-ups served here from a prefetched row -/
  hits : Nat := 0
  deriving DecidableEq, Repr

/-- A hinted row (R196): table, key, step of the look-up it was hinted for, VER it was fetched under; none where it was
not fetched. -/
structure Prefetch where
  table : Nat
  key : Nat
  step : Nat
  ver : Option Nat
  deriving DecidableEq, Repr

/-- An override entry (R182, Table 6.10). -/
structure OvrEnt where
  key : Nat := 0
  table : Nat := 0
  owner : Nat := 0
  valid : Bool := false
  stub : Bool := false
  epoch : Nat := 0
  deriving DecidableEq, Repr

/-- A calving as old owner (R199): waiting for CALVE_ACK, or a stub waiting for DIR_ACK of the packages listed. -/
structure Calving where
  table : Nat
  key : Nat
  owner : Nat
  epoch : Nat
  step : Nat
  stub : Bool := false
  acks : List Nat := []
  deriving DecidableEq, Repr

/-- Moraine's state beyond its registers. -/
structure Mor where
  tabs : Tab MorTab := []
  /-- messages received and not handled, oldest first -/
  inbox : List MorMsg := []
  /-- bytes of a message being received, by sender -/
  rx : Tab Bytes := []
  /-- senders of whose message a poisoned packet has arrived -/
  rxBad : List Nat := []
  batches : List MorBatch := []
  ovr : Tab OvrEnt := []
  calving : List Calving := []
  /-- hot list: table, key, count (R201) -/
  hot : List (Nat × Nat × Nat) := []
  /-- hinted rows: those fetched take the 8 MiB buffer (R196) -/
  prefetch : List Prefetch := []
  /-- keys calved to this package whose DIR_OVR has not arrived: table, key (R199) -/
  incoming : List (Nat × Nat) := []
  /-- DIR_CRC that a package's messages last carried, by table × 64 + package (R203) -/
  crcs : Tab Nat := []
  deriving DecidableEq, Repr

/-! ### Sastrugi (R220) -/

/-- What a row engine executes: the row of a row-mode TOPK, or a merge; the entry is named by core, slot and its place in
the order of issue. -/
structure SasRun where
  eng : Nat
  core : Nat
  slot : Nat
  no : Nat
  row : Option Nat
  deriving DecidableEq, Repr

/-! ### Rime (R387–R414) -/

/-- A check post in Rime's queue: not read back yet, or waiting for its pair partner (R398, R399). -/
structure RPost where
  post : Post
  since : Nat
  rb : Bool
  pair : Bool
  deriving DecidableEq, Repr

/-- A Whiteout output: number of its run, frame counter, sensor time, guard flag of its grid buffer (R394). -/
structure Wo where
  num : Nat
  fcnt : Nat
  ts : Nat
  guard : Bool
  deriving DecidableEq, Repr

/-- An enabled stream's state beyond its registers (R389–R399). -/
structure RStream where
  /-- PUB_SEQ -/
  seq : Nat := 0
  /-- T_last and the deadline D; none before the first publication -/
  tLast : Option Nat := none
  due : Option Nat := none
  /-- FRAME_CNT and SENSOR_TS of the previous publication -/
  fcnt : Nat := 0
  ts : Nat := 0
  /-- cause CHECK is owed to the next publication -/
  check : Bool := false
  /-- CHECK of the latest MIS_M publications, oldest first -/
  hist : List Bool := []
  /-- Whiteout buffers, 0 to 2 -/
  bufs : Tab Wo := []
  /-- buffers the latest two publications name -/
  names : List Nat := []
  /-- the latest tag -/
  tag : Bytes := []
  deriving DecidableEq, Repr

/-- A publication: what it names (staging offset and length, none where VALID is 0), its frame counter, sensor time,
DEGRADED flag and Whiteout buffer. -/
structure PubOut where
  out : Option (Nat × Nat)
  fcnt : Nat
  ts : Nat
  deg : Bool
  buf : Option Nat := none
  deriving DecidableEq, Repr

/-- Rime's state beyond its registers. -/
structure Rime where
  /-- publish requests pending, oldest first, each with the time it arrived -/
  reqs : List (Bytes × Nat) := []
  /-- responses, oldest first, each with the DETAIL of its status -/
  rsps : List (Bytes × Nat) := []
  posts : List RPost := []
  streams : Tab RStream := []
  /-- a grid buffer waits for Whiteout (R394) -/
  woWait : Bool := false
  /-- tag of the buffer Whiteout runs on -/
  woRun : Option Wo := none
  woNum : Nat := 0
  /-- times of the last HB_KICK of each management core; empty before supervision begins (R404) -/
  kicks : List Nat := []
  /-- management cores that are silent, a bit each -/
  silent : Nat := 0
  /-- latest status record of each peer, with the time it arrived (R405) -/
  peers : Tab (Bytes × Nat) := []
  /-- time from which peers are supervised -/
  peerFrom : Nat := 0
  /-- peers reported silent, a bit each -/
  peerTold : Nat := 0
  /-- by cluster, the slice that was deferred and the end of the window that deferred it (R406) -/
  deferred : Tab (Nat × Nat) := []
  /-- Varve time at which the last full test of each cluster ended -/
  fullAt : Tab Nat := []
  deriving DecidableEq, Repr

/-! ### Flash (Table 15.2) -/

/-- A copy of the dictionary store (R362): its generation and the stored values by index × 256 + subindex. -/
structure StoreCopy where
  gen : Nat
  vals : Tab Bytes
  /-- CRC-32C of the copy's bytes -/
  crc : Nat
  deriving DecidableEq, Repr

/-- The xSPI flash: identity state records by copy, dictionary store copies, Creep log records by slot, and the
images by set × 4 + type. It survives every reset and power loss. -/
structure Flash where
  ids : Tab Bytes := []
  stores : Tab StoreCopy := []
  creep : Tab Bytes := []
  images : Tab Bytes := []
  deriving DecidableEq, Repr

/-! ### Security engine (R415–R440) -/

/-- The security engine's state beyond its registers. -/
structure Sec where
  /-- VALID KEK slots and their keys (R431) -/
  keks : Tab Bytes := []
  /-- VALID management keys (R432) -/
  mkeys : Tab Bytes := []
  /-- the JK_DATA register (Table 15.8) -/
  jkData : Bytes := zeros 64
  /-- first leaf after the reserved block; 0 before a reservation (R425) -/
  blockEnd : Nat := 0
  /-- lower tree held, and the one being generated (R426) -/
  tree : Option Nat := none
  treeGen : Option Nat := none
  /-- no identity leaf remains (R425) -/
  exhausted : Bool := false
  /-- nonce of the quote being made (R427) -/
  quoteRun : Option Bytes := none
  /-- the latest nonce accepted and its time -/
  nonce : Bytes := zeros 32
  nonceAt : Option Nat := none
  quote : Bytes := zeros 4096
  quoteSeq : Nat := 0
  /-- BOOT_ID (R429) -/
  bootId : Nat := 0
  /-- SVN, VERSION and ROOT_IDX of the running firmware (R420) -/
  fwSvn : Nat := 0
  fwVersion : Nat := 0
  fwRoot : Nat := 0
  deriving DecidableEq, Repr

/-! ### Power, clocks and Creep (R441–R464) -/

/-- A Creep measurement that runs (R453): why, the voltage of the next step, the lowest step passed, and whether the
sweep has stopped. -/
structure Meas where
  cause : Nat
  v : Nat
  vmin : Option Nat := none
  swept : Bool := false
  deriving DecidableEq, Repr

/-- An AVSBus command that is not acknowledged (R442): its target in mV and how often it was repeated. -/
structure Avs where
  mv : Nat
  repeats : Nat := 0
  since : Nat := 0
  deriving DecidableEq, Repr

/-- A measurement that has ended and is not logged yet (R458): cause, region, and the fields of its record. -/
structure CreepLog where
  cause : Nat
  region : Nat
  life : Nat
  vmin : List Nat
  vtgt : List Nat
  tj : List Nat
  deriving DecidableEq, Repr

/-- The power, clock and Creep block's state beyond its registers. -/
structure Pcc where
  /-- domain transition in progress: domain, switch on (R445) -/
  trans : Option (Nat × Bool) := none
  /-- regions whose warning has been raised, regions and vaults outside the grade, a bit each (R452) -/
  warned : Nat := 0
  outRegion : Nat := 0
  outVault : Nat := 0
  /-- regions whose measurement after reset has begun (R454) -/
  measured : Nat := 0
  meas : Tab Meas := []
  /-- cause (1 due, 2 request, 0 after reset) and POWERED_S of what makes a region due -/
  due : Tab (Nat × Nat) := []
  /-- regions whose request asked for REQ_DRAIN -/
  drain : Nat := 0
  /-- end of the window that deferred a region's measurement -/
  deferred : Tab Nat := []
  /-- rail set-point and latest acknowledged target of each region, mV -/
  setPoint : Tab Nat := []
  railTo : Tab Nat := []
  avs : Tab Avs := []
  logQ : List CreepLog := []
  /-- LIFE_S that the power-on began with, once firmware has read the log -/
  lifeBase : Option Nat := none
  /-- Creep log writes that failed, counted (R458) -/
  logFails : Nat := 0
  /-- slot and SEQ of the next Creep record -/
  logNext : Option (Nat × Nat) := none
  /-- PORESET_N is asserted -/
  poreset : Bool := false
  /-- rails that have left their range until cold reset: VDD_IO, VDDQ_MMP, VDD_DRAM or VPP_DRAM (R468) -/
  ioDead : Bool := false
  mmpIoDead : Bool := false
  dramDead : Bool := false
  deriving DecidableEq, Repr

/-! ### Host port (R307–R328) -/

/-- One MMP channel's state beyond its registers. -/
structure Chan where
  /-- open row of each bank (R312) -/
  rows : Tab Nat := []
  /-- mode registers written, by number -/
  mrs : Tab Nat := []
  /-- RL, data rate and whether WCK:CK is 4:1, of each set point -/
  rls : Tab Nat := []
  rates : Tab (Nat × Bool) := []
  /-- CP_STATE, HEARTBEAT and POISON_CNT stand in the header (Table 11.4) -/
  cpState : Nat := 0
  heartbeat : Nat := 0
  /-- the event ring (R58): enabled, offset, size, filters, counts -/
  evrOn : Bool := false
  evrOff : Nat := 0
  evrLog2 : Nat := 0
  evrMask : Nat := 0
  evrSecure : Bool := false
  evrProd : Nat := 0
  evrAck : Nat := 0
  /-- what the latest read burst or mode-register read drove; none where nothing was driven -/
  out : Option Bytes := none
  deriving DecidableEq, Repr

/-- A host command firmware has read and not handed back (R320, R321). -/
structure HCmd where
  /-- the model's number for it, from 1 on -/
  id : Nat
  bytes : Bytes
  /-- SUBMIT_SEEN -/
  seen : Nat
  /-- a copy: its engine, granules moved, whether it has ended -/
  fe : Nat := 0
  moved : Nat := 0
  copied : Bool := false
  /-- statuses met with their detail, in order, and whether poisoned data was moved -/
  met : List (Nat × Nat) := []
  poison : Bool := false
  /-- descriptors still to be submitted, and their core -/
  todo : List Bytes := []
  core : Nat := 0
  /-- granule of the core that receives the summary, of a FRAME or MAP -/
  dst : Nat := 0
  /-- publish request that follows the copy, still to be written to PUB_REQ -/
  req : Bytes := []
  /-- completion records kept so far -/
  recs : List Bytes := []
  /-- REQ_ID of its publish request, while Rime has not answered -/
  pub : Option Nat := none
  /-- status and DETAIL once it has ended -/
  fin : Option (Nat × Nat) := none
  /-- RESULT_LEN and RESULT_TAG -/
  len : Nat := 0
  tag : Bytes := []
  /-- the table of a MAP's batch (R203) -/
  table : Option Nat := none
  deriving DecidableEq, Repr

/-- One host queue's state beyond its registers: commands read, and the SEQ of completions that asked for HIRQ. -/
structure HQueue where
  cmds : List HCmd := []
  irqs : List Nat := []
  deriving DecidableEq, Repr

/-! ### Dictionary, field networks and time (R357–R386) -/

/-- What the management Ethernet has sent: replies to ARP and ICMP echo, KOP responses, frames of the time service. -/
inductive EthOut where
  | arpReply (mac ip : Nat)
  | icmpReply (mac ip : Nat) (data : Bytes)
  | kop (mac ip port : Nat) (data : Bytes)
  | pdelayResp (seq t2 t3 : Nat)
  | pdelayReq (seq t1 : Nat)
  deriving DecidableEq, Repr

/-- A KOP datagram in the receive queue (R367). -/
structure KopRx where
  mac : Nat
  ip : Nat
  port : Nat
  data : Bytes
  deriving DecidableEq, Repr

/-- A message of the dictionary service that has arrived (R365): in a mirror slot, over UDP, over a CAN FD controller. -/
inductive DictMsg where
  | slot (k : Nat)
  | udp (k : KopRx)
  | can (c : Nat) (m : Bytes)
  deriving DecidableEq, Repr

/-- A CAN FD request being received (R371): message bytes so far, next segment number, time of the latest segment. -/
structure CanPart where
  data : Bytes
  next : Nat
  since : Nat
  deriving DecidableEq, Repr

/-- A CAN FD controller: 0 error-active, 1 error-passive, 2 bus-off, 3 disabled; and what it is receiving. -/
structure Can where
  state : Nat := 3
  part : Option CanPart := none
  deriving DecidableEq, Repr

/-- A mirror slot (R373): request area, REQ_SEQ and the world it was written in, response area, RSP_SEQ, the response
firmware has written whose RSP_SEQ it has not, and a REQ_SEQ kept until DM_READY. -/
structure MirSlot where
  req : Bytes := []
  reqSeq : Nat := 0
  secure : Bool := false
  /-- a request is being served -/
  busy : Bool := false
  /-- latest value written before DM_READY -/
  kept : Option Nat := none
  rsp : Bytes := []
  rspSeq : Nat := 0
  deriving DecidableEq, Repr

/-- A snapshot (R375): SNAP_GEN, its records, SNAP_TRUNC. -/
structure Snap where
  gen : Nat := 0
  recs : List Bytes := []
  trunc : Bool := false
  deriving DecidableEq, Repr

/-- The dictionary service, its paths and the time service. -/
structure Dict where
  /-- the persistent entries as they stood at reset, for those that take effect at the next one -/
  inForce : Tab Bytes := []
  /-- the snapshot of a running store -/
  store : Option (Tab Bytes) := none
  /-- 0x1F00:03, :04 -/
  storeState : Nat := 0
  storeGen : Nat := 0
  /-- last SEQ accepted under each KEY_ID -/
  kopSeq : Tab Nat := []
  /-- messages that have arrived and are not served, oldest first (R365) -/
  arrived : List DictMsg := []
  ethOut : List EthOut := []
  ethUp : Bool := false
  cans : Tab Can := []
  /-- CAN FD frames sent: controller, identifier, data -/
  canOut : List (Nat × Nat × Bytes) := []
  slots : Tab MirSlot := []
  snaps : Tab Snap := []
  /-- 0x5000:02, :07, :08 -/
  syncState : Nat := 0
  offset : Nat := 0
  meanDelay : Nat := 0
  lastSync : Nat := 0
  /-- what the published recall sums hold beyond the counters, by layer × 2, + 1 for HIT (R145, R147) -/
  recallSum : Tab Nat := []
  /-- the latest Announce heeded -/
  announce : Bytes := []
  /-- the MAC's ingress and egress timestamp of the latest frame of message type 0x0 to 0x3, two's complement (R383) -/
  stampRx : Nat := 0
  stampTx : Nat := 0
  /-- a two-step Sync whose Follow_Up is to come: sequence number, ingress timestamp (R381) -/
  syncWait : Option (Nat × Nat) := none
  /-- the next own Pdelay_Req's sequence number, the time of the latest, and the one in flight: sequence number, egress
  timestamp; its response: receipt at the peer, ingress timestamp here (R381) -/
  pdSeq : Nat := 0
  pdLast : Option Nat := none
  pdReq : Option (Nat × Nat) := none
  pdResp : Option (Nat × Nat) := none
  deriving DecidableEq, Repr

/-! ### The block -/

/-- Everything the block holds but its fuses and the queue of waiting commands. -/
structure Dev where
  /-- every register field that does not hold its reset value, by the device physical bit address of its lowest bit -/
  regs : Tab Nat := []
  /-- scratchpads and MMP staging, by device physical address -/
  ram : List Host.Cell := []
  /-- error patterns of SRAM sectors, by device physical address / 32; an unlisted sector has none (R107, R316) -/
  ramErr : Tab ErrPat := []
  /-- stored DRAM lines, by vault × 100,663,296 + line (R227, R232) -/
  dram : Tab Line := []
  vaults : Tab Vault := []
  /-- which key each context holds at the vaults, by context (R238, R242) -/
  ctxKey : Tab Nat := []
  /-- single accesses held while INIT runs, oldest first (R250) -/
  heldReq : List Req := []
  /-- Varve counter, ns (R377), and its fraction in units of 2⁻³² ns -/
  varve : Nat := 0
  varveFrac : Nat := 0
  /-- FABRIC cycles in which a change was applied to a sync object, counted by the model (R289) -/
  fabCycle : Nat := 0
  /-- the model's own counter of free values taken; no statement rests on its value -/
  serial : Nat := 0
  /-- event queue of the management cluster (R57) -/
  evq : List EvRec := []
  evSeq : Nat := 0
  evLost : Bool := false
  /-- the event log of 65,536 records in context-0 DRAM, oldest first -/
  evLog : List EvRec := []
  /-- Varve time of the last event raised of a limited cause (R244) -/
  evLim : Tab Nat := []
  /-- LOST is owed to the next record of channel h's event ring (R58) -/
  ringLost : Tab Nat := []
  /-- dictionary counters, by index × 256 + subindex -/
  dictCnt : Tab Nat := []
  /-- causes for which a power domain is fenced: bit 0 PLL, 1 voltage, 2 self-test, 3 rail -/
  fence : Tab Nat := []
  /-- data of the latest completed fabric or register read, seen by the initiator -/
  resp : Option Rsp := none
  tags : List Tag := []
  /-- accesses stalled for want of a tag, oldest first (R48) -/
  stalled : List (Owner × Req) := []
  /-- an access of the running operation has met a vault that holds it (R250); false between commands -/
  blocked : Bool := false
  /-- what Sastrugi's engines execute (R220) -/
  sasRuns : List SasRun := []
  /-- register writes (R13) the running operation has made and that have not reached their blocks; empty between commands -/
  csrPosts : List Req := []
  cores : Tab Core := []
  tcaches : Tab TCache := []
  /-- changes that have reached a sync object and are not applied, by object, oldest first (R289) -/
  syncPending : Tab (List SyncChange) := []
  /-- watch entries held at an object (R294), by object -/
  watchers : Tab (List Watch) := []
  /-- mailbox slots and channels, by mailbox × 8 + channel (Table 10.3) -/
  mbxSlots : Tab MbxSlot := []
  engines : Tab Engine := []
  ports : Tab Port := []
  remoteOps : List RemoteOp := []
  /-- flits a port has put on its lanes, oldest first -/
  linkOut : List (Nat × Flit) := []
  /-- identities sent on entering CHECK (R334): port; package ID, X, Y, Z, DIM_X, DIM_Y, DIM_Z -/
  identOut : List (Nat × List Nat) := []
  /-- messages that wait for a link tag, oldest first (R48) -/
  unsent : List MsgWait := []
  /-- job-key slots that a lost signal has failed, and the package it was for: what they end has still to end (R45) -/
  jobsLost : List (Nat × Nat) := []
  /-- NONCE_CTR last used under a slot (R340) -/
  nonceCtr : Tab Nat := []
  /-- replay windows, by slot × 64 + source (R341) -/
  replays : Tab Replay := []
  /-- collectives submitted and not complete, by slot × 2³² + COLL_ID, in order of submission -/
  colls : List (Nat × Coll) := []
  collTx : List CollTx := []
  collRx : List CollRx := []
  /-- remembered aborts: collective and rank of the aborter, oldest first (R351) -/
  collAborts : List (Nat × Nat) := []
  /-- completed collectives, by identity -/
  collDone : List Nat := []
  /-- UP ports of other packages as their LINK_STATE notices say, a bit each (R346) -/
  linkMap : Tab Nat := []
  /-- package ID in force (R19) -/
  pkgId : Nat := 0
  /-- job keys by slot, 32 bytes each (R433); what a slot that is not LOADED holds is not read -/
  jobKeys : Tab Bytes := []
  /-- POISON_CNT of the control-page header, by channel (R316, Table 11.4) -/
  cpPoison : Tab Nat := []
  /-- the pending self-test request (R409) -/
  stReq : Option StReq := none
  /-- descriptors issued so far, counted by the model: it orders what a block has received (R156) -/
  issueSeq : Nat := 0
  /-- buffers of the count grid, 0 to 2 (R174) -/
  grids : Tab Grid := []
  /-- the buffer Rime is reading through its port (R174) -/
  gridRead : Option Nat := none
  mor : Mor := {}
  /-- what counters in units of 1,024 hold below one unit, by the key of their field -/
  unitRest : Tab Nat := []
  rime : Rime := {}
  flash : Flash := {}
  sec : Sec := {}
  /-- context keys drawn, counted by the model so that no key number is ever used twice (R430) -/
  keyDraws : Nat := 0
  /-- dictionary entries that do not hold their default, by index × 256 + subindex (R357) -/
  pers : Tab Bytes := []
  /-- the SEC_CMD word of the register write being made; none between commands -/
  secCmd : Option Nat := none
  pcc : Pcc := {}
  chans : Tab Chan := []
  hq : Tab HQueue := []
  /-- host commands read so far, counted by the model (R318) -/
  hqIds : Nat := 0
  dict : Dict := {}
  deriving DecidableEq, Repr

/-- The state of the block: its working state, its fuses, and the commands waiting, first in, first out. -/
structure State where
  dev : Dev
  otp : Otp
  pending : List Instr
  deriving DecidableEq, Repr

/-- Why the block stops on a command. No command of the spec's table stops it: every effect the spec gives is a next
state, so no meaning raises this; it is kept for an access the spec would forbid, and none is. Safe. -/
inductive Fault where
  | unreachable
  deriving DecidableEq, Repr

/-- Why a command has no meaning. -/
inductive Refusal where
  /-- Raised by the dispatch of a command whose meaning is not written yet. Safe: nothing is claimed of it. -/
  | notModelled (mnemonic : String)
  deriving DecidableEq, Repr

/-- The block right after cold reset (Table 16.3, R459): every register at its reset value, memories unlisted, the
fuses as assumption 2 names them, no command waiting. -/
def State.reset : State := { dev := {}, otp := {}, pending := [] }

end Sys2Proof.Machine
end

