-- ==== Sys2Proof/Machine/Ops.lean ====
section
/-!
DEFINITION. The named operations over State that every command shares: register fields, events and their limits,
time, power domains, free values, dictionary counters, the symbol code, and the byte memories.
Choices of the model: log entries 3, 4, 16, 57, 168, 172, 181, 195.
-/

namespace Sys2Proof.Machine

/-! ### Addresses of the register blocks (Table 1.3, R18, R21) -/

namespace B
/-- CSRs of core n. -/
def core (n : Nat) : Nat := 0x2000000000 + n * 0x10000
/-- CSRs of cluster c. -/
def cluster (c : Nat) : Nat := 0x2002000000 + c * 0x10000
/-- CSRs of region r. -/
def region (r : Nat) : Nat := 0x2002200000 + r * 0x10000
/-- Vault controller v. -/
def vault (v : Nat) : Nat := 0x2002300000 + v * 0x10000
/-- Link port p. -/
def link (p : Nat) : Nat := 0x2002400000 + p * 0x10000
/-- The system link registers, in the block of port 0 (Table 12.9). -/
def link0 : Nat := 0x2002400000
/-- Firn. -/
def firn : Nat := 0x2002500000
/-- Moraine. -/
def moraine : Nat := 0x2002510000
/-- Sastrugi. -/
def sastrugi : Nat := 0x2002520000
/-- Ablation unit and Spindrift of region r. -/
def spu (r : Nat) : Nat := 0x2002530000 + r * 0x1000
/-- Sync object s. -/
def sync (s : Nat) : Nat := 0x2002600000 + s * 0x10
/-- Mailbox m. -/
def mbx (m : Nat) : Nat := 0x2002700000 + m * 0x400
/-- Security engine. -/
def sec : Nat := 0x2002800000
/-- Rime. -/
def rime : Nat := 0x2002900000
/-- Power, clock and Creep. -/
def pcc : Nat := 0x2002A00000
/-- MMP registers. -/
def mmp : Nat := 0x2002B00000
/-- Management and Varve, with the isolation registers. -/
def mgmt : Nat := 0x2002C00000
/-- Dictionary mirror. -/
def dictm : Nat := 0x2002D00000
/-- Flow engine f. -/
def fe (f : Nat) : Nat := 0x2002E00000 + f * 0x400
/-- First address of the scratchpad aperture. -/
def scratch (n : Nat) : Nat := 0x1000000000 + n * 0x100000
/-- First address of the staging SRAM of MMP channel h. -/
def staging (h : Nat) : Nat := 0x3000000000 + h * 0x4000000
/-- First address of the remote window of package q. -/
def remote (q : Nat) : Nat := 0x4000000000 + q * 0x1000000000
end B

/-! ### Register fields -/

/-- The reset value of copy `k` of a field. -/
def Fld.reset (F : Fld) (k : Nat) : Nat := if k = 0 then F.rst0 else F.rst

/-- The key of copy `k` of a field of the block at `b`: its lowest bit counted from device physical address 0. -/
def Fld.key (F : Fld) (b k : Nat) : Nat := (b + F.off) * 8 + F.lo + F.bstr * k

/-- The field's value: what is listed, or its reset value. -/
def Dev.g (d : Dev) (b : Nat) (F : Fld) (k : Nat := 0) : Nat := d.regs.getD (F.key b k) (F.reset k)

/-- The field as a flag. -/
def Dev.gb (d : Dev) (b : Nat) (F : Fld) (k : Nat := 0) : Bool := d.g b F k != 0

/-- The field set to a value of its width. -/
def Dev.p (d : Dev) (b : Nat) (F : Fld) (v : Nat) (k : Nat := 0) : Dev :=
  { d with regs := Tab.set (F.reset k) d.regs (F.key b k) (v % 2 ^ F.w) }

/-- The field set to a flag. -/
def Dev.pb (d : Dev) (b : Nat) (F : Fld) (v : Bool) (k : Nat := 0) : Dev := d.p b F (b2n v) k

/-- A counter field raised, held at its largest value (R177: counters saturate). -/
def Dev.inc (d : Dev) (b : Nat) (F : Fld) (k : Nat := 0) (n : Nat := 1) : Dev :=
  d.p b F (min (d.g b F k + n) (2 ^ F.w - 1)) k

/-- A counter field raised, wrapping at its width. -/
def Dev.incW (d : Dev) (b : Nat) (F : Fld) (k : Nat := 0) (n : Nat := 1) : Dev := d.p b F (d.g b F k + n) k

/-- A counter in units of 1,024 raised by single counts. -/
def Dev.incUnit (d : Dev) (b : Nat) (F : Fld) (n : Nat) (k : Nat := 0) : Dev :=
  let r := d.unitRest.getD (F.key b k) 0 + n
  ({ d with unitRest := Tab.set 0 d.unitRest (F.key b k) (r % 1024) }).inc b F k (r / 1024)

/-- A list of counters of the block at `b` cleared. -/
def Dev.clearFlds (d : Dev) (b : Nat) (fs : List Fld) : Dev :=
  fs.foldl (fun d F => (List.range F.cnt).foldl (fun d k =>
    ({ d with unitRest := d.unitRest.del (F.key b k) }).p b F 0 k) d) d

/-- Every field whose bits lie in a range of addresses back at its reset value. -/
def Dev.resetRegs (d : Dev) (lo hi : Nat) : Dev := { d with regs := Tab.clear d.regs (lo * 8) (hi * 8) }

/-! ### Free values, time, dictionary counters -/

/-- A fresh free value and the state with its serial number taken. -/
def Dev.fresh (d : Dev) : Nat × Dev := (Config.freeValue d.serial, { d with serial := d.serial + 1 })

/-- `n` fresh free bytes. -/
def Dev.freeBytes (d : Dev) (n : Nat) : Bytes × Dev :=
  ((List.range n).map (fun i => byte (Config.freeValue (d.serial + i))), { d with serial := d.serial + n })

/-- What a 64-byte block whose data cannot be returned delivers: poison, and data the spec does not state, so free
bytes (R107, R237). -/
def Dev.poisonBytes (d : Dev) : Dev × Bytes × Bool := ((d.freeBytes 64).2, (d.freeBytes 64).1, true)

/-- The low 32 bits of the Varve time. -/
def Dev.t32 (d : Dev) : Nat := d.varve % 2 ^ 32

/-- A dictionary counter of 32 bits, saturating at 0xFFFF_FFFF. -/
def Dev.dcnt (d : Dev) (idx sub : Nat) : Nat := d.dictCnt.getD (idx * 256 + sub) 0

/-- A dictionary counter raised (U32, saturating). -/
def Dev.dinc (d : Dev) (idx sub : Nat) (n : Nat := 1) : Dev :=
  { d with dictCnt := Tab.set 0 d.dictCnt (idx * 256 + sub) (min (d.dcnt idx sub + n) (2 ^ 32 - 1)) }

/-! ### Events (R55–R57, R244) -/

/-- Fields in the order listed, each at the next multiple of its size, left out where they do not fit (R56). -/
def dtl (fs : List (Nat × Nat)) : Bytes :=
  (fs.foldl (fun (a : Nat × Bytes) f =>
    let o := alignUp a.1 f.1
    if o + f.1 ≤ 16 then (o + f.1, patch a.2 o (natLE f.1 f.2)) else a) (0, zeros 16)).2

/-- DETAIL of a status whose table gives one 32-bit word (R56). -/
def dtlWord (w : Nat) : Bytes := padTo 16 (natLE 4 w)

/-- An event enters the queue of 4,096 records, or is dropped and counted, and the next that enters carries LOST
(R57). -/
def Dev.raise (d : Dev) (e : Ev) : Dev :=
  if 4096 ≤ d.evq.length then { (d.dinc 0x7006 0x01) with evLost := true }
  else { d with evq := d.evq ++ [⟨e, d.evLost, d.evSeq⟩], evLost := false, evSeq := d.evSeq + 1 }

/-- An event at the present Varve time. -/
def Dev.event (d : Dev) (cls inst status : Nat) (detail : Bytes) (ctx : Nat := 0) (secure : Bool := false) : Dev :=
  d.raise ⟨d.varve, cls, inst, status, ctx, secure, detail⟩

/-- An event of a cause limited to one in 10 µs, counted from the last one raised (R244). -/
def Dev.eventLim (d : Dev) (cls inst status : Nat) (detail : Bytes) (ctx : Nat := 0) (secure : Bool := false) : Dev :=
  let k := cls * 2 ^ 32 + inst * 2 ^ 16 + status
  match d.evLim.get? k with
  | some t => if d.varve < t + 10000 ∧ t ≤ d.varve then d
    else { (d.event cls inst status detail ctx secure) with evLim := d.evLim.put k d.varve }
  | none => { (d.event cls inst status detail ctx secure) with evLim := d.evLim.put k d.varve }

/-! ### Power domains (Table 16.3, R22, R33, R36) -/

namespace Dom
def cluster (c : Nat) : Nat := c
def region (r : Nat) : Nat := 32 + r
def vault (v : Nat) : Nat := 40 + v
def port (p : Nat) : Nat := 48 + p
def mmp : Nat := 54
def firn : Nat := 55
def moraine : Nat := 56
def sastrugi : Nat := 57
def security : Nat := 58
def mgmt : Nat := 59
def rime : Nat := 60
def spine : Nat := 61
def boot : Nat := 62
end Dom

/-- The domain is on (PWR_ON). -/
def Dev.domOn (d : Dev) (k : Nat) : Bool := bit (d.g B.pcc F.pcc_PWR_ON) k

/-- The domain is fenced by some cause. -/
def Dev.domFenced (d : Dev) (k : Nat) : Bool := d.fence.getD k 0 != 0

/-- The domain is on and not fenced, so its blocks answer (R22). -/
def Dev.domUp (d : Dev) (k : Nat) : Bool := d.domOn k && !d.domFenced k

/-- The domain fenced for a cause: bit 0 PLL, 1 voltage window, 2 self-test, 3 rail. -/
def Dev.fenceDom (d : Dev) (k cause : Nat) : Dev :=
  let f := d.fence.getD k 0
  { d with fence := Tab.set 0 d.fence k (if bit f cause then f else f + 2 ^ cause) }

/-- A function of Table 9.6 is off (FUNC_OFF_MAP). -/
def Dev.funcOff (d : Dev) (n : Nat) : Bool := bit (d.g B.mgmt F.mgmt_FUNC_OFF) n

/-- The function is being disabled (R280: submissions to it are refused at once). -/
def Dev.funcDisabling (d : Dev) (n : Nat) : Bool :=
  d.gb B.mgmt F.mgmt_DIS_BUSY && d.g B.mgmt F.mgmt_DIS_FUNC == n

/-- The function takes no new work: off, or a disable of it runs. -/
def Dev.funcClosed (d : Dev) (n : Nat) : Bool := d.funcOff n || d.funcDisabling n

/-! ### Contexts (R260–R262) -/

/-- STATE of a context (Table 9.1). -/
def Dev.ctxState (d : Dev) (c : Nat) : Nat := d.g B.mgmt F.mgmt_STATE c

/-- The world of a context's transactions (R276). -/
def Dev.ctxSecure (d : Dev) (c : Nat) : Bool := c == 0 || d.gb B.mgmt F.mgmt_CTX_SECURE c

/-- An initiator that acts for a context (R276). -/
def Dev.who (d : Dev) (sid ctx : Nat) : Initiator := ⟨sid, ctx, d.ctxSecure ctx⟩

/-- Firmware on management core 0, which acts as context 0 in the secure world (Table 1.4, R276). -/
def firmware : Initiator := ⟨0x270, 0, true⟩

/-- Rime, which acts as context 0 in the secure world (Table 1.4). -/
def rimeSelf : Initiator := ⟨0x280, 0, true⟩

/-- The initiator of a fabric access. -/
def Req.who (q : Req) : Initiator := ⟨q.sid, q.ctx, q.secure⟩

/-- An event about a read or write of a memory word carries the context and the world of its initiator (R55). -/
def Dev.eventOf (d : Dev) (w : Initiator) (cls inst status : Nat) (detail : Bytes) : Dev :=
  d.event cls inst status detail w.ctx w.secure

/-- A DISABLING context is disabled under DRAIN. -/
def Dev.ctxDrain (d : Dev) (c : Nat) : Bool :=
  d.ctxState c == 4 && d.g B.mgmt F.mgmt_DIS_FUNC == c && !d.gb B.mgmt F.mgmt_DIS_POLICY

/-- Operations of the context may start: ACTIVE, or DISABLING under DRAIN (R275). -/
def Dev.ctxMayStart (d : Dev) (c : Nat) : Bool := d.ctxState c == 1 || d.ctxDrain c

/-! ### The symbol code (R234–R236) -/

namespace Ecc

/-- Multiplication by α = 0x02 in GF(2⁸) with x⁸ + x⁴ + x³ + x² + 1. -/
def xtime (a : Nat) : Nat := if a < 128 then 2 * a else (2 * a - 256) ^^^ 0x1D

/-- α^j · a. -/
def mulAlpha (a : Nat) : Nat → Nat
  | 0 => a
  | j + 1 => xtime (mulAlpha a j)

/-- The syndromes S0 and S1 of an error pattern: symbol i is the coefficient of x^(33 − i). -/
def syndromes (e : ErrPat) : Nat × Nat :=
  e.foldl (fun s x => (s.1 ^^^ x.2, s.2 ^^^ mulAlpha x.2 (33 - x.1))) (0, 0)

/-- An error pattern with a difference added at a symbol. -/
def flip (e : ErrPat) (i x : Nat) : ErrPat :=
  Tab.set 0 e i (Tab.getD e i 0 ^^^ x)

/-- Two patterns together. -/
def add (a b : ErrPat) : ErrPat := b.foldl (fun p x => flip p x.1 x.2) a

/-- The check symbols P1 and P0 of 32 data bytes: the remainder of (Σ d_i x^(31 − i)) · x² by x² + 0x03·x + 0x02
(R234). -/
def check (data : Bytes) : Nat × Nat :=
  data.foldl (fun (r : Nat × Nat) b =>
    let q := r.1 ^^^ b.toNat
    (r.2 ^^^ xtime q ^^^ q, xtime q)) (0, 0)

/-- A sector with its check symbols, as it is stored: data bytes 0–31, P1, P0 (R234). -/
def encode (data : Bytes) : Bytes := data ++ [byte (check data).1, byte (check data).2]

/-- The outcomes of Table 8.4: no error, one symbol corrected (its number and the value XORed into it), the poison
marker, uncorrectable. -/
inductive Outcome where
  | ok | corrected (sym val : Nat) | marker | bad
  deriving DecidableEq, Repr

/-- Decode a codeword by its error pattern (R235). -/
def decode (e : ErrPat) : Outcome :=
  let s := syndromes e
  if s.1 = 0 ∧ s.2 = 0 then .ok
  else if s.1 = 0 then (if s.2 = 0x1C then .marker else .bad)
  else match (List.range 34).find? (fun j => mulAlpha s.1 j == s.2) with
    | some j => if s.2 = 0 then .bad else .corrected (33 - j) s.1
    | none => .bad

/-- What remains of the pattern after the decoder's correction. -/
def residue (e : ErrPat) : ErrPat :=
  match decode e with
  | .corrected i v => flip e i v
  | _ => e

/-- The poison marker: 0xFF in both check symbols (R236). -/
def poison : ErrPat := [(32, 0xFF), (33, 0xFF)]

/-- Data bytes with the differences of a pattern at `base …` applied. -/
def apply (e : ErrPat) (data : Bytes) : Bytes :=
  e.foldl (fun b x => if x.1 < b.length then b.modify x.1 (fun y => y ^^^ byte x.2) else b) data

end Ecc

/-! ### Byte memories: scratchpads and staging -/

namespace Memory

/-- What a byte that nothing has written reads as (assumption 3). -/
def unlisted : Byte := 0

/-- The canonical form of a byte memory: addresses rise strictly and no entry equals what an unlisted address reads
as. -/
def wf (m : List Host.Cell) : Bool := Tab.wf unlisted m

/-- Read one byte. -/
def read (m : List Host.Cell) (a : Nat) : Byte := Tab.getD m a unlisted

/-- Write one byte, keeping the canonical form. -/
def write (m : List Host.Cell) (a : Nat) (v : Byte) : List Host.Cell := Tab.set unlisted m a v

/-- Read `n` bytes from `a`. -/
def readN (m : List Host.Cell) (a n : Nat) : Bytes := (List.range n).map (fun i => read m (a + i))

/-- Write a run of bytes from `a`. -/
def writeN (m : List Host.Cell) (a : Nat) : Bytes → List Host.Cell
  | [] => m
  | b :: bs => writeN (write m a b) (a + 1) bs

end Memory

/-- The error pattern of the SRAM sector that holds an address. -/
def Dev.sramErr (d : Dev) (a : Nat) : ErrPat := d.ramErr.getD (a / 32) []

/-- The error pattern of an SRAM sector set. -/
def Dev.setSramErr (d : Dev) (a : Nat) (e : ErrPat) : Dev := { d with ramErr := Tab.set [] d.ramErr (a / 32) e }

/-- A symbol upset strikes an SRAM sector: symbol number and difference. -/
def Dev.upsetSram (d : Dev) (a : Nat) (ups : ErrPat) : Dev :=
  if ups.isEmpty then d else d.setSramErr a (Ecc.add (d.sramErr a) ups)

/-- One 32-byte SRAM sector as the decoder delivers it: bytes, corrected, poison marker, uncorrectable (R235). -/
def Dev.sramSector (d : Dev) (a : Nat) : Bytes × Ecc.Outcome :=
  let base := a / 32 * 32
  let raw := Memory.readN d.ram base 32
  let e := d.sramErr a
  if e.isEmpty then (raw, .ok)
  else match Ecc.decode e with
    | .marker => (raw, .marker)
    | .bad => (raw, .bad)
    | o => (Ecc.apply (Ecc.residue e) raw, o)

/-- The stored bytes replaced and the sector error free, or carrying the poison marker. -/
def Dev.sramStore (d : Dev) (a : Nat) (data : Bytes) (poison : Bool) : Dev :=
  let d := { d with ram := Memory.writeN d.ram a data }
  (List.range (ceilDiv (a % 32 + data.length) 32)).foldl
    (fun d i => d.setSramErr (a + 32 * i) (if poison then Ecc.poison else [])) d

/-- One sector of a scratchpad as a reader receives it, with the counting and the event of R107; the flag tells
poison. -/
def Dev.spSector (d : Dev) (core : Nat) (w : Initiator) (a : Nat) : Dev × Bytes × Bool :=
  let r := d.sramSector a
  match r.2 with
  | .ok => (d, r.1, false)
  | .corrected _ _ => (d.inc (B.core core) F.core_SP_CE_CNT, r.1, false)
  | .marker => (d, r.1, true)
  | .bad =>
    ((d.inc (B.core core) F.core_SP_UE_CNT).eventOf w 0x01 core 0x0228 (dtl [(2, w.sid), (2, core)]), r.1, true)

/-- The bytes of a 64-byte scratchpad word delivered to a reader. -/
def Dev.spWord (d : Dev) (core g : Nat) (w : Initiator) : Dev × Bytes × Bool :=
  let a := B.scratch core + g * 64
  let x := d.spSector core w a
  let y := x.1.spSector core w (a + 32)
  if x.2.2 || y.2.2 then y.1.poisonBytes else (y.1, x.2.1 ++ y.2.1, false)

/-- Bytes written into part of a 64-byte block of an SRAM that was read as `w`: the block takes the bytes as read, or
as stored where it was poisoned, and stays poisoned then. -/
def mergeStore (w : Dev × Bytes × Bool) (a : Nat) (data : Bytes) (poison : Bool) : Dev :=
  w.1.sramStore (a / 64 * 64)
    (patch (if w.2.2 then Memory.readN w.1.ram (a / 64 * 64) 64 else w.2.1) (a % 64) data) (poison || w.2.2)

/-- A write into a scratchpad: a whole 64-byte word clears its poison; a narrower write is merged into the word as
read, which stays poisoned where it was (R105, R107). -/
def Dev.spWrite (d : Dev) (core off : Nat) (data : Bytes) (poison : Bool) (w : Initiator) : Dev :=
  if off % 64 = 0 ∧ data.length = 64 then d.sramStore (B.scratch core + off) data poison
  else mergeStore (d.spWord core (off / 64) w) (B.scratch core + off) data poison

/-- The bytes of a run of scratchpad granules, each with its poison flag, for one reader. -/
def Dev.spRead (d : Dev) (core g n : Nat) (w : Initiator) : Dev × Bytes × List Bool :=
  (List.range n).foldl (fun (a : Dev × Bytes × List Bool) i =>
    let r := a.1.spWord core (g + i) w
    (r.1, a.2.1 ++ r.2.1, a.2.2 ++ [r.2.2])) (d, [], [])

/-- Write a run of bytes from a granule on; granule `i` is poisoned where the list says so. Bytes beyond the last
whole granule are merged (R84: bytes beyond the need of a class are not written). -/
def Dev.spWriteRun (d : Dev) (core g : Nat) (w : Initiator) (data : Bytes) (bad : List Bool) : Dev :=
  (chunks 64 data).zipIdx.foldl (fun d c => d.spWrite core ((g + c.2) * 64) c.1 (bad.getD c.2 false) w) d

/-- A run of bytes at offset `o` cut where the offset is a multiple of `n`: each piece with its offset. -/
def cutAt (n o : Nat) (data : Bytes) : List (Nat × Bytes) :=
  let head := data.take (n - o % n)
  (if head.isEmpty then [] else [(o, head)]) ++
    (chunks n (data.drop (n - o % n))).zipIdx.map (fun c => (o + (n - o % n) + n * c.2, c.1))

end Sys2Proof.Machine
end

