-- ==== Sys2Proof/Machine/Tags.lean ====
section
/-!
DEFINITION. Transaction tags (R46–R49): which tags are in use is the list `Dev.tags`; link tags of remote accesses
are counted from `Dev.remoteOps`.
-/

namespace Sys2Proof.Machine

/-- Tags in use by an owner. A flow engine's are those of the remote granules of its ring entries and classes
(R256). -/
def Dev.tagsUsed (d : Dev) (o : Owner) : Nat :=
  (d.tags.filter (fun t => t.owner == o)).length +
  match o with
  | .vault _ => 0
  | .port p => (d.remoteOps.filter (fun r => r.port == p)).length
  | .engine f => (d.remoteOps.filter (fun r => match r.op with
      | .ring e _ => e == f
      | .core n _ => 8 * (n / 64) + n % 64 / 8 == f
      | .host _ _ e => e == f
      | .ended e => e == f
      | .alone => false)).length

/-- Tags of an owner (Table 1.6). -/
def Owner.pool : Owner → Nat
  | .vault _ => 8192
  | .port _ => 6144
  | .engine _ => 448

/-- Tags of virtual channel `vc` in use at a link port: every remote window access travels in BULK (R335). -/
def Dev.linkTagsVc (d : Dev) (p vc : Nat) : Nat :=
  (d.tags.filter (fun t => t.owner == .port p && t.vc == vc)).length +
  (if vc = 3 then (d.remoteOps.filter (fun r => r.port == p)).length else 0)

/-- Tags beyond the 256 of each channel, drawn from the 5,120 shared ones (R49). -/
def Dev.linkShared (d : Dev) (p : Nat) : Nat :=
  ((List.range 4).map (fun v => d.linkTagsVc p v - 256)).sum

/-- A tag is free for this owner and, at a link port, this virtual channel (R46, R49). -/
def Dev.tagFree (d : Dev) (o : Owner) (vc : Nat := 3) : Bool :=
  match o with
  | .port p => decide (d.linkTagsVc p vc < 256) || decide (d.linkShared p < 5120)
  | _ => decide (d.tagsUsed o < o.pool)

/-- Whether tag number `i` of an owner is in use. -/
def Dev.tagBusy (d : Dev) (o : Owner) (i : Nat) : Bool :=
  d.tags.any (fun t => t.owner == o && t.id == i) ||
  match o with
  | .port p => d.remoteOps.any (fun r => r.port == p && r.tag == i)
  | _ => false

/-- The first tag number not in use from `i` on, cyclically; `n` bounds the search. -/
def Dev.tagFrom (d : Dev) (o : Owner) : Nat → Nat → Nat
  | 0, i => i
  | n + 1, i => if d.tagBusy o i then d.tagFrom o n ((i + 1) % o.pool) else i

/-- A free tag number of an owner. Which one is the implementation's choice: the search starts at a free value. -/
def Dev.pickTag (d : Dev) (o : Owner) : Nat × Dev :=
  let v := d.fresh
  (v.2.tagFrom o (v.2.tags.length + v.2.remoteOps.length + 1) (v.1 % o.pool), v.2)

/-- A tag taken for an accepted access. -/
def Dev.takeTag (d : Dev) (o : Owner) (q : Req) (dramWin : Option Nat := none) : Dev :=
  let v := d.pickTag o
  { v.2 with tags := v.2.tags ++ [{ owner := o, id := v.1, ctx := q.ctx, sid := q.sid, va := q.va, dramWin := dramWin }] }

end Sys2Proof.Machine
end

