-- ==== Sys2Proof/Machine/LinkOps.lean ====
section
/-!
DEFINITION. Packets, routing and sending over the Biruf links (R331–R341): what every command that sends a packet
shares.
Choices of the model: log entries 88, 91, 197, 198.
-/

namespace Sys2Proof.Machine

/-- STATE of a link port (Table 12.3). -/
def Dev.portState (d : Dev) (p : Nat) : Nat := d.g (B.link p) F.link_STATE

/-- The port is UP and its domain serves. -/
def Dev.portUp (d : Dev) (p : Nat) : Bool := d.portState p == 3 && d.domUp (Dom.port p)

/-- One port's further state. -/
def Dev.port (d : Dev) (p : Nat) : Port := d.ports.getD p {}

/-- A port's further state replaced. -/
def Dev.setPort (d : Dev) (p : Nat) (x : Port) : Dev := { d with ports := Tab.set {} d.ports p x }

/-- Size of torus dimension 0, 1 or 2 (R336); a field of 0 counts as 1. -/
def Dev.dim (d : Dev) (i : Nat) : Nat :=
  max 1 (d.g B.link0 (if i = 0 then F.link0_DIM_X else if i = 1 then F.link0_DIM_Y else F.link0_DIM_Z))

/-- Coordinate `i` of a package ID (R336). -/
def Dev.coord (d : Dev) (q i : Nat) : Nat :=
  if i = 0 then q % d.dim 0 else if i = 1 then q / d.dim 0 % d.dim 1 else q / (d.dim 0 * d.dim 1)

/-- The offset of a destination in dimension `i`, and the port of its direction; none where the offset is 0 (R337). -/
def Dev.hop (d : Dev) (dst i : Nat) : Option Nat :=
  let D := d.dim i
  let o := (d.coord dst i % D + D - d.coord d.pkgId i % D) % D
  if o = 0 then none else if o ≤ D - o then some (2 * i) else some (2 * i + 1)

/-- The deterministic port toward a destination (R337); none where it is this package. -/
def Dev.detPort (d : Dev) (dst : Nat) : Option Nat :=
  match d.hop dst 0 with
  | some p => some p
  | none => match d.hop dst 1 with
    | some p => some p
    | none => d.hop dst 2

/-- The lowest-numbered UP port in a dimension with a non-zero offset, in its direction (R338). -/
def Dev.escapePort (d : Dev) (dst : Nat) : Option Nat :=
  (([d.hop dst 0, d.hop dst 1, d.hop dst 2].filterMap id).filter (fun p => d.portUp p)).min?

/-- The hop over a port crosses the wrap link of its dimension (R337). -/
def Dev.wraps (d : Dev) (p : Nat) : Bool :=
  let c := d.coord d.pkgId (p / 2)
  if p % 2 = 0 then c + 1 == d.dim (p / 2) else c == 0

/-- The 32-byte header of a packet (Table 12.4). -/
def Pkt.header (p : Pkt) (esc : Bool) : Bytes :=
  [byte p.dst, byte p.src, byte p.kind, byte (b2n p.clear + 2 * b2n esc), byte p.slot, byte p.rstat] ++
  natLE 2 p.payload.length ++ natLE 8 p.addr ++ natLE 8 p.nonce ++ natLE 2 p.tag ++ natLE 2 0 ++ natLE 4 p.pmap

/-- The bytes of a packet on the lanes: header, payload, tag (R339). A clear packet carries no tag. -/
def Pkt.bytes (p : Pkt) : Bytes := p.header p.escaped ++ p.payload ++ (if p.clear then [] else padTo 16 p.mac)

/-- A packet read from its bytes (Table 12.4); none where they are too few. -/
def Pkt.parse (b : Bytes) : Option Pkt :=
  let len := fieldN b 6 2
  let clear := bit (fieldN b 3 1) 0
  if b.length < 32 + len + (if clear then 0 else 16) then none
  else some {
    dst := fieldN b 0 1, src := fieldN b 1 1, kind := fieldN b 2 1, clear := clear,
    escaped := bit (fieldN b 3 1) 1, slot := fieldN b 4 1, rstat := fieldN b 5 1,
    addr := fieldN b 8 8, nonce := fieldN b 16 8, tag := fieldN b 24 2, pmap := fieldN b 28 4,
    payload := (b.drop 32).take len, mac := if clear then [] else (b.drop (32 + len)).take 16 }

/-- The GCM nonce of a packet (R340). -/
def Pkt.iv (p : Pkt) : Bytes := byte p.src :: (zeros 3 ++ natLE 8 p.nonce)

/-- STATE of a job-key slot: 0 EMPTY, 1 LOADED, 2 FAILED (Table 15.9). -/
def Dev.slotState (d : Dev) (s : Nat) : Nat := d.g B.sec F.sec_JK_STATE s

/-- The peer set of a slot, a bit for each package ID. -/
def Dev.slotPeers (d : Dev) (s : Nat) : Nat := d.g B.sec F.sec_JK_PEERS s

/-- The job key of a slot. -/
def Dev.slotKey (d : Dev) (s : Nat) : Bytes := d.jobKeys.getD s []

/-- Virtual channel of a packet kind (R335): 0 SAFETY, 1 CONTROL, 2 MAP, 3 BULK; a collective message names its
own. -/
def kindVc (kind : Nat) : Nat :=
  if kind = 0x0C then 0 else if kind = 7 then 2 else if kind ≤ 4 then 3 else 1

/-- The payloads of the flits a packet is cut into: 240 bytes each (R331, R339). -/
def Pkt.data (p : Pkt) : List (Bytes × Nat) := (chunks 240 p.bytes).map (fun c => (c, 0))

/-- ESCAPED set in the header that the first flit carries (Table 12.4). -/
def escData (l : List (Bytes × Nat)) : List (Bytes × Nat) :=
  match l with
  | [] => []
  | c :: r => (patch c.1 3 [byte (fieldN c.1 3 1 ||| 2)], c.2) :: r

/-- Buffers freed, as the CREDITS field reports them: byte v for VC v. -/
def Port.credField (x : Port) : Nat :=
  leNat ((List.range 4).map (fun v => byte (x.freed.getD v 0)))

/-- A flit of a VC and class may be sent: a credit is left, and room in the replay buffer (R332, R335). -/
def Port.room (x : Port) (vc cls : Nat) : Bool :=
  decide (((x.sent.getD vc []).filter (· == cls)).length < 64) && decide (x.replay.length < 1024)

/-- The oldest packet waiting in a class of a VC. -/
def Port.headOf (x : Port) (vc cls : Nat) : Option TxWait := x.txq.find? (fun w => w.vc == vc && w.cls == cls)

/-- The packet whose flit the VC sends next: the oldest that heads its class, with a flit at hand and a credit. -/
def Port.ready (x : Port) (vc : Nat) : Option TxWait :=
  x.txq.find? (fun w => w.vc == vc && !w.data.isEmpty && x.room vc w.cls && x.headOf vc w.cls == some w)

/-- The weight of a VC at a port; 0 counts as 1 (Table 12.8). -/
def Dev.vcWeight (d : Dev) (p v : Nat) : Nat :=
  max 1 (d.g (B.link p) (match v with
    | 0 => F.link_W0
    | 1 => F.link_W1
    | 2 => F.link_W2
    | _ => F.link_W3))

/-- The VC that sends next and the flits left of its turn: rounds of W_v flits over the VCs that can send
(R50, R335). -/
def Dev.nextVc (d : Dev) (p : Nat) : Option (Nat × Nat) :=
  let x := d.port p
  if 0 < x.rrLeft && (x.ready x.rrVc).isSome then some (x.rrVc, x.rrLeft - 1)
  else (((List.range 4).map (fun i => (x.rrVc + 1 + i) % 4)).find? (fun v => (x.ready v).isSome)).map
    (fun v => (v, d.vcWeight p v - 1))

/-- The flit a waiting packet sends next (Table 12.2): SOP on its first, EOP on its last, its class in DCLASS and ESC,
BAD_END on the last flit of a packet cut short. -/
def Port.flitOf (x : Port) (w : TxWait) (c : Bytes × Nat) : Flit :=
  let last := w.data.length == 1 && !w.more
  { ftype := 1
    flags := b2n (!w.started) + 2 * b2n last + 4 * b2n (last && w.bad) + 16 * b2n (w.cls == 1) + 32 * b2n (w.cls == 2)
    vc := w.vc, seq := x.txSeq, ack := (x.rxSeq + 4095) % 4096, credits := x.credField, payload := c.1, marks := c.2 }

/-- One flit of a packet sent against its credit (R332, R335); a message sent whole waits for its acknowledgement. -/
def Dev.sendFlit (d : Dev) (p : Nat) (w : TxWait) : Dev :=
  let x := d.port p
  match w.data with
  | [] => d
  | c :: rest =>
    let f := x.flitOf w c
    let last := rest.isEmpty && !w.more
    let x := { x with
      txSeq := (x.txSeq + 1) % 4096, replay := x.replay ++ [f], freed := []
      sent := Tab.set [] x.sent w.vc (x.sent.getD w.vc [] ++ [w.cls])
      txq := if last then x.txq.erase w else x.txq.replace w { w with data := rest, started := true }
      msgs := match w.held with
        | some i => if last then x.msgs ++ [⟨f.seq, w.pkt, i⟩] else x.msgs
        | none => x.msgs }
    { (d.setPort p x).incUnit (B.link p) F.link_FLITS_TX_CNT 1 with linkOut := d.linkOut ++ [(p, f)] }

/-- Flits sent from an UP port as far as credits and the replay buffer reach; `n` bounds the count. -/
def Dev.pumpGo (d : Dev) (p : Nat) : Nat → Dev
  | 0 => d
  | n + 1 =>
    match d.nextVc p with
    | none => d
    | some (v, left) =>
      match (d.port p).ready v with
      | none => d
      | some w => ((d.setPort p { d.port p with rrVc := v, rrLeft := left }).sendFlit p w).pumpGo p n

/-- What waits at a port is sent while the port is UP. -/
def Dev.pump (d : Dev) (p : Nat) : Dev :=
  if d.portUp p then d.pumpGo p ((d.port p).txq.map (fun w => w.data.length)).sum else d

/-- A packet put on an output port. -/
def Dev.enqueue (d : Dev) (p : Nat) (w : TxWait) : Dev :=
  let x := d.port p
  (d.setPort p { x with txq := x.txq ++ [{ w with since := d.varve }] }).pump p

/-- A packet that finds no port is dropped and counted, and LINK_ROUTE_DROP raised (R338). -/
def Dev.routeDrop (d : Dev) (p dst : Nat) : Dev :=
  (d.inc (B.link p) F.link_ROUTE_DROP_CNT).event 0x06 p 0x0714 (dtl [(1, dst), (1, p)])

/-- A packet put on its way (R337, R338): to its deterministic port, or by an escape where that port is not UP. The port
it waits at, or none where no port qualified and it is dropped. -/
def Dev.route (d : Dev) (w : TxWait) : Dev × Option Nat :=
  match d.detPort w.pkt.dst with
  | none => (d, none)
  | some p =>
    let same := match w.from_ with
      | some f => f / 2 == p / 2
      | none => false
    if d.portUp p then
      let cls := if w.pkt.escaped then 2 else if d.wraps p || (same && w.inCls == 1) then 1 else 0
      (d.enqueue p { w with cls := cls }, some p)
    else if w.pkt.escaped then (d.routeDrop p w.pkt.dst, none)
    else match d.escapePort w.pkt.dst with
      | some e => ((d.inc (B.link e) F.link_ESCAPE_CNT).enqueue e
          { w with pkt := { w.pkt with escaped := true }, cls := 2, data := escData w.data }, some e)
      | none => (d.routeDrop p w.pkt.dst, none)

/-- The port a packet of this package would leave by: its deterministic port, or its escape (R337, R338). -/
def Dev.outPort (d : Dev) (dst : Nat) : Option Nat :=
  match d.detPort dst with
  | some p => if d.portUp p then some p else d.escapePort dst
  | none => none

/-- The TAG a packet carries: tags are numbered within a port, so the port stands in its upper three bits. -/
def wireTag (p n : Nat) : Nat := p * 8192 + n

/-- Encrypt and authenticate a packet of this package under its slot, with the next NONCE_CTR (R340); a slot whose
NONCE_CTR reaches 2⁶⁴ − 1 enters FAILED (R434). -/
def Dev.sealPkt (d : Dev) (k : Pkt) : Dev × Pkt :=
  let c := d.nonceCtr.getD k.slot 0 + 1
  let k := { k with src := d.pkgId, nonce := c, clear := false }
  let e := Crypto.gcmEnc (d.slotKey k.slot) k.iv (k.header false) k.payload
  let d := if c + 2 = 2 ^ 64 then d.p B.sec F.sec_JK_STATE 2 k.slot else d
  ({ d with nonceCtr := Tab.set 0 d.nonceCtr k.slot c }, { k with payload := e.1, mac := e.2 })

/-- A packet of this package routed, in the clear or sealed. -/
def Dev.routeOwn (d : Dev) (k : Pkt) (vc : Nat) (held : Option Nat := none) : Dev × Option Nat :=
  d.route { pkt := k, vc := vc, cls := 0, from_ := none, data := k.data, held := held }

/-- Send an encrypted packet that an access or its answer makes: the access itself holds the tag. False where its slot
is not LOADED or no route is left. -/
def Dev.sendPkt (d : Dev) (k : Pkt) (vc : Nat) : Dev × Bool :=
  if d.slotState k.slot ≠ 1 then (d, false)
  else
    let s := d.sealPkt k
    let r := s.1.routeOwn s.2 vc
    (r.1, r.2.isSome)

/-- Send a message of this package (R46–R49): it holds a link tag of its virtual channel until TAG_RETIRE, and waits
while none is free. False where its slot is not LOADED or no route is left. -/
def Dev.sendMsg (d : Dev) (k : Pkt) (vc : Nat) (fwd : Option (Nat × Nat) := none) : Dev × Bool :=
  if !k.clear && d.slotState k.slot != 1 then (d, false)
  else match d.outPort k.dst with
    | none => ((d.routeOwn { k with src := d.pkgId } vc).1, false)
    | some p =>
      if !d.tagFree (.port p) vc then ({ d with unsent := d.unsent ++ [⟨p, k, vc, fwd⟩] }, true)
      else
        let t := d.pickTag (.port p)
        let k := { k with tag := wireTag p t.1 }
        let s : Dev × Pkt := if k.clear then (t.2, { k with src := d.pkgId, mac := [] }) else t.2.sealPkt k
        let hold : Tag := { owner := .port p, id := t.1, ctx := 0, sid := 0, vc := vc, fwd := fwd }
        let r := ({ s.1 with tags := s.1.tags ++ [hold] } : Dev).routeOwn s.2 vc (some t.1)
        (r.1, r.2.isSome)

/-- Send an answer in the clear: NAK_AUTH or UNREACH (R340). -/
def Dev.sendClear (d : Dev) (k : Pkt) : Dev :=
  (d.routeOwn { k with src := d.pkgId, clear := true, mac := [] } 1).1

/-- A message's tag may retire: no flit of it is left to be sent or acknowledged (R47). -/
def Dev.msgDone (d : Dev) (p id : Nat) : Bool :=
  !(d.port p).txq.any (fun w => w.held == some id) && !(d.port p).msgs.any (fun m => m.held == id)

/-- The members of a peer set in ascending package ID. -/
def members (set : Nat) : List Nat := (List.range 64).filter (fun q => bit set q)

end Sys2Proof.Machine
end

