-- ==== Sys2Proof/Machine/Blocks.lean ====
section
/-!
DEFINITION. The register blocks of the address map (Table 1.3): which block an address names, and its power domain.
Choices of the model: log entry 81.
-/

namespace Sys2Proof.Machine

/-- A register block (Table 1.3). -/
inductive Blk where
  | core (n : Nat) | cluster (c : Nat) | region (r : Nat) | vault (v : Nat) | link (p : Nat)
  | firn | moraine | sastrugi | spu (r : Nat) | sync (s : Nat) | mbx (m : Nat)
  | sec | rime | pcc | mmp | mgmt | dictm | fe (f : Nat)
  deriving DecidableEq, Repr

/-- The block and the offset in it of an address within the register ranges of Table 1.3; none in a gap. -/
def blkAt (pa : Nat) : Option (Blk × Nat) :=
  let o := pa - 0x2000000000
  if pa < 0x2000000000 then none
  else if o < 0x2000000 then some (.core (o / 0x10000), o % 0x10000)
  else if o < 0x2200000 then some (.cluster ((o - 0x2000000) / 0x10000), o % 0x10000)
  else if o < 0x2280000 then some (.region ((o - 0x2200000) / 0x10000), o % 0x10000)
  else if o < 0x2300000 then none
  else if o < 0x2380000 then some (.vault ((o - 0x2300000) / 0x10000), o % 0x10000)
  else if o < 0x2400000 then none
  else if o < 0x2460000 then some (.link ((o - 0x2400000) / 0x10000), o % 0x10000)
  else if o < 0x2500000 then none
  else if o < 0x2510000 then some (.firn, o % 0x10000)
  else if o < 0x2520000 then some (.moraine, o % 0x10000)
  else if o < 0x2530000 then some (.sastrugi, o % 0x10000)
  else if o < 0x2538000 then some (.spu ((o - 0x2530000) / 0x1000), o % 0x1000)
  else if o < 0x2600000 then none
  else if o < 0x2640000 then some (.sync ((o - 0x2600000) / 0x10), o % 0x10)
  else if o < 0x2700000 then none
  else if o < 0x2710000 then some (.mbx ((o - 0x2700000) / 0x400), o % 0x400)
  else if o < 0x2800000 then none
  else if o < 0x2810000 then some (.sec, o % 0x10000)
  else if o < 0x2900000 then none
  else if o < 0x2910000 then some (.rime, o % 0x10000)
  else if o < 0x2A00000 then none
  else if o < 0x2A10000 then some (.pcc, o % 0x10000)
  else if o < 0x2B00000 then none
  else if o < 0x2B10000 then some (.mmp, o % 0x10000)
  else if o < 0x2C00000 then none
  else if o < 0x2C10000 then some (.mgmt, o % 0x10000)
  else if o < 0x2D00000 then none
  else if o < 0x2D10000 then some (.dictm, o % 0x10000)
  else if o < 0x2E00000 then none
  else if o < 0x2E10000 then some (.fe ((o - 0x2E00000) / 0x400), o % 0x400)
  else none

/-- The power domain the block sits in (Table 16.3); the always-on block has none. -/
def Blk.dom : Blk → Option Nat
  | .core n => some (Dom.cluster (n / 16))
  | .cluster c => some (Dom.cluster c)
  | .region r => some (Dom.region r)
  | .vault v => some (Dom.vault v)
  | .link p => some (Dom.port p)
  | .firn => some Dom.firn
  | .moraine => some Dom.moraine
  | .sastrugi => some Dom.sastrugi
  | .spu r => some (Dom.region r)
  | .sync s => some (Dom.region (s / 2048))
  | .mbx _ => some Dom.mgmt
  | .sec => some Dom.security
  | .rime => some Dom.rime
  | .pcc => none
  | .mmp => some Dom.mmp
  | .mgmt => some Dom.mgmt
  | .dictm => some Dom.mgmt
  | .fe f => some (Dom.region (f / 8))

/-- The block answers: its power domain is on and not fenced, and so is the spine (R22). -/
def Dev.blkUp (d : Dev) (b : Blk) : Bool :=
  (match b.dom with
   | some k => d.domUp k
   | none => true) && !d.domFenced Dom.spine

end Sys2Proof.Machine
end

