-- ==== Sys2Proof/Machine/Mem.lean ====
section
/-!
DEFINITION. Memory as the fabric reaches it: decode failure (R22), the region descriptors (R278), interleave (R228,
R229), the vault controllers' reads and writes (R240, R241), staging (R316), remote windows (R342, R343), and
translation (R264–R268, R481).
Choices of the model: log entries 14, 53, 54, 55, 56, 58, 61, 62, 66, 74, 190, 191, 192, 195, 211.
-/

namespace Sys2Proof.Machine

/-! ### Decode failure and firewall -/

/-- An access that meets decode failure: poisoned zeros or a dropped write, and an event naming stream and address
(R22). -/
def Dev.decodeFail (d : Dev) (q : Req) : Dev × Rsp :=
  (d.event 0x13 0 0x0200 (dtl [(8, q.pa), (2, q.sid)]) q.ctx q.secure, ⟨zeros q.size, true, 0, 0⟩)

/-- First address of region descriptor `k`'s range. -/
def Dev.rdBase (d : Dev) (k : Nat) : Nat := d.g B.mgmt F.mgmt_RD_BASE k * 0x10000
/-- First address after region descriptor `k`'s range. -/
def Dev.rdEnd (d : Dev) (k : Nat) : Nat := (d.g B.mgmt F.mgmt_RD_LIMIT k + 1) * 0x10000

/-- The lowest-numbered enabled region descriptor that covers an address (R229, R278). -/
def Dev.rdFor (d : Dev) (pa : Nat) : Option Nat :=
  (List.range 64).find? (fun k => d.gb B.mgmt F.mgmt_RD_EN k && decide (d.rdBase k ≤ pa) && decide (pa < d.rdEnd k))

/-- Whether a descriptor admits an access (R278). -/
def Dev.rdAdmits (d : Dev) (k : Nat) (q : Req) : Bool :=
  (!d.gb B.mgmt F.mgmt_RD_SECURE k || q.secure) && bit (d.g B.mgmt F.mgmt_CTX_MASK k) q.ctx &&
  (d.gb B.mgmt F.mgmt_SID_ANY k ||
    (decide (d.g B.mgmt F.mgmt_SID_LO k ≤ q.sid) && decide (q.sid ≤ d.g B.mgmt F.mgmt_SID_HI k))) &&
  (if q.wr then d.gb B.mgmt F.mgmt_PERM_W k else d.gb B.mgmt F.mgmt_PERM_R k)

/-- A refusal of the region descriptors, counted and logged (R278). -/
def Dev.fwRefuse (d : Dev) (q : Req) (k : Option Nat) : Dev :=
  let d := match k with
    | some k => d.inc B.mgmt F.mgmt_RD_DENY_CNT k
    | none => d.inc B.mgmt F.mgmt_FW_DENY_CNT
  let d := if d.gb B.mgmt F.mgmt_FW_DENY_VALID then d
    else ((((((((d.p B.mgmt F.mgmt_DENY_PA q.pa).p B.mgmt F.mgmt_DENY_DESC (k.getD 0)).pb B.mgmt F.mgmt_DENY_NONE
      k.isNone).pb B.mgmt F.mgmt_DENY_WRITE q.wr).p B.mgmt F.mgmt_DENY_CTX q.ctx).pb B.mgmt F.mgmt_DENY_SECURE
      q.secure).p B.mgmt F.mgmt_DENY_STREAM q.sid).pb B.mgmt F.mgmt_FW_DENY_VALID true).p B.mgmt F.mgmt_DENY_TIME d.t32
  d.eventLim 0x11 0 0x0204 (dtl [(4, q.pa / 0x10000)]) q.ctx q.secure

/-- The region descriptors' verdict on an access (R278): an uncovered address is admitted to context 0 in the secure
world alone. -/
def Dev.fwCheck (d : Dev) (q : Req) : Dev × Bool :=
  match d.rdFor q.pa with
  | some k => if d.rdAdmits k q then (d, true) else (d.fwRefuse q (some k), false)
  | none => if q.secure && q.ctx == 0 then (d, true) else (d.fwRefuse q none, false)

/-! ### Vaults -/

/-- Bytes of one vault. -/
def vaultBytes : Nat := 0x180000000

/-- Lines of one vault (Table 8.1). -/
def vaultLines : Nat := 0x6000000

/-- The interleave granule of an ILV code. -/
def ilvGranule (c : Nat) : Nat := if c = 1 then 0x1000 else if c = 2 then 0x10000 else 0x200000

/-- The vault group a range names: first vault and number of vaults (R229). -/
def vaultGroup (lo hi : Nat) : Option (Nat × Nat) :=
  let n := (hi - lo) / vaultBytes
  let v0 := lo / vaultBytes
  if (n = 2 ∨ n = 4 ∨ n = 8) ∧ (hi - lo) % vaultBytes = 0 ∧ lo % vaultBytes = 0 ∧ v0 % n = 0 ∧ v0 + n ≤ 8
  then some (v0, n) else none

/-- Vault and vault offset of a DRAM address (R228, R229). -/
def Dev.vaultOf (d : Dev) (pa : Nat) : Nat × Nat :=
  match d.rdFor pa with
  | some k =>
    let c := d.g B.mgmt F.mgmt_ILV k
    match (if c = 0 then none else vaultGroup (d.rdBase k) (d.rdEnd k)) with
    | some (v0, n) =>
      let G := ilvGranule c
      let o := pa - v0 * vaultBytes
      let i := o / G
      (v0 + i % n, i / n * G + o % G)
    | none => (pa / vaultBytes, pa % vaultBytes)
  | none => (pa / vaultBytes, pa % vaultBytes)

/-- One vault's further state. -/
def Dev.vlt (d : Dev) (v : Nat) : Vault := d.vaults.getD v {}

/-- A vault's further state replaced. -/
def Dev.setVlt (d : Dev) (v : Nat) (x : Vault) : Dev := { d with vaults := Tab.set {} d.vaults v x }

/-- A ZERO line (R250). -/
def zeroLine : Line := ⟨zeros 64, 0, true, false, 0, 0, 0, []⟩

/-- The stored line at a line key; none where it holds the arbitrary bits of power-on (R250). -/
def Dev.lineAt (d : Dev) (v key : Nat) : Option Line :=
  match d.dram.get? key with
  | some l => some l
  | none => if (d.vlt v).zeroed then some zeroLine else none

/-- The current key of a context at the vaults, and its generation (R238, R242). -/
def Dev.keyOf (d : Dev) (c : Nat) : Nat × Nat := (d.ctxKey.getD c 0, d.g B.sec F.sec_KEY_GEN c)

/-! ### The stored line (R232–R234, R238, R239) -/

/-- The XTS key pair and the MAC key of a key number: 64 and 32 bytes (R238). -/
def xtsKeys (k : Nat) : Bytes := (List.range 64).map (Config.contextKey k)
/-- The MAC key of a key number. -/
def macKey (k : Nat) : Bytes := (List.range 32).map (fun i => Config.contextKey k (64 + i))

/-- The integrity tag over 64 ciphertext bytes: the leftmost 64 bits of AES-CMAC over ciphertext, PA, context and
KEY_GEN (R239). -/
def lineTag (key : Nat) (cipher : Bytes) (pa c gen : Nat) : Bytes :=
  (Crypto.cmac (macKey key) (cipher ++ natLE 6 pa ++ [byte c, byte gen])).take 8

/-- The ciphertext of a line: AES-256-XTS with the data-unit number PA >> 6; a ZERO line is not encrypted (R238). -/
def Line.cipher (l : Line) : Bytes :=
  if l.zero then padTo 64 l.data else Crypto.xtsEnc (xtsKeys l.key) (l.pa / 64) l.data

/-- TAG as it was stored; a ZERO line's is zero. -/
def Line.tag (l : Line) : Bytes := if l.zero then zeros 8 else lineTag l.key l.cipher l.pa l.ctx l.gen

/-- Bits 15:0 of the attribute word (Table 8.3). -/
def Line.attr (l : Line) : Nat := l.ctx + 16 * b2n l.zero + 32 * b2n l.poison + 256 * l.gen

/-- The 80 bytes a line was stored as: two sectors of ciphertext, their check symbols, the tag, the attribute word with
its complement (Tables 8.2, 8.3). -/
def Line.written (l : Line) : Bytes :=
  let c := l.cipher
  let k := fun (s : Nat) => let p := Ecc.check ((c.drop (32 * s)).take 32)
                            [byte p.1, byte p.2]
  c ++ k 0 ++ k 1 ++ l.tag ++ natLE 2 l.attr ++ natLE 2 (65535 - l.attr % 65536)

/-- The 80 bytes as they stand, with the differences that have struck them. -/
def Line.stored (l : Line) : Bytes := Ecc.apply l.err l.written

/-- Symbol number in sector `s` of a stored byte, and back (Table 8.2). -/
def sectorErr (e : ErrPat) (s : Nat) : ErrPat :=
  (e.filterMap (fun x =>
    if 32 * s ≤ x.1 ∧ x.1 < 32 * s + 32 then some (x.1 - 32 * s, x.2)
    else if x.1 = 0x40 + 2 * s then some (32, x.2)
    else if x.1 = 0x41 + 2 * s then some (33, x.2) else none))

/-- The stored byte of symbol `i` of sector `s` (Table 8.2). -/
def symByte (s i : Nat) : Nat := if i < 32 then 32 * s + i else 0x40 + 2 * s + (i - 32)

/-- The lane a corrected symbol names: byte position × 8 + lowest set bit of S0 (R247). -/
def laneOf (s i v : Nat) : Nat :=
  symByte s i * 8 + ((List.range 8).find? (fun b => bit v b)).getD 0

/-- One correction charged to its lane; at LANE_THRESH in a pass the pseudo-channel's LANE_SUSPECT sets (R247). -/
def Dev.laneHit (d : Dev) (v pc lane : Nat) : Dev :=
  let x := d.vlt v
  let n := x.laneCnt.getD (pc * 640 + lane) 0 + 1
  let d := d.setVlt v { x with laneCnt := x.laneCnt.put (pc * 640 + lane) n }
  if n = d.g (B.vault v) F.vault_LANE_THRESH then
    ((d.p (B.vault v) F.vault_LANE lane pc).pb (B.vault v) F.vault_SUSPECT true pc).event 0x04 v 0x022B
      (dtl [(2, pc), (2, lane)])
  else d

/-- One symbol corrected on access: CE_CNT, PC_CE_CNT, the threshold event and the lane (R247, Table 8.11). -/
def Dev.vaultCe (d : Dev) (v pc lane ctx : Nat) (secure : Bool) : Dev :=
  let d := (d.inc (B.vault v) F.vault_CE_CNT).inc (B.vault v) F.vault_PC_CE_CNT pc
  let n := d.g (B.vault v) F.vault_CE_CNT
  let t := d.g (B.vault v) F.vault_CE_EVT_THRESH
  let d := if t ≠ 0 ∧ n % t = 0 then d.event 0x04 v 0x0220 (dtl [(1, v), (4, n)]) ctx secure else d
  d.laneHit v pc lane

/-- A failure of Table 8.5 or of the scrubber: counted, logged as the first since ERR_VALID was cleared, and raised
within the limit of R244. -/
def Dev.vaultErr (d : Dev) (v : Nat) (cnt : Fld) (status pa ctx sid : Nat) (detail : Bytes)
    (secure : Bool) : Dev :=
  let b := B.vault v
  let d := d.inc b cnt
  let d := if d.gb b F.vault_ERR_VALID then d
    else (((((d.p b F.vault_ERR_ADDR pa).p b F.vault_ERR_CAUSE status).p b F.vault_ERR_CTX ctx).p b F.vault_ERR_STREAM
      sid).p b F.vault_ERR_TIME d.t32).pb b F.vault_ERR_VALID true
  d.eventLim 0x04 v status detail ctx secure

/-- The attribute word's error bytes: whether the two copies agree, and the difference in bits 15:0 (R233). -/
def attrErr (e : ErrPat) : Bool × Nat :=
  let b := fun i => Tab.getD e i 0
  (b 0x4C == b 0x4E && b 0x4D == b 0x4F, b 0x4C + 256 * b 0x4D)

/-- A line delivered poisoned. -/
def Dev.poisonLine (d : Dev) : Dev × Rsp := (d.poisonBytes.1, ⟨d.poisonBytes.2.1, true, 0, 0⟩)

/-- The ciphertext the decoder delivers: each sector's bytes with what remains of its differences (R235). -/
def Line.decoded (l : Line) : Bytes :=
  [0, 1].flatMap (fun s => Ecc.apply (Ecc.residue (sectorErr l.err s)) ((l.cipher.drop (32 * s)).take 32))

/-- TAG as it stands. -/
def Line.tagNow (l : Line) : Bytes :=
  Ecc.apply (l.err.filterMap (fun x => if 0x44 ≤ x.1 ∧ x.1 < 0x4C then some (x.1 - 0x44, x.2) else none)) l.tag

/-- Nothing that the tag covers has changed since the line was written under this key, context and address, and the tag
itself stands as it was, so the tag recomputed is the one stored. -/
def Line.intact (l : Line) (pa c : Nat) (key : Nat × Nat) (rest : Bool) : Bool :=
  !rest && decide (l.zero = false ∧ l.ctx = c ∧ l.gen = key.2 ∧ l.key = key.1 ∧ l.pa = pa) &&
  !l.err.any (fun x => decide (0x44 ≤ x.1 ∧ x.1 < 0x4C))

/-- Check 7 and what follows it: the tag recomputed from the stored line under the current keys equals TAG, and the data
is decrypted; none where it does not (R239, R240). -/
def Line.open_ (l : Line) (pa c : Nat) (key : Nat × Nat) (rest : Bool) : Option Bytes :=
  if l.intact pa c key rest then some l.data
  else if lineTag key.1 l.decoded pa c key.2 = l.tagNow then some (Crypto.xtsDec (xtsKeys key.1) (pa / 64) l.decoded)
  else none

/-- Checks 3 to 8 of Table 8.5 on a line whose sectors decode, `rest` where what they decode to differs from what was
written: the data or poison. -/
def Dev.vaultChecks (d : Dev) (v pa c sid : Nat) (secure : Bool) (l : Line) (rest : Bool) : Dev × Rsp :=
  let w := l.attr ^^^ (attrErr l.err).2
  let bad := fun (d : Dev) => d.poisonLine
  let key := d.keyOf c
  if bit w 4 then (d, ⟨zeros 64, false, 0, 0⟩)
  else if bit w 5 then bad (d.inc (B.vault v) F.vault_POISON_RD_CNT)
  else if bits w 3 0 ≠ c then
    bad (d.vaultErr v F.vault_CTX_MISMATCH_CNT 0x0223 pa c sid (dtl [(8, pa), (1, bits w 3 0), (1, c)]) secure)
  else if bits w 15 8 ≠ key.2 then
    bad (d.vaultErr v F.vault_KEY_STALE_CNT 0x0224 pa c sid (dtl [(8, pa), (1, bits w 15 8)]) secure)
  else match l.open_ pa c key rest with
    | some data => (d, ⟨data, false, 0, 0⟩)
    | none => bad (d.vaultErr v F.vault_TAG_FAIL_CNT 0x0222 pa c sid (dtl [(8, pa), (1, c)]) secure)

/-- A read of line `L` of vault `v` by context `c` under the checks of Table 8.5 (R240). A line of arbitrary bits
fails one of them, which one is a free value (R250). Contents behind a failed DRAM rail read poisoned (R468). -/
def Dev.vaultRead (d : Dev) (v L pa c sid : Nat) (secure : Bool) : Dev × Rsp :=
  let key := v * vaultLines + L
  let b := B.vault v
  if d.pcc.dramDead then d.poisonLine
  else match d.lineAt v key with
  | none =>
    let f := d.fresh
    let d := f.2
    let d := match f.1 % 6 with
      | 0 => d.vaultErr v F.vault_ATTR_FAULT_CNT 0x0225 pa c sid (dtl [(8, pa)]) secure
      | 1 => d.vaultErr v F.vault_UE_CNT 0x0221 pa c sid (dtl [(8, pa), (2, sid)]) secure
      | 2 => d.inc b F.vault_POISON_RD_CNT
      | 3 => let g := d.fresh
             g.2.vaultErr v F.vault_CTX_MISMATCH_CNT 0x0223 pa c sid (dtl [(8, pa), (1, g.1 % 16), (1, c)]) secure
      | 4 => let g := d.fresh
             g.2.vaultErr v F.vault_KEY_STALE_CNT 0x0224 pa c sid (dtl [(8, pa), (1, g.1 % 256)]) secure
      | _ => d.vaultErr v F.vault_TAG_FAIL_CNT 0x0222 pa c sid (dtl [(8, pa), (1, c)]) secure
    d.poisonLine
  | some l =>
    if !(attrErr l.err).1 then
      (d.vaultErr v F.vault_ATTR_FAULT_CNT 0x0225 pa c sid (dtl [(8, pa)]) secure).poisonLine
    else
      let pc := L % 32
      let one := fun (d : Dev) (s : Nat) =>
        let e := sectorErr l.err s
        match Ecc.decode e with
        | .ok => (d, false, decide (e ≠ []))
        | .corrected i x => (d.vaultCe v pc (laneOf s i x) c secure, false, decide (Ecc.residue e ≠ []))
        | _ => (d, true, true)
      let x := one d 0
      let y := one x.1 1
      if x.2.1 || y.2.1 then
        (y.1.vaultErr v F.vault_UE_CNT 0x0221 pa c sid (dtl [(8, pa), (2, sid)]) secure).poisonLine
      else y.1.vaultChecks v pa c sid secure l (x.2.2 || y.2.2)

/-- A write accepted by vault `v`: a full line is stored under context `c`; a narrower one reads, merges and stores
(R241). -/
def Dev.vaultWrite (d : Dev) (v L pa c sid : Nat) (secure : Bool) (off : Nat) (data : Bytes) (poison : Bool) : Dev :=
  let key := v * vaultLines + L
  let k := d.keyOf c
  let m : Dev × Bytes × Bool :=
    if off = 0 ∧ data.length = 64 then (d, data, poison)
    else
      let r := d.vaultRead v L pa c sid secure
      (r.1, patch r.2.data off data, poison || r.2.poison)
  let d := { m.1 with dram := m.1.dram.put key ⟨m.2.1, c, false, m.2.2, k.2, k.1, pa, []⟩ }
  if m.2.2 then d.inc (B.vault v) F.vault_POISON_WR_CNT else d

/-- An upset of a stored line: differences of its 80 bytes (Table 8.2). A line of arbitrary bits stays one. -/
def Dev.upsetLine (d : Dev) (v L : Nat) (ups : ErrPat) : Dev :=
  let key := v * vaultLines + L
  if ups.isEmpty then d
  else match d.lineAt v key with
    | some l => { d with dram := d.dram.put key { l with err := Ecc.add l.err ups } }
    | none => d

/-- The vault is reached: its interface domain is on and not fenced (R22, R249). -/
def Dev.vaultUp (d : Dev) (v : Nat) : Bool := d.domUp (Dom.vault v)

/-- The vault holds what reaches it: its lanes still train, or INIT writes its lines (R250). -/
def Dev.vaultHolds (d : Dev) (v : Nat) : Bool :=
  d.vaultUp v && (!d.gb (B.vault v) F.vault_READY || d.gb (B.vault v) F.vault_INIT_BUSY)

/-- Some vault holds what reaches it. -/
def Dev.anyHolds (d : Dev) : Bool := (List.range 8).any (fun v => d.vaultHolds v)

/-! ### Staging -/

/-- An uncorrectable staging sector met: counted there and in POISON_CNT of the header, and raised (R316). -/
def Dev.stagingUe (d : Dev) (h off : Nat) (w : Initiator) : Dev :=
  { (d.inc B.mmp F.mmp_SRAM_UE_CNT h).eventOf w 0x10 h 0x0B14 (dtl [(1, h), (4, off)]) with
    cpPoison := Tab.set 0 d.cpPoison h ((d.cpPoison.getD h 0 + 1) % 2 ^ 32) }

/-- One sector of staging as a device reader receives it (R316); the flag tells poison. -/
def Dev.stagingSector (d : Dev) (h a : Nat) (w : Initiator) : Dev × Bytes × Bool :=
  let r := d.sramSector a
  match r.2 with
  | .ok => (d, r.1, false)
  | .corrected _ _ => (d.inc B.mmp F.mmp_SRAM_CE_CNT h, r.1, false)
  | .marker => (d, r.1, true)
  | .bad => (d.stagingUe h (a - B.staging h) w, r.1, true)

/-- A device read of one staging line (R316). -/
def Dev.stagingLine (d : Dev) (h off : Nat) (w : Initiator) : Dev × Bytes × Bool :=
  let a := B.staging h + off / 64 * 64
  let x := d.stagingSector h a w
  let y := x.1.stagingSector h (a + 32) w
  if x.2.2 || y.2.2 then y.1.poisonBytes else (y.1, x.2.1 ++ y.2.1, false)

/-- The stored bits of a sector as they are, errors included (R316). -/
def Dev.sramStored (d : Dev) (a : Nat) : Bytes := Ecc.apply (d.sramErr a) (Memory.readN d.ram a 32)

/-- The stored data bits of a sector replaced, its errors staying: only a whole-sector write clears the fault (R316). -/
def Dev.sramKeep (d : Dev) (a : Nat) (bits : Bytes) : Dev :=
  { d with ram := Memory.writeN d.ram a (Ecc.apply (d.sramErr a) bits) }

/-- Bytes written into part of a sector that was read as `r`: merged into the bytes as corrected; a poisoned or
uncorrectable sector takes them among its stored bits and stays what it was (R316). -/
def mergeSector (r : Dev × Bytes × Bool) (a : Nat) (data : Bytes) (poison : Bool) : Dev :=
  let s := a / 32 * 32
  if r.2.2 then r.1.sramKeep s (patch (r.1.sramStored s) (a % 32) data)
  else r.1.sramStore (a / 32 * 32) (patch r.2.1 (a % 32) data) poison

/-- A device write into one sector of staging. -/
def Dev.stagingPart (d : Dev) (h off : Nat) (data : Bytes) (poison : Bool) (w : Initiator) : Dev :=
  if off % 32 = 0 ∧ data.length = 32 then d.sramStore (B.staging h + off) data poison
  else mergeSector (d.stagingSector h (B.staging h + off / 32 * 32) w) (B.staging h + off) data poison

/-- A device write into staging, sector by sector (R316). -/
def Dev.stagingWrite (d : Dev) (h off : Nat) (data : Bytes) (poison : Bool) (w : Initiator) : Dev :=
  (cutAt 32 off data).foldl (fun d c => d.stagingPart h c.1 c.2 poison w) d

/-! ### Remote windows (R342, R343) -/

/-- What an offset within a peer window may carry: DRAM, scratchpad, or a mailbox message (Table 12.5). -/
def windowOk (o : Nat) (wr : Bool) (size : Nat) : Bool :=
  decide (o < 0xC00000000) || (decide (0xC00000000 ≤ o) && decide (o < 0xC20000000)) ||
  (decide (0xC20000000 ≤ o) && decide (o < 0xC20010000) && wr && size == 64 && o % 0x400 == 0x40)

/-- A window access issued to peer `q`: a WR or RD_REQ packet under OUT_SLOT, holding a link tag until its answer.
`dest` says where read data goes, `op` whose access it is. No link tag free: nothing happens and the flag is false
(R48); a FAILED slot or no route completes it at once with PEER_UNREACHABLE (R338, R346). -/
def Dev.remoteIssue (d : Dev) (q : Req) (peer off : Nat) (dest : RdDest) (op : OpRef) : Dev × Option Rsp :=
  let slot := d.g B.link0 F.link0_OUT_SLOT peer
  let fail := fun (d : Dev) => (d, some (⟨zeros q.size, true, 0x0701, peer⟩ : Rsp))
  if d.slotState slot ≠ 1 then fail d
  else match d.outPort peer with
    | none => fail (d.routeOwn { dst := peer, src := d.pkgId, kind := 1 } 3).1
    | some p =>
      let mbx := decide (0xC20000000 ≤ off)
      let pm := if q.poison then 1 else 0
      if !d.tagFree (.port p) (if mbx then 1 else 3) then (d, none)
      else if mbx then
        let s := d.sendMsg { dst := peer, src := d.pkgId, kind := 6, slot := slot, addr := off, pmap := pm,
                             payload := q.data } 1
        if s.2 then (s.1, some ⟨[], false, 0, 0⟩) else fail s.1
      else
        let t := d.pickTag (.port p)
        let d := t.2
        let pkt : Pkt := if q.wr then
            { dst := peer, src := d.pkgId, kind := 1, slot := slot, addr := off, tag := wireTag p t.1,
              pmap := pm, payload := q.data }
          else { dst := peer, src := d.pkgId, kind := 2, slot := slot, addr := off, tag := wireTag p t.1,
                 payload := natLE 4 q.size }
        let s := d.sendPkt pkt 3
        if !s.2 then fail s.1
        else ({ s.1 with remoteOps := s.1.remoteOps ++
                  [{ port := p, tag := t.1, peer := peer, slot := slot, wr := q.wr, size := q.size, dest := dest,
                      op := op, since := s.1.varve, ctx := q.ctx, va := q.va }] }, some ⟨zeros q.size, false, 0, 0⟩)

/-- A window access as the fabric sees it (R22, R343). The answer is none while no link tag is free. -/
def Dev.remoteAccess (d : Dev) (q : Req) (dest : RdDest) (op : OpRef) : Dev × Option Rsp :=
  let o := q.pa - 0x4000000000
  let peer := o / 0x1000000000
  let off := o % 0x1000000000
  let fail := let r := d.decodeFail q; (r.1, some r.2)
  if peer = d.pkgId then fail
  else if !(d.gb B.link0 F.link0_OUT_EN peer && bit (d.g B.link0 F.link0_OUT_CTX_MASK peer) q.ctx) then fail
  else if !windowOk off q.wr q.size then fail
  else d.remoteIssue q peer off dest op

/-! ### One local memory access -/

/-- An access to DRAM, after the firewall: one line, read or written whole or in part. -/
def Dev.dramLine (d : Dev) (q : Req) : Dev × Rsp :=
  let vo := d.vaultOf q.pa
  let L := vo.2 / 64
  let pa := q.pa / 64 * 64
  if q.wr then (d.vaultWrite vo.1 L pa q.ctx q.sid q.secure (q.pa % 64) q.data q.poison, ⟨[], false, 0, 0⟩)
  else
    let r := d.vaultRead vo.1 L pa q.ctx q.sid q.secure
    (r.1, { r.2 with data := (r.2.data.drop (q.pa % 64)).take q.size })

/-- An access to a scratchpad, after the firewall. Wide accesses are carried as their 64-byte words. -/
def Dev.scratchLine (d : Dev) (q : Req) : Dev × Rsp :=
  let o := q.pa - 0x1000000000
  let n := o / 0x100000
  let off := o % 0x100000
  if q.wr then
    ((cutAt 64 off q.data).foldl (fun d c => d.spWrite n c.1 c.2 q.poison q.who) d, ⟨[], false, 0, 0⟩)
  else if q.size ≤ 64 then
    let r := d.spWord n (off / 64) q.who
    (r.1, ⟨(r.2.1.drop (off % 64)).take q.size, r.2.2, 0, 0⟩)
  else
    let r := d.spRead n (off / 64) (q.size / 64) q.who
    (r.1, ⟨r.2.1, r.2.2.any id, 0, 0⟩)

/-- An access to staging, after the firewall. -/
def Dev.stagingAccess (d : Dev) (q : Req) : Dev × Rsp :=
  let o := q.pa - 0x3000000000
  let h := o / 0x4000000
  let off := o % 0x4000000
  if q.wr then (d.stagingWrite h off q.data q.poison q.who, ⟨[], false, 0, 0⟩)
  else
    let r := d.stagingLine h off q.who
    (r.1, ⟨(r.2.1.drop (off % 64)).take q.size, r.2.2, 0, 0⟩)

/-- The domain behind a local memory address is up; none where the address is no local memory. -/
def Dev.memUp (d : Dev) (pa : Nat) : Option Bool :=
  if pa < 0xC00000000 then some (d.vaultUp (d.vaultOf pa).1)
  else if 0x1000000000 ≤ pa ∧ pa < 0x1020000000 then
    some (d.domUp (Dom.cluster ((pa - 0x1000000000) / 0x1000000)))
  else if 0x3000000000 ≤ pa ∧ pa < 0x3008000000 then some (d.domUp Dom.mmp)
  else none

/-- The access stays within a region: a flow engine or core reaches the vault and the scratchpads of its own region
without the spine (R210). -/
def Dev.inRegion (d : Dev) (q : Req) : Bool :=
  match (if q.sid < 0x200 then some (q.sid / 64) else if q.sid < 0x240 then some ((q.sid - 0x200) / 8)
    else if 0x258 ≤ q.sid ∧ q.sid < 0x260 then some (q.sid - 0x258) else none : Option Nat) with
  | some r => if q.pa < 0xC00000000 then (d.vaultOf q.pa).1 == r
              else decide (0x1000000000 ≤ q.pa) && decide (q.pa < 0x1020000000) && (q.pa - 0x1000000000) / 0x4000000 == r
  | none => false

/-- The spine that carries the access stands, or none carries it (R22, R41, R210). -/
def Dev.pathUp (d : Dev) (q : Req) : Bool := !d.domFenced Dom.spine || d.inRegion q

/-- The address lies in the ranges of the register blocks (Table 1.3). -/
def isCsr (pa : Nat) : Bool := decide (0x2000000000 ≤ pa) && decide (pa < 0x3000000000)

/-- An operation's access to the register ranges (R13, R22). It reads whole lines, which no register is, so a read returns
zeros and is counted; a write is on its way to the block until the command ends. -/
def Dev.opCsr (d : Dev) (q : Req) : Dev × Rsp :=
  match blkAt q.pa with
  | none => d.decodeFail q
  | some (b, _) =>
    if !d.blkUp b then d.decodeFail q
    else if q.wr then ({ d with csrPosts := d.csrPosts ++ [q] }, ⟨[], false, 0, 0⟩)
    else (d.dinc 0x7001 0x01, ⟨zeros q.size, false, 0, 0⟩)

/-- One access of an operation on this device: decode failure, then the region descriptors, then the target (R22, R278).
One that meets a vault which holds it keeps its operation waiting (R250). -/
def Dev.localAccess (d : Dev) (q : Req) : Dev × Rsp :=
  if isCsr q.pa then d.opCsr q
  else if !d.pathUp q ∨ d.memUp q.pa ≠ some true then d.decodeFail q
  else if q.pa < 0xC00000000 ∧ d.vaultHolds (d.vaultOf q.pa).1 then
    ({ d with blocked := true }, ⟨zeros q.size, true, 0, 0⟩)
  else
    let f := d.fwCheck q
    if !f.2 then (f.1, ⟨zeros q.size, true, 0x0204, 0⟩)
    else if q.pa < 0xC00000000 then f.1.dramLine q
    else if q.pa < 0x2000000000 then f.1.scratchLine q
    else f.1.stagingAccess q

/-- The largest natural size, up to a line, that fits `n` bytes at an address aligned to it (R479). -/
def natSize (a n : Nat) : Nat := ([64, 32, 16, 8, 4, 2].find? (fun k => a % k == 0 && decide (k ≤ n))).getD 1

/-- A run of bytes as naturally aligned accesses within one line each, as (address, size) (R479); `fuel` bounds their
number. -/
def natParts : Nat → Nat → Nat → List (Nat × Nat)
  | 0, _, _ => []
  | f + 1, a, n => if n = 0 then [] else (a, natSize a n) :: natParts f (a + natSize a n) (n - natSize a n)

/-! ### Scratchpads over the fabric (R278) -/

/-- A fabric access to `n` bytes at offset `off` of core `k`'s scratchpad, by an engine or shared block. -/
def padReq (w : Initiator) (k off : Nat) (wr : Bool) (n : Nat) (data : Bytes) (poison : Bool) : Req :=
  { sid := w.sid, ctx := w.ctx, secure := w.secure, pa := B.scratch k + off, wr := wr, size := n, data := data,
    poison := poison, inner := true }

/-- What a refused access of a scratchpad reports: FW_DENIED with PA[47:16] (Table 9.7). -/
def Rsp.denied (r : Rsp) (pa : Nat) : Option (Nat × Nat) := if r.status = 0 then none else some (r.status, pa / 65536)

/-- The bytes of a run of granules of core `k`'s scratchpad read over the fabric, each with its poison flag, and the
refusal that ended the run, if one did (R278). -/
def Dev.padRead (d : Dev) (k g n : Nat) (w : Initiator) : Dev × Bytes × List Bool × Option (Nat × Nat) :=
  (List.range n).foldl (fun (a : Dev × Bytes × List Bool × Option (Nat × Nat)) i =>
    if a.2.2.2.isSome then (a.1, a.2.1 ++ zeros 64, a.2.2.1 ++ [false], a.2.2.2)
    else
      let q := padReq w k ((g + i) * 64) false 64 [] false
      let r := a.1.localAccess q
      (r.1, a.2.1 ++ r.2.data, a.2.2.1 ++ [r.2.poison], r.2.denied q.pa)) (d, [], [], none)

/-- Bytes written over the fabric from offset `off` of core `k`'s scratchpad on, granule by granule, granule `i` of the run
poisoned where the list says so; the refusal that ended the run, if one did (R278). -/
def Dev.padWrite (d : Dev) (k off : Nat) (w : Initiator) (data : Bytes) (bad : List Bool) : Dev × Option (Nat × Nat) :=
  (cutAt 64 off data).zipIdx.foldl (fun (a : Dev × Option (Nat × Nat)) c =>
    if a.2.isSome then a
    else
      let q := padReq w k c.1.1 true c.1.2.length c.1.2 (bad.getD c.2 false)
      let r := a.1.localAccess q
      (r.1, r.2.denied q.pa)) (d, none)

/-! ### Translation (R264–R268, R481) -/

/-- One translation cache. -/
def Dev.tc (d : Dev) (i : Nat) : TCache := d.tcaches.getD i {}

/-- A translation cache replaced; TC_VALID of a region follows it (Table 9.13). -/
def Dev.setTc (d : Dev) (i : Nat) (x : TCache) : Dev :=
  let d := { d with tcaches := Tab.set {} d.tcaches i x }
  if i < 8 then d.p (B.region i) F.region_TC_VALID x.leaf.length else d

/-- A counter of a region's translation cache; the block caches have none. -/
def Dev.tcInc (d : Dev) (i : Nat) (F : Fld) (n : Nat := 1) : Dev := if i < 8 then d.inc (B.region i) F 0 n else d

/-- A leaf stored in a cache; where the cache is full the entry that leaves is the implementation's choice (R267). -/
def Dev.tcFill (d : Dev) (i : Nat) (e : TcEntry) : Dev :=
  let x := d.tc i
  let cap := if i < 8 then 4096 else 256
  if x.leaf.length < cap then d.setTc i { x with leaf := x.leaf ++ [e] }
  else
    let f := d.fresh
    f.2.setTc i { x with leaf := x.leaf.eraseIdx (f.1 % x.leaf.length) ++ [e] }

/-- A level-1 entry stored in a region's cache of 512. -/
def Dev.l1Fill (d : Dev) (i : Nat) (e : L1Entry) : Dev :=
  if 8 ≤ i then d
  else
    let x := d.tc i
    if x.l1.length < 512 then d.setTc i { x with l1 := x.l1 ++ [e] }
    else
      let f := d.fresh
      f.2.setTc i { x with l1 := x.l1.eraseIdx (f.1 % x.l1.length) ++ [e] }

/-- The walker's read of one 8-byte table entry, as context 0 in the secure world; an address outside DRAM is a table
fault (R266). -/
def Dev.walkRead (d : Dev) (i sid pa : Nat) : Dev × Option Nat :=
  if 0xC00000000 ≤ pa then (d, none)
  else
    let d := d.tcInc i F.region_TC_WALK_RD_CNT
    let r := d.localAccess { sid := sid, ctx := 0, secure := true, pa := pa, wr := false, size := 8, inner := true }
    (r.1, if r.2.poison then none else some (leNat r.2.data))

/-- A walk of the two levels (R265, R266): the leaf, or the status of the first fault met (Table 9.3). -/
def Dev.walk (d : Dev) (i c sid va : Nat) : Dev × (Nat ⊕ TcEntry) :=
  let idx := va / 2 ^ 29
  let l1 : Dev × (Nat ⊕ L1Entry) :=
    match (d.tc i).l1.find? (fun e => e.ctx == c && e.index == idx) with
    | some e => (d, .inr e)
    | none =>
      let r := d.walkRead i sid (d.g B.mgmt F.mgmt_CTX_TTB c * 0x10000 + idx * 8)
      match r.2 with
      | none => (r.1, .inl 0x0203)
      | some w =>
        let base := bits w 47 12 * 0x1000
        if !bit w 0 then (r.1, .inl 0x0201)
        else if bits w 11 2 ≠ 0 ∨ bits w 63 48 ≠ 0 ∨ (!bit w 1 ∧ base % 0x10000 ≠ 0) ∨ 0xC00000000 ≤ base then
          (r.1, .inl 0x0203)
        else
          let e : L1Entry := ⟨c, idx, bit w 1, base⟩
          (r.1.l1Fill i e, .inr e)
  match l1 with
  | (d, .inl s) => (d, .inl s)
  | (d, .inr e) =>
    let j := if e.large then bits va 28 21 else bits va 28 16
    let r := d.walkRead i sid (e.base + j * 8)
    match r.2 with
    | none => (r.1, .inl 0x0203)
    | some w =>
      let base := bits w 47 16 * 0x10000
      if !bit w 0 then (r.1, .inl 0x0201)
      else if bits w 15 2 ≠ 0 ∨ bits w 63 48 ≠ 0 ∨ (e.large ∧ base % 0x200000 ≠ 0) then (r.1, .inl 0x0203)
      else
        let page := if e.large then va / 0x200000 * 32 else va / 0x10000
        let t : TcEntry := ⟨c, page, e.large, base, bit w 1⟩
        (r.1.tcFill i t, .inr t)

/-- Whether a cached leaf maps an address. -/
def TcEntry.hits (t : TcEntry) (c va : Nat) : Bool :=
  t.ctx == c && (if t.large then va / 0x200000 * 32 == t.page else va / 0x10000 == t.page)

/-- A translation under context `c` in cache `i`: the physical address, or a status of Table 9.3. -/
def Dev.translate (d : Dev) (i c sid va : Nat) (wr : Bool) : Dev × (Nat ⊕ Nat) :=
  if 2 ^ d.g B.mgmt F.mgmt_VA_BITS c ≤ va then (d.tcInc i F.region_TC_FAULT_CNT, .inl 0x020B)
  else
    let r : Dev × (Nat ⊕ TcEntry) := match (d.tc i).leaf.find? (fun t => t.hits c va) with
      | some t => (d.tcInc i F.region_TC_HIT_CNT, .inr t)
      | none => (d.tcInc i F.region_TC_MISS_CNT).walk i c sid va
    match r with
    | (d, .inl s) => (d.tcInc i F.region_TC_FAULT_CNT, .inl s)
    | (d, .inr t) =>
      if wr && !t.write then (d.tcInc i F.region_TC_FAULT_CNT, .inl 0x0202)
      else (d, .inr (t.pa + va % (if t.large then 0x200000 else 0x10000)))

/-- A translation fault or refused access recorded in the context's registers (R481). -/
def Dev.ctxFault (d : Dev) (c va sid status : Nat) (wr : Bool) : Dev :=
  let b := B.mgmt
  let d := d.inc b F.mgmt_CTX_FAULT_CNT c
  if d.gb b F.mgmt_FAULT_VALID c then d
  else (((((d.p b F.mgmt_FAULT_VA va c).p b F.mgmt_FAULT_CODE status c).p b F.mgmt_FAULT_STREAM sid c).pb b
    F.mgmt_FAULT_WRITE wr c).p b F.mgmt_FAULT_TIME d.t32 c).pb b F.mgmt_FAULT_VALID true c

/-- What an access of an operation at a virtual address gives: data, poison, and a status: 0, a translation status, a
firewall refusal, a link status; none while it waits for a tag. `world` is the world of a block that acts on its own
account (R276). -/
def Dev.vaAccess (d : Dev) (i c sid va : Nat) (wr : Bool) (size : Nat) (data : Bytes) (poison : Bool)
    (dest : RdDest) (op : OpRef) (world : Option Bool := none) : Dev × Option Rsp :=
  let t := d.translate i c sid va wr
  match t.2 with
  | .inl s => (t.1.ctxFault c va sid s wr, some ⟨zeros size, true, s, va / 65536⟩)
  | .inr pa =>
    let q : Req := { sid := sid, ctx := c, secure := world.getD (t.1.ctxSecure c), pa := pa, wr := wr, size := size,
                     data := data, poison := poison, inner := true, va := some va }
    if 0x4000000000 ≤ pa ∧ pa < 0x44000000000 then
      (if op = .alone then let r := t.1.decodeFail q; (r.1, some r.2) else t.1.remoteAccess q dest op)
    else
      let r := t.1.localAccess q
      (if r.2.status = 0x0204 then r.1.ctxFault c va sid 0x0204 wr else r.1, some { r.2 with detail := pa / 65536 })

/-- The fault in an answer, if it holds one. -/
def Rsp.fault (r : Rsp) (va : Nat) : Option Xl := if r.status = 0 then none else some ⟨r.status, r.detail, va⟩

/-- A read of `n` bytes at a virtual address by an operation: the whole lines that hold them are read in order; data,
poison of each line, the first fault met, at which the read stops. Only transfers and GATHER reach remote windows (R343):
a line behind one meets decode failure here. -/
def Dev.vaRead (d : Dev) (i c sid va n : Nat) (world : Option Bool := none) : Dev × Bytes × List Bool × Option Xl :=
  (List.range (ceilDiv (va % 64 + n) 64)).foldl (fun (a : Dev × Bytes × List Bool × Option Xl) k =>
    if a.2.2.2.isSome then a
    else
      let base := va / 64 * 64 + 64 * k
      let lo := max va base
      let hi := min (va + n) (base + 64)
      let x := a.1.vaAccess i c sid base false 64 [] false .none .alone world
      match x.2 with
      | some r => (x.1, a.2.1 ++ (r.data.drop (lo - base)).take (hi - lo), a.2.2.1 ++ [r.poison], r.fault lo)
      | none => (x.1, a.2.1 ++ zeros (hi - lo), a.2.2.1 ++ [true], none)) (d, [], [], none)

/-- A write of bytes at a virtual address by an operation, in naturally aligned accesses, each poisoned where the list
says so of its line; the first fault met, at which the write stops. -/
def Dev.vaWrite (d : Dev) (i c sid va : Nat) (data : Bytes) (bad : List Bool) (world : Option Bool := none) : Dev × Option Xl :=
  (natParts data.length va data.length).foldl (fun (a : Dev × Option Xl) p =>
    if a.2.isSome then a
    else
      let x := a.1.vaAccess i c sid p.1 true p.2 ((data.drop (p.1 - va)).take p.2)
        (bad.getD (p.1 / 64 - va / 64) false) .none .alone world
      match x.2 with
      | some r => (x.1, r.fault p.1)
      | none => (x.1, none)) (d, none)

end Sys2Proof.Machine
end

