-- ==== Sys2Proof/Machine/Sync.lean ====
section
/-!
DEFINITION. Sync objects and mailboxes (R287–R306): admission, signals, watch entries, the application of changes,
configuration writes, mailbox messages.
Choices of the model: log entries 73, 83, 84, 86, 177, 194.
-/

namespace Sys2Proof.Machine

/-! ### Sync objects -/

/-- Home region of a sync object (Table 1.2). -/
def syncHome (s : Nat) : Nat := s / 2048

/-- The value the object holds. -/
def Dev.syncCount (d : Dev) (s : Nat) : Nat := d.g (B.sync s) F.sync_COUNT

/-- Watch entries held at an object (WAITERS, R294). -/
def Dev.syncWatch (d : Dev) (s : Nat) : List Watch := d.watchers.getD s []

/-- Watch entries of an object replaced. -/
def Dev.setWatch (d : Dev) (s : Nat) (l : List Watch) : Dev := { d with watchers := Tab.set [] d.watchers s l }

/-- A stream identifier of traffic that arrives over a link (Table 1.4). -/
def isLinkSid (sid : Nat) : Bool := decide (0x240 ≤ sid) && decide (sid ≤ 0x245)

/-- The initiator is an agent of the object's scope (Tables 1.5 and 10.1); `key` is the slot of link traffic. -/
def Dev.inScope (d : Dev) (s sid : Nat) (key : Option Nat) : Bool :=
  let b := B.sync s
  let r := syncHome s
  let fe := decide (0x200 ≤ sid) && decide (sid < 0x240) && (sid - 0x200) / 8 == r
  let scope := d.g b F.sync_SCOPE
  if isLinkSid sid then scope == 3 && key == some (d.g b F.sync_KEY_SLOT)
  else match scope with
    | 0 => (decide (sid < 0x200) && sid / 16 == 4 * r + d.g b F.sync_CLUSTER) || fe
    | 1 => (decide (sid < 0x200) && sid / 64 == r) || fe || sid == 0x258 + r
    | _ => true

/-- Admission to an object (R290, Table 10.1): the reason of the first check that fails. -/
def Dev.syncDeny (d : Dev) (s sid ctx : Nat) (key : Option Nat := none) : Option Nat :=
  let b := B.sync s
  if !d.gb b F.sync_OBJ_EN then some 3
  else if !d.inScope s sid key then some 1
  else if d.g b F.sync_OBJ_CTX == ctx || d.gb b F.sync_CTX_ANY || ctx == 0 then none
  else some 2

/-- The DETAIL word of SYNC_DENIED (Table 10.5). -/
def syncWord (s : Nat) (signal : Bool) (reason : Nat) : Nat := s % 2 ^ 14 + 2 ^ 14 * b2n signal + 2 ^ 16 * reason

/-- A refusal raised by the object's home region (Table 10.5). -/
def Dev.syncRefuse (d : Dev) (s : Nat) (signal : Bool) (reason ctx : Nat) (secure : Bool) : Dev :=
  d.event 0x0B (syncHome s) 0x0101 (dtlWord (syncWord s signal reason)) ctx secure

/-- A refused wait or signal: counted in 0x7010:01 and raised (R290, R291, R297). -/
def Dev.syncDenied (d : Dev) (s : Nat) (signal : Bool) (reason ctx : Nat) (secure : Bool) : Dev :=
  (d.dinc 0x7010 0x01).syncRefuse s signal reason ctx secure

/-- A change has reached an object (R289). -/
def Dev.syncPush (d : Dev) (s : Nat) (c : SyncChange) : Dev :=
  { d with syncPending := Tab.set [] d.syncPending s (d.syncPending.getD s [] ++ [c]) }

/-- A remote signal that cannot be delivered (R293): SYNC_REMOTE_LOST, and the job of its slot fails (R45). -/
def Dev.signalLost (d : Dev) (s q slot ctx : Nat) (secure : Bool) : Dev :=
  let d := d.event 0x0B (syncHome s) 0x0103 (dtl [(2, s), (1, q)]) ctx secure
  { d with jobsLost := d.jobsLost ++ [(slot, q)] }

/-- A signal sent to every other package of the object's peer set (R292, R293). -/
def Dev.syncRemote (d : Dev) (s incr ctx : Nat) (secure : Bool) : Dev :=
  let slot := d.g (B.sync s) F.sync_KEY_SLOT
  if d.slotState slot ≠ 1 then d.event 0x0B (syncHome s) 0x0103 (dtl [(2, s), (1, 0xFF)]) ctx secure
  else (members (d.slotPeers slot)).foldl (fun d q =>
    if q = d.pkgId then d
    else
      let r := d.sendMsg { dst := q, src := d.pkgId, kind := 5, slot := slot, addr := s, payload := natLE 4 incr } 1
      if r.2 then r.1.dinc 0x7010 0x03 else r.1.signalLost s q slot ctx secure) d

/-- A signal made on the package by an admitted agent: applied to the local copy in its turn, and sent to the peers
of a system-scope object (R287, R292). -/
def Dev.signal (d : Dev) (s sid incr ctx : Nat) (secure : Bool) : Dev :=
  let d := d.syncPush s ⟨d.fabCycle, sid, some incr, false⟩
  if d.g (B.sync s) F.sync_SCOPE = 3 then d.syncRemote s incr ctx secure else d

/-- A signal after its checks (R290): made, or dropped and reported. -/
def Dev.signalChecked (d : Dev) (s sid ctx : Nat) (secure : Bool) (incr : Nat) (key : Option Nat := none) : Dev :=
  match d.syncDeny s sid ctx key with
  | none => d.signal s sid incr ctx secure
  | some r => d.syncDenied s true r ctx secure

/-- A signal that a peer has sent under job-key slot `key`, after its checks: applied to the local copy alone (R292,
R293). -/
def Dev.signalPeer (d : Dev) (s sid ctx : Nat) (secure : Bool) (incr key : Nat) : Dev :=
  match d.syncDeny s sid ctx (some key) with
  | none => d.syncPush s ⟨d.fabCycle, sid, some incr, true⟩
  | some r => d.syncDenied s true r ctx secure

/-- The change the home region applies next: of the earliest cycle, a clear first, then the lowest stream (R289). -/
def nextChange (l : List SyncChange) : Option (SyncChange × List SyncChange) :=
  match l with
  | [] => none
  | h :: _ =>
    let now := l.filter (fun c => c.cycle == h.cycle)
    match now.find? (fun c => c.incr.isNone) with
    | some c => some (c, l.erase c)
    | none =>
      match now.find? (fun c => now.all (fun x => decide (c.sid ≤ x.sid))) with
      | some c => some (c, l.erase c)
      | none => none

/-- A wait condition holds of a value (R288). -/
def Watch.holds (w : Watch) (v : Nat) : Bool := if w.eq then v == w.value else decide (w.value ≤ v)

/-- One core's further state. -/
def Dev.core (d : Dev) (n : Nat) : Core := d.cores.getD n {}

/-- A core's further state replaced. -/
def Dev.setCore (d : Dev) (n : Nat) (c : Core) : Dev := { d with cores := Tab.set {} d.cores n c }

/-- The entry in a slot of a core's queue. -/
def Dev.entry (d : Dev) (n slot : Nat) : Option QEntry := (d.core n).q.find? (fun e => e.slot == slot)

/-- The entry in a slot of a core's queue replaced by its image. -/
def Dev.modEntry (d : Dev) (n slot : Nat) (f : QEntry → QEntry) : Dev :=
  let c := d.core n
  d.setCore n { c with q := c.q.map (fun e => if e.slot == slot then f e else e) }

/-- One host queue's further state. -/
def Dev.hqueue (d : Dev) (q : Nat) : HQueue := d.hq.getD q {}

/-- A host queue's further state replaced. -/
def Dev.setHqueue (d : Dev) (q : Nat) (x : HQueue) : Dev := { d with hq := Tab.set {} d.hq q x }

/-- A host command that firmware holds changed. -/
def Dev.modHCmd (d : Dev) (q id : Nat) (g : HCmd → HCmd) : Dev :=
  let x := d.hqueue q
  d.setHqueue q { x with cmds := x.cmds.map (fun c => if c.id = id then g c else c) }

/-- One flow engine's further state. -/
def Dev.eng (d : Dev) (f : Nat) : Engine := d.engines.getD f {}

/-- A flow engine's further state replaced. -/
def Dev.setEng (d : Dev) (f : Nat) (x : Engine) : Dev := { d with engines := Tab.set {} d.engines f x }

/-- A waiter is released and stays so (R288); its head has waited its last cycle. -/
def Dev.release (d : Dev) (w : Waiter) : Dev :=
  match w with
  | .core n slot => d.modEntry n slot (fun e => { e with released := true, watching := false })
  | .ring f => let x := d.eng f
               d.setEng f { x with headReleased := true, headWatch := none }

/-- The watch entries of an object tested against its value (R288, R294). -/
def Dev.syncTest (d : Dev) (s : Nat) : Dev :=
  let v := d.syncCount s
  let ws := d.syncWatch s
  let d := d.setWatch s (ws.filter (fun w => !w.holds v))
  (ws.filter (fun w => w.holds v)).foldl (fun d w => d.release w.who) d

/-- One change applied to an object: a clear sets 0; a signal adds, or holds the limit and sets SAT (R287, R296). A peer's
signal is counted as it is applied (R297). -/
def Dev.syncApply (d : Dev) (s : Nat) (c : SyncChange) : Dev :=
  let b := B.sync s
  let d := if c.peer then d.dinc 0x7010 0x04 else d
  match c.incr with
  | none => (d.p b F.sync_COUNT 0).syncTest s
  | some n =>
    let v := d.syncCount s + n
    if v < 2 ^ 64 then (d.p b F.sync_COUNT v).syncTest s
    else
      let d := d.p b F.sync_COUNT (2 ^ 64 - 1)
      let d := if d.gb b F.sync_SAT then d
        else ((d.pb b F.sync_SAT true).dinc 0x7010 0x02).event 0x0B (syncHome s) 0x0102 (dtl [(2, s)])
      d.syncTest s

/-- SYNC_CHANGE_APPLY: the home region applies one pending change to the object and the model's FABRIC cycle advances
(R289). With no change pending, or the region off, nothing happens. -/
def Dev.syncStep (d : Dev) (s : Nat) : Dev :=
  if !d.domOn (Dom.region (syncHome s)) then d
  else match nextChange (d.syncPending.getD s []) with
    | none => d
    | some (c, rest) =>
      let d := { d with syncPending := Tab.set [] d.syncPending s rest, fabCycle := d.fabCycle + 1 }
      d.syncApply s c

/-- Every change that has reached an object is applied, one a cycle: a signal just made is among them, so COUNT holds it
(R99, R289). -/
def Dev.syncDrain (d : Dev) (s : Nat) : Dev :=
  (List.range (d.syncPending.getD s []).length).foldl (fun d _ => d.syncStep s) d

/-- A waiter registers at an object: released at once where its condition holds of the value, otherwise it takes a
watch entry (R288, R294). -/
def Dev.syncRegister (d : Dev) (s : Nat) (w : Watch) : Dev :=
  if w.holds (d.syncCount s) then d.release w.who
  else
    let d := d.setWatch s (d.syncWatch s ++ [w])
    match w.who with
    | .core n slot => d.modEntry n slot (fun e => { e with watching := true })
    | .ring f => let x := d.eng f
                 d.setEng f { x with headWatch := some s }

/-- A waiter gives its watch entry back (R294). -/
def Dev.syncForget (d : Dev) (s : Nat) (w : Waiter) : Dev :=
  d.setWatch s ((d.syncWatch s).filter (fun x => x.who != w))

/-- What engine `f` holds of the entry at its ring's head is given up: its check, its release and its watch entry (R291,
R294). -/
def Dev.headForget (d : Dev) (f : Nat) : Dev :=
  let d := match (d.eng f).headWatch with
    | some s => d.syncForget s (.ring f)
    | none => d
  d.setEng f { d.eng f with headChecked := false, headReleased := false, headWatch := none }

/-- A write to SIG_ADD: 0 is ignored, any other value is a signal under R290 (R295). -/
def Dev.sigAdd (d : Dev) (s sid ctx : Nat) (secure : Bool) (v : Nat) : Dev :=
  if v = 0 then d else d.signalChecked s sid ctx secure v

/-- A write to the CFG word of an object (R296, Table 10.2). A non-secure write reaches SAT alone (R14). -/
def Dev.syncCfg (d : Dev) (s : Nat) (secure : Bool) (sid ctx v : Nat) : Dev :=
  let b := B.sync s
  let d := if bit v 11 then d.pb b F.sync_SAT false else d
  if !secure then d
  else
    let d := if bit v 10 then d.syncPush s ⟨d.fabCycle, sid, none, false⟩ else d
    let fs := [F.sync_OBJ_EN, F.sync_SCOPE, F.sync_CLUSTER, F.sync_OBJ_CTX, F.sync_CTX_ANY, F.sync_KEY_SLOT]
    let new := fun (F : Fld) => v / 2 ^ F.lo % 2 ^ F.w
    if fs.all (fun F => d.g b F == new F) then d
    else if (d.syncWatch s).isEmpty then fs.foldl (fun d F => d.p b F (new F)) d
    else d.syncRefuse s false 4 ctx secure

/-! ### Mailboxes -/

/-- A slot or channel of a mailbox (Table 10.3). -/
def Dev.mbxSlot (d : Dev) (m c : Nat) : MbxSlot := d.mbxSlots.getD (m * 8 + c) ⟨[], 0, 0, false, false⟩

/-- A slot replaced; FULL of MBX_STAT follows it. -/
def Dev.setMbxSlot (d : Dev) (m c : Nat) (x : MbxSlot) : Dev :=
  let d := { d with mbxSlots := Tab.set ⟨[], 0, 0, false, false⟩ d.mbxSlots (m * 8 + c) x }
  let full := d.g (B.mbx m) F.mbx_FULL
  d.p (B.mbx m) F.mbx_FULL (setBits full c 1 (b2n x.full))

/-- A write refused (R301). -/
def Dev.mbxRefuse (d : Dev) (m sid cause ctx : Nat) (secure : Bool) : Dev :=
  (d.inc (B.mbx m) F.mbx_REFUSE_CNT).event 0x0C m 0x0112 (dtl [(1, m), (2, sid), (1,
    Config.mbxCause cause)]) ctx secure

/-- A message stored in a slot, and the doorbell signal of R303. -/
def Dev.mbxStore (d : Dev) (m c sid ctx : Nat) (secure : Bool) (msg : Bytes) (key : Option Nat) : Dev :=
  let b := B.mbx m
  let d := d.setMbxSlot m c ⟨padTo 64 msg, sid, d.varve, true, false⟩
  let d := (d.p b F.mbx_LAST_SID sid).inc b F.mbx_ACCEPT_CNT
  if d.gb b F.mbx_DB_EN then d.signalChecked (d.g b F.mbx_DB_OBJ) sid ctx secure 1 key else d

/-- One 64-byte write to SEND of a mailbox (R299–R301, R303). -/
def Dev.mbxSend (d : Dev) (m sid ctx : Nat) (secure : Bool) (msg : Bytes) (key : Option Nat := none) : Dev :=
  let b := B.mbx m
  if !d.gb b F.mbx_MBX_EN then d.mbxRefuse m sid 2 ctx secure
  else if !d.gb b F.mbx_MODE then
    let old := d.mbxSlot m 0
    let d := if old.full then
        ((d.pb b F.mbx_COLLISION true).inc b F.mbx_COLL_CNT).event 0x0C m 0x0110 (dtl [(1, m), (2, old.sid), (2,
          sid)])
          ctx secure
      else d
    d.mbxStore m 0 sid ctx secure msg key
  else match (List.range 8).find? (fun c => d.g b F.mbx_CH_SID c == sid && sid != 0xFFF) with
    | none => d.mbxRefuse m sid 0 ctx secure
    | some c => if (d.mbxSlot m c).full then d.mbxRefuse m sid 1 ctx secure else d.mbxStore m c sid ctx secure msg key

/-- A write to POP_CH empties a FULL channel (Table 10.4). -/
def Dev.mbxPop (d : Dev) (m c : Nat) : Dev :=
  let x := d.mbxSlot m c
  if x.full then d.setMbxSlot m c { x with full := false, tmo := false } else d

/-- A slot has stayed FULL for TMO_US: its TMO bit sets and the event is raised once (R302). -/
def Dev.mbxTimeout (d : Dev) (m c : Nat) : Dev :=
  let b := B.mbx m
  let x := d.mbxSlot m c
  if x.full && !x.tmo && decide (x.since + 1000 * d.g b F.mbx_TMO_US ≤ d.varve) then
    let d := d.setMbxSlot m c { x with tmo := true }
    let d := (d.p b F.mbx_TMO (setBits (d.g b F.mbx_TMO) c 1 1)).inc b F.mbx_TMO_CNT
    d.event 0x0C m 0x0111 (dtl [(1, m), (1, c), (2, x.sid)])
  else d

end Sys2Proof.Machine
end

