-- ==== Sys2Proof/Machine/CoreOps.lean ====
section
/-!
DEFINITION. Core queues (R93–R103), the scoreboard (R109), stealing (R132–R135), the fence of a core (R30, R33),
microprogram, windows and counters; and what ends an operation of a context or function: settling of SUSPENDING
contexts (R261) and of a running disable (R280–R282).
Choices of the model: log entries 11, 12, 17, 18, 19, 20, 21, 72, 80, 180, 186, 193, 194, 210.
-/

namespace Sys2Proof.Machine

/-! ### Where a core lies -/

/-- Cluster of a core. -/
def clusterOf (n : Nat) : Nat := n / 16
/-- Region of a core. -/
def regionOf (n : Nat) : Nat := n / 64
/-- The flow engine that executes the GATHER and SCATTER_ACC of a core (R256). -/
def engineOf (n : Nat) : Nat := 8 * (n / 64) + n % 64 / 8

/-- Cores that hold any state, with that state. -/
def Dev.coreList (d : Dev) : List (Nat × Core) := d.cores

/-- A self-test slice runs on a cluster, or a Creep measurement on its region (R407, R409). -/
def Dev.slotHeld (d : Dev) (c : Nat) : Bool :=
  (d.gb B.rime F.rime_SLICE_BUSY && d.g B.rime F.rime_SLICE_CLUSTER == c) ||
  d.gb B.pcc F.pcc_MEAS_BUSY (c / 4)

/-- A DRAIN request is pending on a cluster: for a self-test (R409), or for a measurement of its region (R454). -/
def Dev.draining (d : Dev) (c : Nat) : Bool :=
  (match d.stReq with
   | some r => r.drain && r.cluster == c
   | none => false) || bit d.pcc.drain (c / 4)

/-- A pending DRAIN request holds back an entry of this context on a cluster (R409, R454). -/
def Dev.drainHeld (d : Dev) (c ctx : Nat) : Bool := d.draining c && !d.gb B.mgmt F.mgmt_SAFETY ctx

/-- The cluster serves its cores: its domain is up (R22, R33). -/
def Dev.clusterUp (d : Dev) (c : Nat) : Bool := d.domUp (Dom.cluster c)

/-! ### Running, parked and aborted operations -/

/-- The function number of a class's executing block at a core's region (Table 9.6), none for the core itself. -/
def blockFunc (n : Nat) : Cls → Option Nat
  | .gather => some (0x40 + engineOf n)
  | .scatter => some (0x40 + engineOf n)
  | .store => some (0x40 + engineOf n)
  | .topk => some 0x12
  | .voxelize => some 0x10
  | .rulebook => some 0x10
  | .mapLookup => some 0x11
  | .mapUpdate => some 0x11
  | .prune => some (0x18 + regionOf n)
  | .predict => some (0x18 + regionOf n)
  | _ => none

/-- The functions an entry of core `n`'s queue is work of: its context, its cluster, the cluster of the core that has
stolen it, and, once issued, its block. -/
def QEntry.funcs (e : QEntry) (n : Nat) : List Nat :=
  (if e.desc.ctx = 0 then [] else [e.desc.ctx]) ++ [0x20 + clusterOf n] ++
  (if e.st = .stolen ∧ clusterOf e.exec ≠ clusterOf n then [0x20 + clusterOf e.exec] else []) ++
  (if e.st = .queued then [] else match e.desc.cls with
    | some c => (blockFunc n c).toList ++ (if c = .voxelize ∧ e.desc.param 0x31 1 ≠ 0 then [e.desc.param 0x31 1] else [])
    | none => [])

/-- The function being disabled under ABORT. -/
def Dev.abortFunc (d : Dev) : Option Nat :=
  if d.gb B.mgmt F.mgmt_DIS_BUSY && d.gb B.mgmt F.mgmt_DIS_POLICY then some (d.g B.mgmt F.mgmt_DIS_FUNC) else none

/-- An entry is reached by a running ABORT. -/
def Dev.entryAborted (d : Dev) (n : Nat) (e : QEntry) : Bool :=
  match d.abortFunc with
  | some f => (e.funcs n).contains f
  | none => false

/-- An entry counts as running (R261): ISSUED or STOLEN and not parked. -/
def QEntry.running (e : QEntry) : Bool := e.st != .queued && !e.parked

/-- Context of a transfer descriptor. -/
def tCtx (x : Bytes) : Nat := bits (fieldN x 0x02 2) 3 0

/-- The copy of a host command has begun and not ended: COPY_IN, COPY_OUT, PUBLISH (R318). -/
def HCmd.copying (c : HCmd) : Bool :=
  !c.copied && c.fin.isNone && (fieldN c.bytes 0 1 == 1 || fieldN c.bytes 0 1 == 2 ||
    (fieldN c.bytes 0 1 == 3 && fieldN c.bytes 4 2 == 4))

/-- Copies of host commands in progress that a queue and a copy meet. -/
def Dev.hostCopies (d : Dev) (want : Nat → HCmd → Bool) : Nat :=
  (d.hq.map (fun x => (x.2.cmds.filter (fun c => c.copying && want x.1 c)).length)).sum

/-- Operations of a context that run: RUNNING of CTX_STAT (R261). -/
def Dev.ctxRunning (d : Dev) (c : Nat) : Nat :=
  d.hostCopies (fun q _ => d.g B.mmp F.mmp_HQ_CTX q == c) +
  (d.cores.map (fun x => (x.2.q.filter (fun e => e.running && e.desc.ctx == c)).length)).sum +
  (d.engines.map (fun x => (x.2.run.filter (fun r => !r.parked && tCtx r.desc == c)).length)).sum

/-- Context of a collective (Table 12.6). -/
def Coll.ctx (c : Coll) : Nat := fieldN c.req 3 1 % 16

/-- Operations of a context that are parked. -/
def Dev.ctxParked (d : Dev) (c : Nat) : Nat :=
  (d.cores.map (fun x => (x.2.q.filter (fun e => e.parked && e.desc.ctx == c)).length)).sum +
  (d.engines.map (fun x => (x.2.run.filter (fun r => r.parked && tCtx r.desc == c)).length +
    b2n (x.2.headParked && d.g (B.fe x.1) F.fe_RING_CTX == c))).sum +
  (d.colls.filter (fun x => x.2.parked && x.2.ctx == c)).length

/-- A SUSPENDING context whose running count is 0 enters SUSPENDED (R261, R270). -/
def Dev.ctxSettle (d : Dev) (c : Nat) : Dev :=
  if d.ctxState c = 2 ∧ d.ctxRunning c = 0 then d.p B.mgmt F.mgmt_STATE 3 c else d

/-- Ring entries of engine `f` outstanding: written and not retired (R255). -/
def Dev.ringOutstanding (d : Dev) (f : Nat) : Nat := sub32 (d.g (B.fe f) F.fe_PROD) (d.g (B.fe f) F.fe_CONS)

/-- Work of a function that has not ended: entries, ring entries, tags, remote accesses and collectives (R280, R282). -/
def Dev.funcBusy (d : Dev) (fn : Nat) : Bool :=
  d.cores.any (fun x => x.2.q.any (fun e => (e.funcs x.1).contains fn)) ||
  d.tags.any (fun t => (fn < 16 && fn != 0 && t.ctx == fn) || (t.owner == .engine (fn - 0x40) && 0x40 ≤ fn)) ||
  (decide (fn < 16) && (d.mor.batches.any (fun b => b.ctx == fn && fn != 0) || d.heldReq.any (fun q => q.ctx == fn) || d.stalled.any (fun q => q.2.ctx == fn) ||
    d.engines.any (fun x => x.2.run.any (fun r => tCtx r.desc == fn)) ||
    (List.range 64).any (fun f => d.g (B.fe f) F.fe_RING_CTX == fn && d.gb (B.fe f) F.fe_RING_EN &&
      d.ringOutstanding f != 0) || (fn != 0 && d.hostCopies (fun q _ => d.g B.mmp F.mmp_HQ_CTX q == fn) != 0) ||
    (fn != 0 && d.colls.any (fun x => x.2.ctx == fn)))) ||
  (decide (0x40 ≤ fn) && decide (fn < 0x80) && ((d.eng (fn - 0x40)).run != [] ||
    ((d.gb B.mgmt F.mgmt_DIS_POLICY || d.gb (B.fe (fn - 0x40)) F.fe_RING_EN) && d.ringOutstanding (fn - 0x40) != 0) ||
    d.hostCopies (fun _ c => c.fe == fn - 0x40) != 0 || d.tagsUsed (.engine (fn - 0x40)) != 0))

/-- The last tag of a disabled function has retired: the disable is acknowledged (R282); a context reaches OFF. -/
def Dev.disableSettle (d : Dev) : Dev :=
  let fn := d.g B.mgmt F.mgmt_DIS_FUNC
  if d.gb B.mgmt F.mgmt_DIS_BUSY && !d.funcBusy fn then
    let d := (d.pb B.mgmt F.mgmt_DIS_BUSY false).pb B.mgmt F.mgmt_DIS_DONE true
    let d := d.p B.mgmt F.mgmt_FUNC_OFF (setBits (d.g B.mgmt F.mgmt_FUNC_OFF) fn 1 1)
    let d := if fn < 16 then d.p B.mgmt F.mgmt_STATE 0 fn else d
    let d := if 0x40 ≤ fn ∧ fn < 0x80 then d.pb (B.fe (fn - 0x40)) F.fe_RING_EN false else d
    let c := if fn < 16 then fn else 0
    d.event 0x11 0 0x0209 (dtl [(1, fn), (1, d.g B.mgmt F.mgmt_DIS_POLICY)]) c (d.ctxSecure c)
  else d

/-- What an operation's end can move: the context's state and a running disable. -/
def Dev.settle (d : Dev) (c : Nat) : Dev := (d.ctxSettle c).disableSettle

/-! ### Queue entries -/

/-- Slots in use at a core: entries not DONE and records not popped (R95). -/
def Core.slots (c : Core) : List Nat := c.q.map (·.slot) ++ c.cpl.map (·.slot)

/-- Entries ISSUED at a core (R97). -/
def Core.issued (c : Core) : Nat := (c.q.filter (fun e => e.st == .issued)).length

/-- The first FREE slot from `i` on, cyclically; `k` bounds the search. -/
def freeSlot (used : List Nat) : Nat → Nat → Nat
  | 0, i => i
  | k + 1, i => if used.contains i then freeSlot used k ((i + 1) % 256) else i

/-- DETAIL of a refused submission (Tables 3.8 and 9.7). -/
def Dev.refuseDetail (d : Dev) (n sid status : Nat) : Bytes :=
  if status = 0x0205 then zeros 16
  else if status = 0x020A then dtl [(1, regionOf n), (1, d.g B.mgmt F.mgmt_OWNER (regionOf n))]
  else dtl [(2, n), (2, sid)]

/-- A refused submission (R94): recorded in the core's registers while its cluster holds them, and raised. -/
def Dev.submitRefuse (d : Dev) (n sid status ctx : Nat) (secure : Bool) : Dev :=
  let b := B.core n
  let d := if d.domOn (Dom.cluster (clusterOf n)) then
      (((d.p b F.core_REF_STATUS status).p b F.core_REF_STREAM sid).pb b F.core_REF_VALID true).inc b
        F.core_SUBMIT_DROP_CNT
    else d
  d.event 0x01 n status (d.refuseDetail n sid status) ctx secure

/-- A write of the SUBMIT window of a core whose cluster is off or fenced: it meets decode failure, and the submission is
refused with FUNC_OFF (R22, R33, Table 3.5). -/
def Dev.submitOff (d : Dev) (n : Nat) (q : Req) : Dev :=
  (d.decodeFail q).1.submitRefuse n q.sid 0x0205 q.ctx q.secure

/-- The status of the first refusal of Table 3.5 that holds, none where the submission is accepted. -/
def Dev.submitStatus (d : Dev) (n ctx : Nat) (x : Desc) : Option Nat :=
  let r := regionOf n
  if !d.clusterUp (clusterOf n) || d.funcClosed (0x20 + clusterOf n) then some 0x0205
  else if !d.gb (B.core n) F.core_UCODE_VALID || d.gb (B.core n) F.core_FENCED then some 0x0205
  else if x.ctx ≠ ctx ∧ ctx ≠ 0 then some 0x0211
  else if d.ctxState x.ctx = 0 ∨ d.ctxState x.ctx = 4 then some 0x0205
  else if d.gb B.mgmt F.mgmt_OWNED r ∧ x.ctx ≠ d.g B.mgmt F.mgmt_OWNER r ∧ x.ctx ≠ 0 then some 0x020A
  else if 256 ≤ ((d.core n).slots).length then some 0x0212
  else none

/-- A descriptor enqueued in a FREE entry, whichever (R95). -/
def Dev.enqueueDesc (d : Dev) (n : Nat) (x : Desc) : Dev :=
  let f := d.fresh
  let c := f.2.core n
  let e : QEntry := { slot := freeSlot c.slots 256 (f.1 % 256), desc := x, st := .queued, exec := n }
  f.2.setCore n { c with q := c.q ++ [e] }

/-- A 64-byte write to the SUBMIT window of core `n` (R93, R94): its status, 0 where it is accepted. -/
def Dev.submit (d : Dev) (n sid ctx : Nat) (secure : Bool) (x : Desc) : Dev × Nat :=
  match d.submitStatus n ctx x with
  | some s => (d.submitRefuse n sid s ctx secure, s)
  | none => (d.enqueueDesc n x, 0)

/-! ### Completion (R99–R103) -/

/-- Status and DETAIL of what a descriptor has met, with SP_POISON and INDEX_OOR in their places (R103). -/
def Result.final (r : Result) : Nat × Nat :=
  firstStatus (r.met ++ (if r.pois = 0 then [] else [(0x0213, r.poisFirst % 2 ^ 14 + 2 ^ 16 * min r.pois 65535)]) ++
    (if r.oor = 0 then [] else [(0x0216, min r.oor (2 ^ 32 - 1))]))

/-- A completion record (Table 3.7). -/
def cplRecord (e : QEntry) (status detail time : Nat) : Bytes :=
  natLE 2 status ++ [byte e.res.flags, byte e.slot] ++ natLE 2 e.desc.ctxTag ++ natLE 2 e.exec ++ natLE 4 time ++
  natLE 4 detail

/-- An entry of a queue of cluster `c` may be its head: its context may start operations (R275) and no DRAIN holds it
(R409). -/
def Dev.mayHead (d : Dev) (c : Nat) (x : Desc) : Bool := d.ctxMayStart x.ctx && !d.drainHeld c x.ctx

/-- The head of a queue of cluster `c`: the oldest QUEUED entry that may be one, none of the passed-over entries before
it sharing a granule with it (R96, R98, R275, R409). -/
def Dev.headOf (d : Dev) (c : Nat) : List QEntry → List Desc → Option QEntry
  | [], _ => none
  | e :: es, older =>
    if e.st ≠ .queued then d.headOf c es older
    else if d.mayHead c e.desc then (if older.any (fun x => x.touches e.desc) then none else some e)
    else d.headOf c es (older ++ [e.desc])

/-- The head of core `n`. -/
def Dev.head (d : Dev) (n : Nat) : Option QEntry := d.headOf (clusterOf n) (d.core n).q []

/-- The signal of an entry that ends: made and applied, before its record is available (R99); an entry that has not
passed admission is checked first (R291). -/
def Dev.completeSignal (d : Dev) (n : Nat) (e : QEntry) : Dev :=
  if e.desc.sigEn ∧ !e.sigDenied then
    (if e.checked then d.signal e.desc.sigIdx e.exec e.desc.sigIncr e.desc.ctx (d.ctxSecure e.desc.ctx)
     else d.signalChecked e.desc.sigIdx n e.desc.ctx (d.ctxSecure e.desc.ctx) e.desc.sigIncr).syncDrain e.desc.sigIdx
  else d

/-- An entry ends with a status: its signal is made, then its record is kept and its queue entry leaves (R99, R100,
R291). -/
def Dev.complete (d : Dev) (n slot status detail : Nat) : Dev :=
  match d.entry n slot with
  | none => d
  | some e =>
    let d := if e.watching then d.syncForget e.desc.waitIdx (.core n slot) else d
    let d := d.completeSignal n e
    let c := d.core n
    let keep := status ≠ 0 || !e.desc.cplSuppress
    let d := d.setCore n { c with
      q := c.q.filter (fun x => x.slot != slot)
      cpl := if keep then c.cpl ++ [⟨slot, cplRecord e status detail d.t32, e.own⟩] else c.cpl }
    let d := if status = 0x0301 then d.inc (B.spu (regionOf e.exec)) F.spu_SPARSE_WARN_CNT else d
    let d := if 0x04 ≤ status / 256 ∧ status / 256 ≤ 0x06 then
        d.event (status / 256 + 3) 0 status (dtlWord detail) e.desc.ctx (d.ctxSecure e.desc.ctx)
      else d
    d.settle e.desc.ctx

/-- Remote accesses of an entry that ends before they do: their answers retire their tags and write nothing (R27, R30). -/
def Dev.detachRemote (d : Dev) (n slot : Nat) : Dev :=
  { d with remoteOps := d.remoteOps.map (fun r =>
      if r.op = .core n slot then { r with op := .ended (engineOf n), dest := .none } else r) }

/-- An entry ends with 0x0206 (R30, R96, R280). -/
def Dev.abortEntry (d : Dev) (n slot : Nat) : Dev := (d.detachRemote n slot).complete n slot 0x0206 0

/-- Entries of core `n` that meet a test end with 0x0206, oldest first. -/
def Dev.abortWhere (d : Dev) (n : Nat) (p : QEntry → Bool) : Dev :=
  ((d.core n).q.filter p).foldl (fun d e => d.abortEntry n e.slot) d

/-- Core `n` is fenced (R30, R408): every entry of its queue ends with 0x0206, and so does an entry it had stolen. -/
def Dev.fenceCore (d : Dev) (n : Nat) : Dev :=
  let d := d.abortWhere n (fun _ => true)
  let d := d.cores.foldl (fun d x => d.abortWhere x.1 (fun e => e.st == .stolen && e.exec == n)) d
  (d.pb (B.core n) F.core_FENCED true).pb (B.core n) F.core_ST_PASS false

/-- CORE_WATCHDOG: the core that executes the entry in slot `slot` of core `n`'s queue makes no progress on it for
1,048,576 ARITH cycles (R30, R135). It does nothing unless a core's array or sequencer executes that entry. -/
def Dev.watchdog (d : Dev) (n slot : Nat) : Dev :=
  match d.entry n slot with
  | none => d
  | some e =>
    if e.st ≠ .queued ∧ (e.desc.onArray ∨ e.desc.cls = some .nop) then
      ((d.abortEntry n slot).fenceCore e.exec).event 0x01 e.exec 0x0217
        (dtl [(2, e.exec), (1, slot), (2, e.desc.ctxTag)]) e.desc.ctx (d.ctxSecure e.desc.ctx)
    else d

/-! ### Issue (R84, R96–R98, R109, R291) -/

/-- Both sync objects of an entry checked against the core whose queue holds it (R290, R291): true where both pass;
each refusal is reported, the wait object's first. -/
def Dev.syncAdmit (d : Dev) (n : Nat) (x : Desc) : Dev × Option Nat × Bool :=
  let w := if x.waitEn then d.syncDeny x.waitIdx n x.ctx else none
  let s := if x.sigEn then d.syncDeny x.sigIdx n x.ctx else none
  let d := match w with
    | some r => d.syncDenied x.waitIdx false r x.ctx (d.ctxSecure x.ctx)
    | none => d
  let d := match s with
    | some r => d.syncDenied x.sigIdx true r x.ctx (d.ctxSecure x.ctx)
    | none => d
  match w, s with
  | some r, s => (d, some (syncWord x.waitIdx false r), s.isSome)
  | none, some r => (d, some (syncWord x.sigIdx true r), true)
  | none, none => (d, none, false)

/-- A registered transfer shares a granule with a range (R109: tested per granule). -/
def SbXfer.touches (t : SbXfer) (r : Range) : Bool :=
  (List.range t.rows).any (fun i => overlaps (t.base + i * t.stride) t.rowG r.base r.len)

/-- A registered flow-engine transfer keeps an entry from issuing (R109). -/
def SbXfer.blocks (t : SbXfer) (x : Desc) : Bool :=
  (t.write && x.allReads.any t.touches) || x.allWrites.any t.touches

/-- Descriptor entries of core `n`'s scoreboard in use (R109, R134). -/
def Core.sbDescs (c : Core) : Nat := (c.q.filter (fun e => e.st != .queued && !e.raw)).length

/-- The core's array is busy: an ISSUED array descriptor of its own or a stolen one (R97, R132). -/
def Dev.arrayBusy (d : Dev) (n : Nat) : Bool :=
  (d.core n).q.any (fun e => e.st == .issued && e.desc.onArray) ||
  d.cores.any (fun x => x.2.q.any (fun e => e.st == .stolen && e.exec == n))

/-- The entries of a queue before a slot, in queue order. -/
def Core.before (c : Core) (slot : Nat) : List QEntry := c.q.takeWhile (fun e => e.slot != slot)

/-- An entry would run in raw mode (R110). -/
def Dev.rawMode (d : Dev) (n : Nat) (x : Desc) : Bool := d.gb (B.core n) F.core_SB_BYPASS && x.ctx == 0

/-- The domain of the memory-side block that executes a class. -/
def blockDom : Cls → Option Nat
  | .voxelize => some Dom.firn
  | .rulebook => some Dom.firn
  | .mapLookup => some Dom.moraine
  | .mapUpdate => some Dom.moraine
  | .topk => some Dom.sastrugi
  | _ => none

/-- Entries of all cores that a block of domain `k` has received and not ended (PEND of Firn, Moraine, Sastrugi). -/
def Dev.blockPend (d : Dev) (k : Nat) : List (Nat × QEntry) :=
  d.cores.flatMap (fun x => (x.2.q.filter (fun e => e.st != .queued && !e.done &&
    (match e.desc.cls with
     | some c => blockDom c == some k
     | none => false))).map (fun e => (x.1, e)))

/-- The block that executes a descriptor takes it: READY, and fewer than 64 descriptors pending (R156, R202, R219). -/
def Dev.blockTakes (d : Dev) (x : Desc) : Bool :=
  match x.cls with
  | none => true
  | some c => match blockDom c with
    | none => true
    | some k => d.domUp k && decide ((d.blockPend k).length < 64) &&
      (if k = Dom.firn then d.gb B.firn F.firn_READY else if k = Dom.moraine then d.gb B.moraine F.moraine_READY
       else d.gb B.sastrugi F.sastrugi_READY)

/-- Context `c` owns every region of the package (R263). -/
def Dev.ownsAll (d : Dev) (c : Nat) : Bool :=
  (List.range 8).all (fun r => d.gb B.mgmt F.mgmt_OWNED r && d.g B.mgmt F.mgmt_OWNER r == c)

/-- What keeps the head of core `n` from issuing once its wait has held: FENCE, an earlier entry it meets, the
scoreboard, an issue slot, the array (R96–R98, R109). A NOP takes one of the four issue slots: log entry 186. -/
def Dev.mayIssue (d : Dev) (n : Nat) (e : QEntry) : Bool :=
  let c := d.core n
  let older := c.before e.slot
  let raw := d.rawMode n e.desc
  !(e.desc.fence && !older.isEmpty) &&
  !older.any (fun o => o.st != .queued && o.desc.conflicts e.desc) &&
  (raw || (!c.sb.any (fun t => t.blocks e.desc) && decide (c.sbDescs < 16))) &&
  decide (c.issued < 4) && !(e.desc.onArray && d.arrayBusy n) && d.blockTakes e.desc

/-- The executing block of an entry is off or being disabled (R280), or its domain is off (R175, R202, R226). -/
def Dev.blockOff (d : Dev) (n : Nat) (x : Desc) : Bool :=
  match x.cls with
  | some c => (match blockFunc n c with
    | some f => d.funcClosed f
    | none => false) || (match blockDom c with
    | some k => !d.domOn k
    | none => false)
  | none => false

/-- The head's sync objects: admitted, its waiter registered where it waits, and whether its wait has held. -/
def Dev.headWait (d : Dev) (n : Nat) (e : QEntry) : Dev :=
  let d := if e.checked then d else d.modEntry n e.slot (fun e => { e with checked := true })
  if !e.desc.waitEn || e.released || e.watching then d
  else d.syncRegister e.desc.waitIdx ⟨.core n e.slot, e.desc.waitEq, e.desc.waitValue⟩

/-- DESC_ISSUE of core `n` (R84, R96, R291): the head is refused with DESC_INVALID, completes with SYNC_DENIED or
FUNC_OFF, registers its wait, or issues. A cluster under a self-test slice issues nothing (R407). -/
def Dev.descIssue (d : Dev) (n : Nat) : Dev :=
  if !d.clusterUp (clusterOf n) || d.slotHeld (clusterOf n) || d.gb (B.core n) F.core_FENCED then d
  else match d.head n with
    | none => d
    | some e => match e.desc.invalid with
      | some r => d.complete n e.slot 0x0210 r
      | none =>
        let a : Dev × Option Nat × Bool := if e.checked then (d, none, false) else d.syncAdmit n e.desc
        match a.2.1 with
        | some w =>
          (a.1.modEntry n e.slot (fun e => { e with checked := true, sigDenied := a.2.2 })).complete n e.slot 0x0101 w
        | none =>
          let d := a.1.headWait n e
          match d.entry n e.slot with
          | none => d
          | some e =>
            if e.desc.waitEn && !e.released then d
            else if d.blockOff n e.desc then d.complete n e.slot 0x0205 0
            else if d.mayIssue n e then
              let d := { d with issueSeq := d.issueSeq + 1 }.modEntry n e.slot (fun e =>
                { e with st := .issued, exec := n, raw := d.rawMode n e.desc, issueNo := d.issueSeq
                         fpsOk := d.ownsAll (e.desc.param 0x31 1) })
              (d.incW (B.core n) F.core_ISSUE_CNT).p (B.core n) F.core_HEAD_WAIT_CYC 0
            else d

/-- The entry runs on a flow engine, and the ABORT that reaches it is one of its context or its engine, which ends it at
the next granule; every other ABORT of a core's or region unit's work ends it at the end of its descriptor (Table 9.6). -/
def Dev.abortCuts (d : Dev) (n : Nat) (e : QEntry) : Bool :=
  match d.abortFunc, e.desc.cls with
  | some f, some c => (c == .gather || c == .scatter || c == .store) && (decide (f < 16) || f == 0x40 + engineOf n)
  | _, _ => false

/-- DESC_COMPLETE of an entry (R99): its execution has ended, no post of it is on its way or held, and no remote access is
outstanding; or an ABORT reaches it, parked, at its end, or at a granule of a flow engine (R272, R280, R281). -/
def Dev.descComplete (d : Dev) (n slot : Nat) : Dev :=
  match d.entry n slot with
  | none => d
  | some e =>
    if e.st = .queued ∨ d.remoteOps.any (fun r => r.op == .core n slot) then d
    else if d.entryAborted n e && (e.done || e.parked || d.abortCuts n e) then d.abortEntry n slot
    else if e.done && e.held == 0 && !(d.core e.exec).posts.any (fun p => p.home == n && p.slot == slot)
    then let r := e.res.final
         d.complete n slot r.1 r.2
    else d

/-! ### Stealing (R132–R135) -/

/-- Core `t` may take work (R132, R280, R407). -/
def Dev.isThief (d : Dev) (t : Nat) : Bool :=
  d.clusterUp (clusterOf t) && !d.funcClosed (0x20 + clusterOf t) && !d.slotHeld (clusterOf t) && d.gb (B.core t) F.core_STEAL_EN &&
  !d.gb (B.core t) F.core_FENCED && d.gb (B.core t) F.core_UCODE_VALID && !d.arrayBusy t &&
  !(d.core t).q.any (fun e => e.st == .queued)

/-- An entry of victim `v` may be taken by thief `t` (R98, R133, R275, R409). -/
def Dev.eligible (d : Dev) (t v : Nat) (e : QEntry) : Bool :=
  let x := e.desc
  let c := d.core v
  e.st == .queued && x.onArray && !x.noSteal && !x.fence && x.invalid.isNone &&
  !(c.before e.slot).any (fun o => o.desc.touches x) && !d.rawMode v x &&
  (!x.waitEn || e.released || (⟨.core v e.slot, x.waitEq, x.waitValue⟩ : Watch).holds (d.syncCount x.waitIdx)) &&
  !c.sb.any (fun s => s.blocks x) && decide (c.sbDescs < 16) &&
  bit (d.g (B.spu (regionOf t)) F.spu_STEAL_CTX_MASK (clusterOf t % 4)) x.ctx && d.ctxMayStart x.ctx &&
  !d.drainHeld (clusterOf v) x.ctx

/-- The cores a thief searches, in order (R132). -/
def victims (t : Nat) : List Nat :=
  let c := clusterOf t
  let own := (List.range 15).map (fun i => 16 * c + (t % 16 + 1 + i) % 16)
  let partner := (List.range 16).map (fun i => 16 * (c / 4 * 4 + (c % 4 ^^^ 1)) + i)
  own ++ partner

/-- The entry a thief takes: the youngest eligible one of the first victim that holds one. -/
def Dev.stealChoice (d : Dev) (t : Nat) : Option (Nat × QEntry) :=
  (victims t).findSome? (fun v =>
    if d.clusterUp (clusterOf v) && !d.slotHeld (clusterOf v) && d.gb (B.core v) F.core_STEAL_EN &&
        !d.gb (B.core v) F.core_FENCED then
      (((d.core v).q.filter (d.eligible t v)).getLast?).map (fun e => (v, e))
    else none)

/-- STEAL by core `t` (R132–R134): its sync objects are checked as the thief takes it (R291). -/
def Dev.steal (d : Dev) (t : Nat) : Dev :=
  if !d.isThief t then d
  else match d.stealChoice t with
    | none => d
    | some (v, e) =>
      let a : Dev × Option Nat × Bool := if e.checked then (d, none, false) else d.syncAdmit v e.desc
      match a.2.1 with
      | some w =>
        (a.1.modEntry v e.slot (fun e => { e with checked := true, sigDenied := a.2.2 })).complete v e.slot 0x0101 w
      | none =>
        let d := if e.watching then a.1.syncForget e.desc.waitIdx (.core v e.slot) else a.1
        let d := d.modEntry v e.slot (fun e =>
          { e with st := .stolen, exec := t, checked := true, released := true, watching := false })
        let bt := B.spu (regionOf t)
        let d := (d.incW (B.core t) F.core_ISSUE_CNT).inc bt F.spu_STEAL_IN_CNT (clusterOf t % 4)
        let d := if clusterOf t = clusterOf v then d else d.inc bt F.spu_STEAL_XCL_CNT (clusterOf t % 4)
        d.inc bt F.spu_STEAL_OUT_CNT (clusterOf v % 4)

/-! ### Records, microprogram, fence, windows, counters -/

/-- A write of CPL_POP (R101). -/
def Dev.cplPop (d : Dev) (n slot : Nat) : Dev :=
  let c := d.core n
  match c.cpl with
  | r :: rs => if r.slot = slot then d.setCore n { c with cpl := rs } else d.inc (B.core n) F.core_CPL_POP_MISS_CNT
  | [] => d.inc (B.core n) F.core_CPL_POP_MISS_CNT

/-- IDLE of CORE_STAT: no entry ISSUED and none QUEUED. -/
def Core.idle (c : Core) : Bool := !c.q.any (fun e => e.st == .issued || e.st == .queued)

/-- QUEUE_USED of CORE_STAT. -/
def Core.used (c : Core) : Nat := c.q.length + c.cpl.length

/-- A word written to the UCODE window (R115). -/
def Dev.ucodeWrite (d : Dev) (n sid off v : Nat) (ctx : Nat) : Dev :=
  let c := d.core n
  if (c.idle && c.used == 0) || d.gb (B.core n) F.core_FENCED then
    (d.setCore n { c with ucode := c.ucode.put off (v % 2 ^ 32) }).pb (B.core n) F.core_UCODE_VALID false
  else (d.dinc 0x7001 0x02).event 0x01 n 0x0215 (dtl [(2, n), (2, sid)]) ctx true

/-- UCODE_COMMIT (Table 3.12). -/
def Dev.ucodeCommit (d : Dev) (n : Nat) : Dev :=
  let c := d.core n
  if c.idle && c.used == 0 then d.pb (B.core n) F.core_UCODE_VALID true else d

/-- FENCE_RELEASE (Table 3.12). -/
def Dev.fenceRelease (d : Dev) (n : Nat) : Dev :=
  if d.gb (B.core n) F.core_ST_PASS then d.pb (B.core n) F.core_FENCED false else d

/-- BANK_CNT_CLR (Table 3.15). -/
def Dev.bankCntClr (d : Dev) (n : Nat) : Dev :=
  d.clearFlds (B.core n) [F.core_SUBMIT_DROP_CNT, F.core_HEAD_WAIT_CYC, F.core_SB_STALL_CYC, F.core_SP_CE_CNT,
    F.core_SP_UE_CNT, F.core_WIDE_CONFLICT_CYC, F.core_NARROW_DEFER_CYC]

/-- A refused window rewrite (R113): the address of the register `o`, stream and package named. -/
def Dev.winRewrite (d : Dev) (n w o sid ctx : Nat) : Dev :=
  d.event 0x01 n 0x0214 (dtl [(8, B.core n + 0x100 + 0x10 * w + o), (2, sid), (1, d.pkgId)]) ctx true

/-- A write of WIN_CTRL (R113, Table 3.16): the key changes only while the window is closed (a window access is one
command, so WIN_BUSY is 0 between commands); the other fields take the write; WIN_EN sets only where the range fits. -/
def Dev.winCtrl (d : Dev) (n w sid ctx v : Nat) : Dev :=
  let b := B.core n
  let new := fun (F : Fld) => v / 2 ^ (F.lo % 32) % 2 ^ F.w
  let d := [F.core_PERM_R, F.core_PERM_W, F.core_WIN_CONTEXT, F.core_WIN_SECURE].foldl (fun d F => d.p b F (new F) w) d
  let key := new F.core_KEY_SLOT
  let d := if d.gb b F.core_WIN_EN w then
      (if d.g b F.core_KEY_SLOT w = key then d else d.winRewrite n w 4 sid ctx)
    else d.p b F.core_KEY_SLOT key w
  let fits := d.g b F.core_WIN_BASE w + d.g b F.core_WIN_LEN w ≤ 16384
  d.pb b F.core_WIN_EN (bit v 0 && (d.gb b F.core_WIN_EN w || decide fits)) w

/-- A write of WIN_RANGE (R113). -/
def Dev.winRange (d : Dev) (n w sid ctx v : Nat) : Dev :=
  let b := B.core n
  if d.gb b F.core_WIN_EN w then d.winRewrite n w 0 sid ctx
  else (d.p b F.core_WIN_BASE (v % 65536) w).p b F.core_WIN_LEN (v / 65536) w

/-- A write of WIN_PEERS (R113). -/
def Dev.winPeers (d : Dev) (n w sid ctx v : Nat) : Dev :=
  let b := B.core n
  if d.gb b F.core_WIN_EN w then d.winRewrite n w 8 sid ctx else d.p b F.core_PEER_SET v w

/-- The open window that admits an access of a peer, if any (R111): the whole access inside it, its direction granted,
the package in its peer set, the packet under its job key. -/
def Dev.winFor (d : Dev) (n gran len pkg slot : Nat) (wr : Bool) : Option Nat :=
  let b := B.core n
  (List.range 4).find? (fun w => d.gb b F.core_WIN_EN w && decide (d.g b F.core_WIN_BASE w ≤ gran) &&
    decide (gran + len ≤ d.g b F.core_WIN_BASE w + d.g b F.core_WIN_LEN w) &&
    (if wr then d.gb b F.core_PERM_W w else d.gb b F.core_PERM_R w) && bit (d.g b F.core_PEER_SET w) pkg &&
    d.g b F.core_KEY_SLOT w == slot)

/-- A refused window access (R111): address, stream and package named. No window admits it, so it has no context and no
world (R44). The address is the offset within the peer window that it came with: log entry 180. -/
def Dev.winDeny (d : Dev) (n addr sid pkg : Nat) : Dev :=
  d.event 0x01 n 0x0214 (dtl [(8, addr), (2, sid), (1, pkg)])

end Sys2Proof.Machine
end

