-- ==== Sys2Proof/Machine/Array.lean ====
section
/-!
DEFINITION. The classes a core's array executes: DENSE_MM, ELEMENTWISE and REDUCE (R89–R91), the sparse classes
(R117–R129), what an ISSUED entry's execution records (R99, R103), and the check posts of CHECKSUM (R398).
Choices of the model: log entries 8, 9, 14, 15, 17, 22, 27, 182, 184.
-/

namespace Sys2Proof.Machine

/-! ### Operands read from a scratchpad -/

/-- A decoded element: its value, whether R67 flushed it, whether it was read poisoned (R103). -/
structure Elem where
  v : Val
  ftz : Bool := false
  bad : Bool := false
  deriving DecidableEq, Repr

/-- An absent element, which counts as zero (R117). -/
def Elem.zero : Elem := ⟨Val.zero, false, false⟩

/-- Bytes of an operand with the poison flag of each granule, and the granules of the scratchpad read poisoned. -/
structure Buf where
  data : Bytes := []
  bad : List Bool := []
  /-- granule numbers read poisoned, in the order read -/
  seen : List Nat := []
  deriving DecidableEq, Repr

/-- A byte of the buffer was read poisoned. -/
def Buf.badAt (b : Buf) (o : Nat) : Bool := b.bad.getD (o / 64) false

/-- Some byte of a run was read poisoned. -/
def Buf.badIn (b : Buf) (o n : Nat) : Bool :=
  n != 0 && (List.range ((o + n - 1) / 64 - o / 64 + 1)).any (fun i => b.bad.getD (o / 64 + i) false)

/-- The granules that hold the first `n` bytes from granule `g` of core `core`'s scratchpad, read by `w`. -/
def Dev.readBuf (d : Dev) (core g n : Nat) (w : Initiator) : Dev × Buf :=
  let r := d.spRead core g (ceilDiv n 64) w
  (r.1, ⟨r.2.1, r.2.2, (r.2.2.zipIdx.filter (·.1)).map (fun x => g + x.2)⟩)

/-- A buffer read from granule `g` on extended to the first `n` bytes; no granule is read twice. -/
def readRest (h : Dev × Buf) (core g n : Nat) (w : Initiator) : Dev × Buf :=
  let k := h.2.bad.length
  let r := h.1.readBuf core (g + k) (n - 64 * k) w
  (r.1, ⟨h.2.data ++ r.2.data, h.2.bad ++ r.2.bad, h.2.seen ++ r.2.seen⟩)

/-- Element `i` of row `r` of an operand of `rows` × `len` that starts at byte `o` of a buffer (R62–R64, R67). -/
def Buf.elem (b : Buf) (f : Fmt) (rows len o r i : Nat) : Elem :=
  let p := o + r * f.rowBytes len + i * f.bits / 8
  let code := if f.bits = 4 then fieldN b.data p 1 / 16 ^ (i % 2) % 16 else fieldN b.data p (f.bits / 8)
  let s := o + alignUp (rows * f.rowBytes len) 64 + r * (len / 32) + i / 32
  let x := decodeIn f code (if f.isMx then fieldN b.data s 1 else 127)
  ⟨x.1, x.2, b.badAt p || (f.isMx && b.badAt s)⟩

/-- An operand as its rows of elements. -/
def Buf.rows (b : Buf) (f : Fmt) (rows len : Nat) : List (List Elem) :=
  (List.range rows).map (fun r => (List.range len).map (fun i => b.elem f rows len 0 r i))

/-- The flags of elements read (R77). -/
def readFlags (l : List Elem) : AFlags :=
  l.foldl (fun a e => (a.or e.v.flags).or { ftz := e.ftz }) {}

/-! ### Results -/

/-- A result before conversion: exact integer or FP32 value, whether it is an integer accumulation, whether it is
poisoned, and the flags of its partial values. -/
structure Part where
  v : Val
  int : Bool
  bad : Bool
  fl : AFlags := {}
  deriving DecidableEq, Repr

/-- The old contents of DST joined to a result (Table 3.2 ACCUM, R68, R69). -/
def Part.join (a : Part) (fd : Fmt) (old : Elem) : Part :=
  let bad := a.bad || old.bad
  if fd = .int32 then
    if a.int then ⟨Val.ofInt (a.v.signed + old.v.signed), true, bad, a.fl⟩
    else ⟨Val.addExact a.v old.v, false, bad, a.fl.or (Val.flagsOf [a.v, old.v])⟩
  else ⟨Val.add32 (Val.round32 a.v) old.v, false, bad, a.fl.or (Val.flagsOf [Val.round32 a.v, old.v])⟩

/-- The value converted to FMT_D: scaled where FMT_D is narrower than the accumulator (R90). -/
def Part.scaled (a : Part) (fd : Fmt) (scale : Val) : Val := if Desc.wide fd then a.v else Val.mul a.v scale

/-- Rows of results converted and packed: bytes, poisoned granules, flags (R62, R63, R75, R76). The elements of an MX
block with a poisoned member are all poisoned, since they share its scale. -/
def packRows (fd : Fmt) (rows : List (List (Val × Bool))) : Bytes × List Bool × AFlags :=
  let len := (rows.headD []).length
  let rb := fd.rowBytes len
  if fd.isMx then
    let bs := rows.map (fun r => (chunks 32 r).map (fun b =>
      let e := encodeMx fd (b.map (·.1))
      (e, b.any (·.2))))
    let elems := bs.flatMap (fun r => packCodes fd.bits (r.flatMap (fun b => b.1.2.1)))
    let scales := bs.flatMap (fun r => r.map (fun b => byte b.1.1))
    let base := alignUp elems.length 64
    let fl := bs.flatten.foldl (fun a b => a.or b.1.2.2) ({} : AFlags)
    let bad := bs.zipIdx.flatMap (fun r => (r.1.zipIdx.filter (fun b => b.1.2)).flatMap (fun b =>
      [(r.2 * rb + b.2 * 32 * fd.bits / 8) / 64, (base + r.2 * (len / 32) + b.2) / 64]))
    let data := padTo base elems ++ scales
    (data, (List.range (ceilDiv data.length 64)).map (fun g => bad.contains g), fl)
  else
    let es := rows.map (fun r => r.map (fun x => encodeOut fd x.1))
    let data := es.flatMap (fun r => padTo rb (packCodes fd.bits (r.map (·.1))))
    let fl := es.flatten.foldl (fun a e => a.or e.2) ({} : AFlags)
    let bad := rows.zipIdx.flatMap (fun r => (r.1.zipIdx.filter (fun x => x.1.2)).map (fun x =>
      (r.2 * rb + x.2 * fd.bits / 8) / 64))
    (data, (List.range (ceilDiv data.length 64)).map (fun g => bad.contains g), fl)

/-- Distinct granules of a list. -/
def distinct (l : List Nat) : List Nat := l.foldl (fun a g => if a.contains g then a else a ++ [g]) []

/-- What a descriptor has met, from its flags and the granules it read poisoned (Table 3.8: first and count). -/
def mkResult (fl : AFlags) (seen : List Nat) (met : List (Nat × Nat) := []) : Result :=
  let s := distinct seen
  { flags := fl.toNat, met := met, pois := s.length, poisFirst := (s.min?).getD 0 }

/-- The checksum tiles of DST bytes, as posts of the executing core (R398). -/
def postsOf (exec home slot : Nat) (x : Desc) (time : Nat) (data : Bytes) : List Post :=
  (chunks 4096 data).zipIdx.map (fun t =>
    { exec := exec, home := home, slot := slot, ctxTag := x.ctxTag, gran := x.dst.base + 64 * t.2
      lenG := ceilDiv t.1.length 64, len := t.1.length, ord := t.2 % 256, crc := Crypto.crc32c t.1, time := time })

/-- DST written as the class delivers it, with its check posts where CHECKSUM is set (R398). -/
def Dev.deliver (d : Dev) (home : Nat) (e : QEntry) (data : Bytes) (bad : List Bool) : Dev :=
  let d := d.spWriteRun home e.desc.dst.base (d.who e.exec e.desc.ctx) data bad
  if e.desc.checksum then
    let c := d.core e.exec
    d.setCore e.exec { c with posts := c.posts ++ postsOf e.exec home e.slot e.desc d.t32 data }
  else d

/-- Results converted, packed and stored at DST, old contents joined where ACCUM is set; `raw` leaves OUT_SCALE out
(R91 compares). -/
def Dev.store (d : Dev) (home : Nat) (e : QEntry) (rows : List (List Part)) (fl : AFlags) (seen : List Nat)
    (met : List (Nat × Nat)) (raw : Bool := false) : Dev × Result :=
  let x := e.desc
  let fd := x.fD
  let n := rows.length
  let len := (rows.headD []).length
  let o : Dev × Buf := if x.accum then d.readBuf home x.dst.base (fd.planeBytes n len) (d.who e.exec x.ctx) else (d, {})
  let accs := if x.accum then rows.zipIdx.map (fun r => r.1.zipIdx.map (fun a => a.1.join fd (o.2.elem fd n len 0 r.2 a.2)))
    else rows
  let vals := accs.map (fun r => r.map (fun a => (if raw then a.v else a.scaled fd x.scale, a.bad)))
  let p := packRows fd vals
  let scl := if raw || Desc.wide fd then fl else fl.or x.scale.flags
  let afl := accs.flatten.foldl (fun f a => (f.or a.fl).or a.v.flags) scl
  (o.1.deliver home e p.1 p.2.1, mkResult (afl.or p.2.2) (seen ++ o.2.seen) met)

/-! ### Sums of products -/

/-- The dot product of two rows over the positions given (R68, R69). -/
def dotOf (int : Bool) (serial : Nat) (l : List (Elem × Elem)) : Part :=
  let ts := l.map (fun p => Val.mul p.1.v p.2.v)
  let bad := l.any (fun p => p.1.bad || p.2.bad)
  if int then ⟨Val.ofInt (Val.sumInt ts), true, bad, {}⟩
  else
    ⟨Val.sum32 serial ts, false, bad, Val.sumFlags serial ts⟩

/-- D = A × Bᵀ over decoded rows, with the flags of the operands (R89, R117). `rowBad` and `colBad` poison whole rows
and columns of D (R129). -/
def matOf (int : Bool) (serial : Nat) (a b : List (List Elem)) : List (List Part) :=
  a.zipIdx.map (fun r => b.zipIdx.map (fun c => dotOf int (serial + r.2 * b.length + c.2) (List.zip r.1 c.1)))

/-- Serial numbers for the sums of one descriptor taken from the model's counter. -/
def Dev.takeSerials (d : Dev) (n : Nat) : Nat × Dev := (d.serial, { d with serial := d.serial + n })

/-- DENSE_MM (R89, R90). -/
def Dev.runDense (d : Dev) (home : Nat) (e : QEntry) : Dev × Result :=
  let x := e.desc
  let w := d.who e.exec x.ctx
  let a := d.readBuf home x.srcA.base (x.fA.planeBytes x.m x.k) w
  let b := a.1.readBuf home x.srcB.base (x.fB.planeBytes x.n x.k) w
  let A := a.2.rows x.fA x.m x.k
  let Bm := b.2.rows x.fB x.n x.k
  let s := b.1.takeSerials (x.m * x.n)
  s.2.store home e (matOf x.fA.isInt s.1 A Bm) (readFlags (A.flatten ++ Bm.flatten)) (a.2.seen ++ b.2.seen) []

/-- One ELEMENTWISE result (R78, R79, R91). -/
def ewOp (v : Nat) (int : Bool) (a b : Val) : Val :=
  match v with
  | 0 => if int then Val.ofInt (Val.sumInt [a, b]) else Val.add32 a b
  | 1 => if int then Val.ofInt (Val.sumInt [a, b.neg]) else Val.add32 a b.neg
  | 2 => if int then Val.mul a b else Val.round32 (Val.mul a b)
  | 3 => Val.max79 a b
  | 4 => Val.min79 a b
  | 5 => Val.ofInt (b2n (Val.lt b a))
  | 6 => Val.ofInt (b2n (Val.eq a b))
  | 7 => if int then a else Val.round32 a
  | _ => if a.isNeg then Val.zero else if int then a else Val.round32 a

/-- ELEMENTWISE (R91). A scalar B of an MX format is one block of 32 with its scale plane (log 182); one integer and one
floating-point operand compute in FP32 (log 184). -/
def Dev.runEw (d : Dev) (home : Nat) (e : QEntry) (v : Nat) : Dev × Result :=
  let x := e.desc
  let n := x.count
  let w := d.who e.exec x.ctx
  let a := d.readBuf home x.srcA.base (x.fA.planeBytes 1 n) w
  let A := (a.2.rows x.fA 1 n).headD []
  if Desc.unary v then
    let int := x.fA.isInt
    a.1.store home e [A.map (fun p => ⟨ewOp v int p.v Val.zero, int, p.bad, {}⟩)] (readFlags A) a.2.seen []
  else
    let nb := if x.bMode = 1 then (if x.fB.isMx then 32 else 1) else n
    let b := a.1.readBuf home x.srcB.base (x.fB.planeBytes 1 nb) w
    let Bs := (b.2.rows x.fB 1 nb).headD []
    let Bv := if x.bMode = 1 then List.replicate n (Bs.headD Elem.zero) else Bs
    let int := x.fA.isInt && x.fB.isInt
    let cmp := v == 5 || v == 6
    b.1.store home e [List.zipWith (fun p q => ⟨ewOp v int p.v q.v, int, p.bad || q.bad, {}⟩) A Bv]
      (readFlags (A ++ (if x.bMode = 1 then Bs.take 1 else Bs))) (a.2.seen ++ b.2.seen) [] cmp

/-- One REDUCE row: SUM under R68 and R73, MAX and MIN under R78 and R79. -/
def reduceRow (v : Nat) (int : Bool) (serial : Nat) (l : List Elem) : Part :=
  let vs := l.map (·.v)
  let bad := l.any (·.bad)
  if v = 0 then
    if int then ⟨Val.ofInt (Val.sumInt vs), true, bad, {}⟩
    else ⟨Val.sum32 serial vs, false, bad, Val.sumFlags serial vs⟩
  else ⟨vs.foldl (if v = 1 then Val.max79 else Val.min79) .nan, int, bad, {}⟩

/-- REDUCE (R91). -/
def Dev.runReduce (d : Dev) (home : Nat) (e : QEntry) (v : Nat) : Dev × Result :=
  let x := e.desc
  let a := d.readBuf home x.srcA.base (x.fA.planeBytes x.rows x.cols) (d.who e.exec x.ctx)
  let A := a.2.rows x.fA x.rows x.cols
  let s := a.1.takeSerials x.rows
  s.2.store home e [A.zipIdx.map (fun r => reduceRow v x.fA.isInt (s.1 + r.2) r.1)] (readFlags A.flatten) a.2.seen []

/-! ### Sparse weights (R117–R129) -/

/-- Metadata drops of a descriptor (R122, R126, R127). -/
structure Drops where
  oob : Nat := 0
  grp : Nat := 0
  ord : Nat := 0
  deriving DecidableEq, Repr

/-- Drops of two parts together. -/
def Drops.add (a b : Drops) : Drops := ⟨a.oob + b.oob, a.grp + b.grp, a.ord + b.ord⟩

/-- SPARSE_META_WARN with its DETAIL (Table 4.4), where anything was dropped. -/
def Drops.met (c : Drops) : List (Nat × Nat) :=
  if c.oob = 0 ∧ c.grp = 0 ∧ c.ord = 0 then []
  else [(0x0301, min c.oob 0xFFF + 2 ^ 12 * min c.grp 0x3FF + 2 ^ 22 * min c.ord 0x3FF)]

/-- The drops counted in the region of the executing core (R147). -/
def Dev.countDrops (d : Dev) (r : Nat) (c : Drops) : Dev :=
  ((d.inc (B.spu r) F.spu_SPARSE_OOB_CNT 0 c.oob).inc (B.spu r) F.spu_SPARSE_GRP_OVF_CNT 0 c.grp).inc (B.spu r)
    F.spu_SPARSE_ORDER_CNT 0 c.ord

/-- N and M of an NM_FORM code (Table 4.2). -/
def nmForm : Nat → Nat × Nat
  | 0 => (1, 4)
  | 1 => (2, 4)
  | 2 => (1, 8)
  | 3 => (2, 8)
  | _ => (4, 16)

/-- Offset of the index plane of an N:M tile (R121). -/
def nmIndexOff (f : Fmt) (nm : Nat × Nat) : Nat :=
  alignUp (64 * (64 * nm.1 / nm.2) * f.bits / 8) 64 + (if f.isMx then 128 else 0)

/-- A decoded tile: its 64 rows of 64 elements and its drops; none where it contributes nothing. -/
abbrev Tile := List (List Elem) × Drops

/-- A row none of whose elements is stored. -/
def zeroRow : List Elem := List.replicate 64 Elem.zero

/-- A row whose every output is poisoned (R129). -/
def badRow : List Elem := List.replicate 64 ⟨Val.zero, false, true⟩

/-- A dense tile payload (R119). -/
def tileDense (f : Fmt) (b : Buf) : Tile := (b.rows f 64 64, {})

/-- The value slot of a row in which position `k` is stored under an index dword: the position's place among the set
bits of its group, where the group has a slot for it (R121, R122). -/
def nmSlot (nm : Nat × Nat) (mask k : Nat) : Option Nat :=
  let g := k / nm.2
  let j := ((List.range (k - g * nm.2)).filter (fun i => bit mask (g * nm.2 + i))).length
  if bit mask k && decide (j < nm.1) then some (g * nm.1 + j) else none

/-- Byte of value slot `slot` of row `r` of an N:M tile, and of the scale of its position `k` (R121). -/
def nmValueAt (f : Fmt) (nm : Nat × Nat) (r slot : Nat) : Nat := (r * (64 * nm.1 / nm.2) + slot) * f.bits / 8
/-- Byte of the scale of position `k` of row `r`. -/
def nmScaleAt (f : Fmt) (nm : Nat × Nat) (r k : Nat) : Nat :=
  alignUp (64 * (64 * nm.1 / nm.2) * f.bits / 8) 64 + 2 * r + k / 32

/-- Row `r` of an N:M tile (R121, R122, R129). -/
def nmRow (f : Fmt) (nm : Nat × Nat) (b : Buf) (r : Nat) : List Elem × Drops :=
  let s := 64 * nm.1 / nm.2
  let io := nmIndexOff f nm
  if b.badIn (io + 8 * r) 8 then (badRow, {})
  else
    let mask := fieldN b.data (io + 8 * r) 8
    let row := (List.range 64).map (fun k =>
      match nmSlot nm mask k with
      | some slot =>
        let p := nmValueAt f nm r slot
        let code := if f.bits = 4 then fieldN b.data p 1 / 16 ^ ((r * s + slot) % 2) % 16 else fieldN b.data p (f.bits / 8)
        let sp := nmScaleAt f nm r k
        let x := decodeIn f code (if f.isMx then fieldN b.data sp 1 else 127)
        ⟨x.1, x.2, b.badAt p || (f.isMx && b.badAt sp)⟩
      | none => Elem.zero)
    let ovf := ((List.range (64 / nm.2)).map (fun g =>
      ((List.range nm.2).filter (fun i => bit mask (g * nm.2 + i))).length - nm.1)).sum
    (row, { grp := ovf })

/-- The granules of the value and scale planes that hold a stored value of row `r` or its scale: slots beyond a group's
count of set bits are not read (R121). -/
def nmGrans (f : Fmt) (nm : Nat × Nat) (mask r : Nat) : List Nat :=
  (List.range 64).flatMap (fun k => match nmSlot nm mask k with
    | some slot => nmValueAt f nm r slot / 64 :: (if f.isMx then [nmScaleAt f nm r k / 64] else [])
    | none => [])

/-- The planes of an N:M tile at granule `base`: the index plane whole, and of the others the granules that hold a slot
in use; what is not read stands as zero (R121). -/
def Dev.readNm (d : Dev) (home base : Nat) (f : Fmt) (nm : Nat × Nat) (w : Initiator) : Dev × Buf :=
  let io := nmIndexOff f nm
  let ix := d.readBuf home (base + io / 64) 512 w
  let use := (List.range 64).flatMap (fun r =>
    if ix.2.badIn (8 * r) 8 then [] else nmGrans f nm (fieldN ix.2.data (8 * r) 8) r)
  let r := (List.range (io / 64)).foldl (fun (a : Dev × Buf) g =>
    if use.contains g then
      let x := a.1.readBuf home (base + g) 64 w
      (x.1, ⟨a.2.data ++ x.2.data, a.2.bad ++ x.2.bad, a.2.seen ++ x.2.seen⟩)
    else (a.1, ⟨a.2.data ++ zeros 64, a.2.bad ++ [false], a.2.seen⟩)) (ix.1, {})
  (r.1, ⟨r.2.data ++ ix.2.data, r.2.bad ++ ix.2.bad, ix.2.seen ++ r.2.seen⟩)

/-- An N:M tile. -/
def tileNm (f : Fmt) (nm : Nat × Nat) (b : Buf) : Tile :=
  let rs := (List.range 64).map (nmRow f nm b)
  (rs.map (·.1), rs.foldl (fun a r => a.add r.2) {})

/-- A stream segment or CSR row: entries `lo … hi-1` of an index plane at `io` and a value plane at `vo`, kept while
their indices rise and lie in extent (R126, R127). -/
def scanSeg (f : Fmt) (b : Buf) (io vo : Nat) (ok : Nat → Bool) : Nat → Nat → Option Nat → List (Nat × Elem) × Drops
  | 0, _, _ => ([], {})
  | n + 1, t, prev =>
    let k := fieldN b.data (io + 2 * t) 2
    if (match prev with | some p => decide (k ≤ p) | none => false) then ([], { ord := 1 })
    else
      let rest := scanSeg f b io vo ok n (t + 1) (some k)
      if ok k then
        let p := vo + t * f.bits / 8
        let code := if f.bits = 4 then fieldN b.data p 1 / 16 ^ (t % 2) % 16 else fieldN b.data p (f.bits / 8)
        let x := decodeIn f code 127
        ((k, ⟨x.1, x.2, b.badAt p⟩) :: rest.1, rest.2)
      else (rest.1, rest.2.add { oob := 1 })

/-- Row `r` of an operand with a ROW_PTR plane at 0 (R125–R129): its entries, its drops, and whether it is not
interpreted. `hold` is the number of entries its planes hold. -/
def ptrRow (f : Fmt) (b : Buf) (io vo hold : Nat) (ok : Nat → Bool) (r : Nat) : List (Nat × Elem) × Drops × Bool :=
  if b.badIn (4 * r) 8 then ([], {}, true)
  else
    let lo := fieldN b.data (4 * r) 4
    let hi := fieldN b.data (4 * r + 4) 4
    if hi < lo ∨ hold < hi then ([], { oob := 1 }, false)
    else if b.badIn (io + 2 * lo) (2 * (hi - lo)) then ([], {}, true)
    else
      let s := scanSeg f b io vo ok (hi - lo) lo none
      (s.1, s.2, false)

/-- A CSR tile whose planes have been read (R123, R124). -/
def tileCsr (f : Fmt) (k tk : Nat) (b : Buf) (nnz : Nat) : Tile :=
  let vo := 320 + alignUp (2 * nnz) 64
  let rs := (List.range 64).map (fun r =>
    let x := ptrRow f b 320 vo nnz (fun i => decide (tk * 64 ≤ i) && decide (i < tk * 64 + 64) && decide (i < k)) r
    (if x.2.2 then badRow else (List.range 64).map (fun c =>
      ((x.1.find? (fun e => e.1 == tk * 64 + c)).map (·.2)).getD Elem.zero), x.2.1))
  (rs.map (·.1), rs.foldl (fun a r => a.add r.2) {})

/-- One tile of a sparse weight operand (R117–R129): `w` is its directory entry, `form` the N:M form of SPARSE_MM_NM
and none for CSR. -/
def Dev.readTile (d : Dev) (home : Nat) (e : QEntry) (form : Option (Nat × Nat)) (tk w : Nat) :
    Dev × Tile × List Nat :=
  let x := e.desc
  let f := x.fB
  let off := bits w 15 0
  let len := bits w 30 16
  let none_ : Tile := (List.replicate 64 zeroRow, {})
  let fault : Tile := (List.replicate 64 zeroRow, { oob := 1 })
  let who := d.who e.exec x.ctx
  let rd := fun (d : Dev) (n : Nat) => d.readBuf home (x.srcB.base + off) n who
  if len = 0 then (d, none_, [])
  else if x.srcB.len < off + len then (d, fault, [])
  else if !bit w 31 then
    if len * 64 < f.planeBytes 64 64 then (d, fault, [])
    else let r := rd d (f.planeBytes 64 64)
         (r.1, tileDense f r.2, r.2.seen)
  else match form with
    | some nm =>
      if len * 64 < nmIndexOff f nm + 512 then (d, fault, [])
      else let r := d.readNm home (x.srcB.base + off) f nm who
           (r.1, tileNm f nm r.2, r.2.seen)
    | none =>
      if len < 5 then (d, fault, [])
      else
        let h := rd d 260
        if h.2.badIn 256 4 then (h.1, (List.replicate 64 badRow, {}), h.2.seen)
        else
          let nnz := fieldN h.2.data 256 4
          let need := 320 + alignUp (2 * nnz) 64 + ceilDiv (nnz * f.bits) 8
          if len * 64 < need then (h.1, fault, h.2.seen)
          else let r := readRest h home (x.srcB.base + off) need who
               (r.1, tileCsr f x.k tk r.2 nnz, r.2.seen)

/-- The weights of SPARSE_MM_NM and SPARSE_MM_CSR as N rows of K elements, tile by tile (R117, R129). -/
def Dev.readWeights (d : Dev) (home : Nat) (e : QEntry) (form : Option (Nat × Nat)) :
    Dev × List (List Elem) × Drops × List Nat :=
  let x := e.desc
  let tn := x.n / 64
  let tk := x.k / 64
  let m := d.readBuf home x.metaR.base (4 * (tn * tk)) (d.who e.exec x.ctx)
  let band := fun (d : Dev) (i : Nat) =>
    (List.range tk).foldl (fun (a : Dev × List (List Elem) × Drops × List Nat) j =>
      let en := i * tk + j
      if m.2.badIn (4 * en) 4 then (a.1, List.zipWith (· ++ ·) a.2.1 (List.replicate 64 badRow), a.2.2.1, a.2.2.2)
      else
        let t := a.1.readTile home e form j (fieldN m.2.data (4 * en) 4)
        (t.1, List.zipWith (· ++ ·) a.2.1 t.2.1.1, a.2.2.1.add t.2.1.2, a.2.2.2 ++ t.2.2))
      (d, List.replicate 64 [], {}, [])
  (List.range tn).foldl (fun (a : Dev × List (List Elem) × Drops × List Nat) i =>
    let b := band a.1 i
    (b.1, a.2.1 ++ b.2.1, a.2.2.1.add b.2.2.1, a.2.2.2 ++ b.2.2.2)) (m.1, [], {}, m.2.seen)

/-- SPARSE_MM_NM and SPARSE_MM_CSR (R117–R129). -/
def Dev.runSparse (d : Dev) (home : Nat) (e : QEntry) (form : Option (Nat × Nat)) : Dev × Result :=
  let x := e.desc
  let a := d.readBuf home x.srcA.base (x.fA.planeBytes x.m x.k) (d.who e.exec x.ctx)
  let A := a.2.rows x.fA x.m x.k
  let w := a.1.readWeights home e form
  let s := w.1.takeSerials (x.m * x.n)
  (s.2.countDrops (regionOf e.exec) w.2.2.1).store home e (matOf x.fA.isInt s.1 A w.2.1)
    (readFlags (A.flatten ++ w.2.1.flatten)) (a.2.seen ++ w.2.2.2) w.2.2.1.met

/-! ### Sparse × sparse (R125) -/

/-- A merge operand read from its range: its rows of entries, each with whether it is not interpreted, and its drops
(R125–R129). -/
def Dev.readMerge (d : Dev) (home : Nat) (e : QEntry) (f : Fmt) (r : Range) (rows k : Nat) :
    Dev × List (List (Nat × Elem) × Bool) × Drops × List Nat :=
  let w := d.who e.exec e.desc.ctx
  let h := d.readBuf home r.base (4 * (rows + 1)) w
  if h.2.badIn (4 * rows) 4 then (h.1, List.replicate rows ([], true), {}, h.2.seen)
  else
    let nnz := fieldN h.2.data (4 * rows) 4
    let io := alignUp (4 * (rows + 1)) 64
    let vo := io + alignUp (2 * nnz) 64
    let L := r.len * 64
    let hold := min nnz (min ((L - io) / 2) ((L - vo) * 8 / f.bits))
    let b := readRest h home r.base (min L (vo + ceilDiv (nnz * f.bits) 8)) w
    let rs := (List.range rows).map (fun i => ptrRow f b.2 io vo hold (fun c => decide (c < k)) i)
    (b.1, rs.map (fun x => (x.1, x.2.2)), rs.foldl (fun a x => a.add x.2.1) {}, b.2.seen)

/-- SPARSE_SPARSE_MERGE (R125–R129). -/
def Dev.runMerge (d : Dev) (home : Nat) (e : QEntry) : Dev × Result :=
  let x := e.desc
  let a := d.readMerge home e x.fA x.srcA x.m x.k
  let b := a.1.readMerge home e x.fB x.srcB x.n x.k
  let s := b.1.takeSerials (x.m * x.n)
  let cell := fun (i : (List (Nat × Elem) × Bool) × Nat) (j : (List (Nat × Elem) × Bool) × Nat) =>
    let ps := i.1.1.filterMap (fun p => (j.1.1.find? (fun q => q.1 == p.1)).map (fun q => (p.2, q.2)))
    let r := dotOf x.fA.isInt (s.1 + i.2 * x.n + j.2) ps
    { r with bad := r.bad || i.1.2 || j.1.2 }
  let drops := a.2.2.1.add b.2.2.1
  let es := (a.2.1 ++ b.2.1).flatMap (fun r => r.1.map (·.2))
  (s.2.countDrops (regionOf e.exec) drops).store home e
    (a.2.1.zipIdx.map (fun i => b.2.1.zipIdx.map (fun j => cell i j))) (readFlags es) (a.2.2.2 ++ b.2.2.2) drops.met

/-! ### Running an issued entry -/

/-- The execution of the entry in slot `slot` of core `n`'s queue, where it has issued, is of the class asked for, has
not ended and is not parked: what it has met is recorded (R99). A region fence keeps it from nothing (R36, R96). -/
def Dev.runEntry (d : Dev) (n slot : Nat) (want : Cls → Bool) (f : Dev → QEntry → Dev × Result) : Dev :=
  match d.entry n slot with
  | none => d
  | some e =>
    match e.desc.cls with
    | none => d
    | some c =>
      if e.st = .queued ∨ e.done ∨ e.parked ∨ !want c ∨ !d.domOn (Dom.cluster (clusterOf n)) ∨
        d.gb (B.core e.exec) F.core_FENCED
      then d
      else
        let r := f d e
        r.1.modEntry n slot (fun e => { e with done := true, res := r.2 })

/-- NOP: waits and signals only (Table 3.3). -/
def Dev.runNop (d : Dev) (n slot : Nat) : Dev := d.runEntry n slot (· == .nop) (fun d _ => (d, {}))

end Sys2Proof.Machine
end

