-- ==== Sys2Proof/Machine/Region.lean ====
section
/-!
DEFINITION. Parking of operations on translation faults (R268, R270), and the region's Ablation unit and Spindrift:
PRUNE (R136–R138), the compression of tiles (R120, R139), PREDICT and its audit (R140–R145).
Choices of the model: log entries 23, 24, 25, 26.
-/

namespace Sys2Proof.Machine

/-! ### Faults inside an operation (R268–R272) -/

/-- A fault parks an operation of context `c` (R268). -/
def Dev.mayPark (d : Dev) (c status : Nat) : Bool := status == 0x0201 && c != 0 && d.ctxState c != 4

/-- Steps 2 to 4 of R270: the context leaves ACTIVE and CTX_SUSPENDED is raised. -/
def Dev.parkEvent (d : Dev) (c va point sid : Nat) (wr : Bool) : Dev :=
  let d := if d.ctxState c = 1 then d.p B.mgmt F.mgmt_STATE 2 c else d
  d.event 0x11 0 0x0207 (dtl [(8, va), (4, point % 2 ^ 32), (2, sid), (1, b2n wr)]) c (d.ctxSecure c)

/-- An entry parks at a recorded point (R268, R270). -/
def Dev.parkEntry (d : Dev) (n slot va point sid : Nat) (wr : Bool) (res : Result) : Dev :=
  match d.entry n slot with
  | none => d
  | some e =>
    let d := d.modEntry n slot (fun e => { e with parked := true, point := point, res := res })
    (d.parkEvent e.desc.ctx va point sid wr).ctxSettle e.desc.ctx

/-- An entry met a fault: it parks where it may, otherwise its execution ends with that status (R268). -/
def Dev.faultEntry (d : Dev) (n slot : Nat) (x : Xl) (point sid : Nat) (wr park : Bool) (res : Result) : Dev :=
  match d.entry n slot with
  | none => d
  | some e =>
    if park && d.mayPark e.desc.ctx x.status then d.parkEntry n slot x.va point sid wr res
    else d.modEntry n slot (fun e => { e with done := true, res := { res with met := res.met ++ [(x.status, x.detail)] } })

/-- The execution of an entry has ended with what it met. -/
def Dev.finishEntry (d : Dev) (n slot : Nat) (res : Result) : Dev :=
  d.modEntry n slot (fun e => { e with done := true, res := res })

/-- The execution of an entry has ended at a refused access of a scratchpad (R268, R278). -/
def Dev.denyEntry (d : Dev) (n slot : Nat) (x : Nat × Nat) (res : Result) : Dev :=
  d.finishEntry n slot { res with met := res.met ++ [x] }

/-- The granules that hold the first `n` bytes from granule `g` of core `core`'s scratchpad, read over the fabric by an
engine or a shared block, and the refusal that ended the read (R278). -/
def Dev.padBuf (d : Dev) (core g n : Nat) (w : Initiator) : Dev × Buf × Option (Nat × Nat) :=
  let r := d.padRead core g (ceilDiv n 64) w
  (r.1, ⟨r.2.1, r.2.2.1, (r.2.2.1.zipIdx.filter (·.1)).map (fun x => g + x.2)⟩, r.2.2.2)

/-- Run part of an entry's execution by a unit outside the core: the entry has issued, is of the class asked for, has
not ended and is not parked. -/
def Dev.withEntry (d : Dev) (n slot : Nat) (want : Cls → Bool) (f : Dev → QEntry → Dev) : Dev :=
  match d.entry n slot with
  | none => d
  | some e =>
    match e.desc.cls with
    | none => d
    | some c => if e.st = .queued ∨ e.done ∨ e.parked ∨ !want c then d else f d e

/-! ### Compression of tiles (R120, R121, R123, R137, R139) -/

/-- The code of element `c` of row `r` of a dense tile. -/
def tileCode (f : Fmt) (b : Buf) (o r c : Nat) : Nat :=
  let p := o + r * f.rowBytes 64 + c * f.bits / 8
  if f.bits = 4 then fieldN b.data p 1 / 16 ^ (c % 2) % 16 else fieldN b.data p (f.bits / 8)

/-- The first of two candidates in the ranking of R137: larger magnitude first, then lower position. -/
def outranks (a b : Val × Nat) : Bool :=
  let mag : Val → Val := fun
    | .fin _ m e => .fin false m e
    | .inf _ => .inf false
    | .nan => .nan
  Val.lt (mag b.1) (mag a.1) || (!Val.lt (mag a.1) (mag b.1) && decide (a.2 < b.2))

/-- The positions PRUNE keeps in one group (R137). -/
def keepGroup (n : Nat) (es : List (Val × Nat)) : List Nat :=
  let cs := es.filter (fun e => !e.1.isZero && !e.1.isNan)
  (cs.filter (fun e => decide ((cs.filter (fun o => outranks o e)).length < n))).map (·.2)

/-- An N:M payload of a tile whose kept positions are given row by row (R121). Slots beyond a group's kept elements
take a free value, which nothing reads. -/
def payloadNm (f : Fmt) (nm : Nat × Nat) (b : Buf) (o : Nat) (kept : List (List Nat)) (free : Nat) : Bytes :=
  let s := 64 * nm.1 / nm.2
  let rows := kept.zipIdx.map (fun r => packCodes f.bits ((List.range s).map (fun i =>
    let ks := r.1.filter (fun c => c / nm.2 == i / nm.1)
    match ks[i % nm.1]? with
    | some c => tileCode f b o r.2 c
    | none => free / 2 ^ (i * f.bits) % 2 ^ f.bits)))
  let vals := rows.flatten
  let v := padTo (alignUp vals.length 64) vals
  let sc := if f.isMx then (b.data.drop (o + alignUp (64 * f.rowBytes 64) 64)).take 128 else []
  let idx := kept.flatMap (fun r => natLE 8 (r.foldl (fun a c => a + 2 ^ c) 0))
  v ++ sc ++ idx

/-- A CSR payload of a tile whose stored positions are given row by row (Table 4.3). -/
def payloadCsr (f : Fmt) (b : Buf) (o : Nat) (kept : List (List Nat)) (base : Nat) : Bytes :=
  let ptr := (kept.foldl (fun (a : List Nat × Nat) r => (a.1 ++ [a.2 + r.length], a.2 + r.length)) ([0], 0)).1
  let p := padTo 320 (ptr.flatMap (natLE 4))
  let ix := kept.flatMap (fun r => r.flatMap (fun c => natLE 2 (base + c)))
  let vs := packCodes f.bits (kept.zipIdx.flatMap (fun r => r.1.map (fun c => tileCode f b o r.2 c)))
  p ++ padTo (alignUp ix.length 64) ix ++ padTo (alignUp vs.length 64) vs

/-- The decoded elements of one dense tile at offset `o`, row by row. -/
def tileElems (f : Fmt) (b : Buf) (o : Nat) : List (List Elem) :=
  (List.range 64).map (fun r => (List.range 64).map (fun i => b.elem f 64 64 o r i))

/-- Bytes of a dense tile, padded to a granule. -/
def tileBytes (f : Fmt) : Nat := alignUp (f.planeBytes 64 64) 64

/-- What a writer stores of a tile: nothing, a compressed payload, or the dense one (R120). -/
inductive Stored where
  | empty
  | packed (b : Bytes)
  | dense (b : Bytes)
  deriving DecidableEq, Repr

/-- The payload of what is stored. -/
def Stored.bytes : Stored → Bytes
  | .empty => []
  | .packed b => b
  | .dense b => b

/-- The directory entry of what is stored at a granule (Table 4.1). -/
def Stored.entry (s : Stored) (off : Nat) : Nat :=
  match s with
  | .empty => 0
  | .packed b => off % 65536 + 65536 * (b.length / 64) + 2 ^ 31
  | .dense b => off % 65536 + 65536 * (b.length / 64)

/-- PRUNE's form of a tile (R137): every tile that keeps something is written compressed (R120, Table 4.2). -/
def pruneTile (f : Fmt) (nm : Nat × Nat) (b : Buf) (o free : Nat) : Stored :=
  let es := tileElems f b o
  let kept := es.map (fun r => (List.range (64 / nm.2)).flatMap (fun g =>
    keepGroup nm.1 (((r.zipIdx.drop (g * nm.2)).take nm.2).map (fun e => (e.1.v, e.2)))))
  if kept.all (·.isEmpty) then .empty else .packed (payloadNm f nm b o kept free)

/-- The compressing store's form of a tile (R120, R139): `form` 0xFF is CSR. -/
def storeTile (f : Fmt) (form : Nat) (b : Buf) (o free : Nat) : Stored :=
  let es := tileElems f b o
  let kept := es.map (fun r => (r.zipIdx.filter (fun e => !e.1.v.isZero)).map (·.2))
  let dense := padTo (tileBytes f) ((b.data.drop o).take (f.planeBytes 64 64))
  if kept.all (·.isEmpty) then .empty
  else if form = 0xFF then
    let p := payloadCsr f b o kept 0
    if p.length / 64 < dense.length / 64 then .packed p else .dense dense
  else
    let nm := nmForm form
    let fits := kept.all (fun r => (List.range (64 / nm.2)).all (fun g =>
      decide ((r.filter (fun c => c / nm.2 == g)).length ≤ nm.1)))
    if fits then .packed (payloadNm f nm b o kept free) else .dense dense

/-- Tiles laid out one after another within a capacity: payloads, their poison, directory entries, the first tile not
written (R138). -/
structure Laid where
  data : Bytes := []
  bad : List Bool := []
  entries : List Nat := []
  stop : Option Nat := none
  tiles : Nat := 0
  zeroTiles : Nat := 0
  deriving DecidableEq, Repr

/-- One more tile laid out (R138): `cap` granules of payload, `dirs` directory entries. -/
def Laid.add (l : Laid) (cap dirs t : Nat) (s : Stored) (bad : Bool) : Laid :=
  match l.stop with
  | some _ => { l with entries := if l.entries.length < dirs then l.entries ++ [0xFFFFFFFF] else l.entries }
  | none =>
    let off := l.data.length / 64
    if dirs ≤ t ∨ cap < off + s.bytes.length / 64 then
      { l with stop := some t, entries := if l.entries.length < dirs then l.entries ++ [0xFFFFFFFF] else l.entries }
    else
      { l with data := l.data ++ s.bytes, bad := l.bad ++ List.replicate (s.bytes.length / 64) bad
               entries := l.entries ++ [s.entry off], tiles := l.tiles + 1
               zeroTiles := l.zeroTiles + b2n (s == .empty) }

/-- PRUNE (R136–R138), by the Ablation unit of the executing core's region. A payload with a poisoned source granule
is written poisoned (R103). -/
def Dev.runPrune (d : Dev) (home : Nat) (e : QEntry) : Dev × Result :=
  let x := e.desc
  let f := x.fA
  let n := x.param 0x28 2
  let w := d.who (0x258 + regionOf home) x.ctx
  let a := d.padBuf home x.srcA.base (n * tileBytes f) w
  let buf := a.2.1
  match a.2.2 with
  | some r => (a.1, mkResult {} buf.seen [r])
  | none =>
    let fr := a.1.fresh
    let l := (List.range n).foldl (fun (l : Laid) t =>
      let o := t * tileBytes f
      l.add x.dst.len (x.metaR.len * 16) t (pruneTile f (nmForm (x.param 0x2A 1)) buf o fr.1)
        (buf.badIn o (tileBytes f))) {}
    let dst := fr.2.padWrite home (64 * x.dst.base) w l.data l.bad
    let dir := if dst.2.isSome then dst
      else dst.1.padWrite home (64 * x.metaR.base) w (l.entries.flatMap (natLE 4)) []
    let b := B.spu (regionOf home)
    let d := (dir.1.inc b F.spu_ABL_TILE_CNT 0 l.tiles).inc b F.spu_ABL_ZERO_TILE_CNT 0 l.zeroTiles
    let es := (List.range n).flatMap (fun t => (tileElems f buf (t * tileBytes f)).flatten)
    (d, mkResult (readFlags es) buf.seen (dir.2.toList ++ (l.stop.map (fun t => (0x0302, t % 65536))).toList))

/-! ### PREDICT (R140–R145) -/

/-- The header of a predictor image (Table 4.7). -/
def imgField (b : Bytes) (o n : Nat) : Nat := fieldN b o n

/-- Output of MODE 0 (Table 4.8). -/
def predictOut (nOut layer : Nat) (named : List Nat) (capped all : Bool) : Bytes :=
  let hdr := record 64 [(0, natLE 4 named.length), (4, natLE 2 nOut), (6, [byte layer]),
    (7, [byte (b2n capped + 2 * b2n all)])]
  let mask := (List.range (ceilDiv nOut 8)).map (fun i => byte ((List.range 8).foldl (fun a j =>
    a + b2n (named.contains (8 * i + j)) * 2 ^ j) 0))
  let list := (named ++ List.replicate (nOut - named.length) 0xFFFFFFFF).flatMap (natLE 4)
  hdr ++ padTo (alignUp mask.length 64) mask ++ padTo (alignUp list.length 64) list

/-- The rows named by their scores (R140): scores above the threshold, capped, and every NaN score. -/
def namedRows (scores : List Val) (thresh : Val) (cap : Nat) : List Nat × Bool :=
  let high := (scores.zipIdx.filter (fun s => Val.lt thresh s.1))
  let capped := cap != 0 && decide (cap < high.length)
  let keep := if capped then
      high.filter (fun s => decide ((high.filter (fun o => Val.lt s.1 o.1 || (Val.eq s.1 o.1 && decide (o.2 < s.2)))).length
        < cap))
    else high
  ((scores.zipIdx.filter (fun s => s.1.isNan || keep.any (fun k => k.2 == s.2))).map (·.2), capped)

/-- The RANK inner values of MODE 0 before and after max(0, ·), which passes NaN through (R140): `p` is the matrix P. -/
def innerOf (serial : Nat) (sp : Val) (p : Nat → Val) (x : List Val) (kIn rank : Nat) : List Part :=
  (List.range rank).map (fun r =>
    let ts := (List.range kIn).map (fun k => Val.mul (p (r * kIn + k)) (x.getD k Val.zero))
    let v := Val.mul sp (Val.sum32 (serial + r) ts)
    ⟨if v.isNeg then Val.zero else v, false, false, (Val.sumFlags (serial + r) ts).or (Val.flagsOf [sp, v])⟩)

/-- The scores of MODE 0, one a row, from the inner values (R140): `q` is the matrix Q. -/
def scoresOf (serial : Nat) (sq : Val) (q : Nat → Val) (h : List Val) (rank nOut : Nat) : List Part :=
  (List.range nOut).map (fun j =>
    let ts := (List.range rank).map (fun r => Val.mul (q (j * rank + r)) (h.getD r Val.zero))
    let v := Val.mul sq (Val.sum32 (serial + j) ts)
    ⟨v, false, false, (Val.sumFlags (serial + j) ts).or (Val.flagsOf [sq, v])⟩)

/-- MODE 0's output stored at DST and its execution ended; a completion counts (R141, Table 4.14). -/
def Dev.predictEnd (d : Dev) (n slot : Nat) (e : QEntry) (w : Initiator) (out : Bytes) (bad : Bool) (res : Result) : Dev :=
  let x := e.desc
  let r := d.padWrite n (64 * x.dst.base) w out (List.replicate (Desc.predictBytes x.nOut / 64) bad)
  match r.2 with
  | some f => r.1.denyEntry n slot f res
  | none => (r.1.inc (B.spu (regionOf n)) F.spu_SPD_PRED_CNT).finishEntry n slot res

/-- PREDICT MODE 0 of the entry in slot `slot` of core `n` (R140, R141, R143), by the Spindrift of the region. -/
def Dev.predict (d : Dev) (n slot : Nat) (e : QEntry) : Dev :=
  let x := e.desc
  let r := regionOf n
  let sid := 0x258 + r
  let w := d.who sid x.ctx
  let va := x.param 0x28 6
  let kIn := x.param 0x32 2
  let rank := x.param 0x34 2
  let layer := x.param 0x36 1
  let hd := d.vaRead r x.ctx sid va 64
  match hd.2.2.2 with
  | some f => hd.1.faultEntry n slot f 0 sid false true {}
  | none =>
    let h := hd.2.1
    let hbad := hd.2.2.1.any id
    let ok := imgField h 8 2 == kIn && imgField h 10 2 == rank && imgField h 12 2 == x.nOut
    let a := hd.1.padBuf n x.srcA.base (ceilDiv (kIn * x.fA.bits) 8) w
    let es := (a.2.1.rows x.fA 1 kIn).headD []
    match a.2.2 with
    | some f => a.1.denyEntry n slot f (mkResult {} a.2.1.seen)
    | none =>
      if !ok && !hbad then
        a.1.predictEnd n slot e w (predictOut x.nOut layer (List.range x.nOut) false true) false
          (mkResult (readFlags es) a.2.1.seen [(0x0303, 0)])
      else
        let body := a.1.vaRead r x.ctx sid (va + 64) (alignUp (rank * kIn) 64 + x.nOut * rank)
        match body.2.2.2 with
        | some f => body.1.faultEntry n slot f 0 sid false true {}
        | none =>
          let i8 := fun (i : Nat) => Val.ofInt (sint 8 (fieldN body.2.1 i 1))
          let s := body.1.takeSerials (rank + x.nOut)
          let hs := innerOf s.1 (decodeRaw .fp32 (imgField h 0 4)) i8 (es.map (·.v)) kIn rank
          let sc := scoresOf (s.1 + rank) (decodeRaw .fp32 (imgField h 4 4))
            (fun i => i8 (alignUp (rank * kIn) 64 + i)) (hs.map (·.v)) rank x.nOut
          let nm := namedRows (sc.map (·.v)) (decodeRaw .fp32 (x.param 0x38 4)) (x.param 0x3C 2)
          s.2.predictEnd n slot e w (predictOut x.nOut layer nm.1 nm.2 false)
            (hbad || body.2.2.1.any id || es.any (·.bad))
            (mkResult ((hs ++ sc).foldl (fun f v => f.or v.fl) (readFlags es)) a.2.1.seen)

/-- The rows of an audit (R142): of each, whether it is needed and whether it is named. -/
def auditRows (es : List Elem) (eps : Val) (b : Buf) : List (Bool × Bool) :=
  es.zipIdx.map (fun p =>
    (p.1.v.isNan || Val.lt eps (if p.1.v.isNeg then p.1.v.neg else p.1.v),
     bit (fieldN b.data (0x40 + p.2 / 8) 1) (p.2 % 8)))

/-- The recall counts of a layer after an audit: when NEEDED has saturated, HIT stops too (R142, Table 4.14). -/
def Dev.recallAdd (d : Dev) (r layer needed hit : Nat) : Dev :=
  let q := B.spu r
  let d := if d.g q F.spu_RECALL_NEEDED layer = 2 ^ 32 - 1 then d
    else (d.inc q F.spu_RECALL_NEEDED layer needed).inc q F.spu_RECALL_HIT layer hit
  d.inc q F.spu_SPD_AUDIT_CNT

/-- PREDICT MODE 1 (R142, R143). -/
def Dev.predictAudit (d : Dev) (n slot : Nat) (e : QEntry) : Dev :=
  let x := e.desc
  let r := regionOf n
  let w := d.who (0x258 + r) x.ctx
  let layer := x.param 0x36 1
  let a := d.padBuf n x.srcA.base (ceilDiv (x.nOut * x.fA.bits) 8) w
  let b := if a.2.2.isSome then (a.1, ({} : Buf), a.2.2) else a.1.padBuf n x.srcB.base (64 + ceilDiv x.nOut 8) w
  match b.2.2 with
  | some f => b.1.denyEntry n slot f (mkResult {} (a.2.1.seen ++ b.2.1.seen))
  | none =>
    let es := (a.2.1.rows x.fA 1 x.nOut).headD []
    let rows := auditRows es (decodeRaw .fp32 (x.param 0x38 4)) b.2.1
    let needed := (rows.filter (·.1)).length
    let named := (rows.filter (·.2)).length
    let hit := (rows.filter (fun p => p.1 && p.2)).length
    let ok := fieldN b.2.1.data 4 2 == x.nOut && fieldN b.2.1.data 6 1 == layer
    let o := b.1.padWrite n (64 * x.dst.base) w
      (padTo 64 ([needed, named, hit, needed - hit, named - hit].flatMap (natLE 4)))
      [a.2.1.bad.any id || b.2.1.bad.any id]
    let res := mkResult (readFlags es) (a.2.1.seen ++ b.2.1.seen) (if ok then [] else [(0x0303, 1)])
    match o.2 with
    | some f => o.1.denyEntry n slot f res
    | none => (if ok then o.1.recallAdd r layer needed hit else o.1).finishEntry n slot res

/-- The Spindrift of region `r` runs: its domain is up, and no loss of the region's clock or voltage has fenced its clusters
(R36, R168). -/
def Dev.spindriftUp (d : Dev) (r : Nat) : Bool :=
  d.domUp (Dom.region r) && !(List.range 4).any (fun i => d.fence.getD (Dom.cluster (4 * r + i)) 0 % 4 != 0)

/-- PREDICT of an issued entry in the mode asked for. -/
def Dev.runPredict (d : Dev) (n slot : Nat) (audit : Bool) : Dev :=
  d.withEntry n slot (· == .predict) (fun d e =>
    if e.desc.audit != audit || !d.spindriftUp (regionOf n) then d else if audit then d.predictAudit n slot e else d.predict n slot e)

/-- PRUNE of an issued entry. -/
def Dev.runPruneEntry (d : Dev) (n slot : Nat) : Dev := d.runEntry n slot (· == .prune) (fun d e => d.runPrune n e)

/-- SPARSE_CNT_CLR (Table 4.12, 4.13). -/
def Dev.sparseCntClr (d : Dev) (r : Nat) : Dev :=
  d.clearFlds (B.spu r) [F.spu_SPARSE_OOB_CNT, F.spu_SPARSE_GRP_OVF_CNT, F.spu_SPARSE_ORDER_CNT,
    F.spu_SPARSE_WARN_CNT, F.spu_STEAL_IN_CNT, F.spu_STEAL_XCL_CNT, F.spu_STEAL_OUT_CNT]

/-- The recall counters of a region added to the published sums, as firmware does before it clears them (R147). -/
def Dev.recallKeep (d : Dev) (r : Nat) : Dev :=
  let add := fun (s : Tab Nat) (k v : Nat) => if v = 0 then s else Tab.set 0 s k ((Tab.getD s k 0 + v) % 2 ^ 64)
  let sums := (List.range 256).foldl (fun s l =>
    add (add s (2 * l) (d.g (B.spu r) F.spu_RECALL_NEEDED l)) (2 * l + 1) (d.g (B.spu r) F.spu_RECALL_HIT l))
    d.dict.recallSum
  { d with dict := { d.dict with recallSum := sums } }

/-- RECALL_CLR: the counts join the published sums, then clear (Table 4.14, R147). -/
def Dev.recallClr (d : Dev) (r : Nat) : Dev :=
  (d.recallKeep r).clearFlds (B.spu r) [F.spu_RECALL_NEEDED, F.spu_RECALL_HIT, F.spu_ABL_TILE_CNT, F.spu_ABL_ZERO_TILE_CNT,
    F.spu_SPD_PRED_CNT, F.spu_SPD_AUDIT_CNT]

end Sys2Proof.Machine
end

