-- ==== Sys2Proof/Machine/Flow.lean ====
section
/-!
DEFINITION. The flow engines: transfer descriptors and rings (R251–R255, R257, R259), COPY, FILL and SUBMIT, and the
GATHER and SCATTER_ACC classes (R92, R139, R256, R268, R269, R343).
Choices of the model: log entries 19, 28, 29, 64, 196.
-/

namespace Sys2Proof.Machine

/-! ### Transfer descriptors (Table 8.7) -/

namespace Tfr
/-- OP. -/
def op (x : Bytes) : Nat := fieldN x 0 1
/-- SRC_SP. -/
def srcSp (x : Bytes) : Bool := bit (fieldN x 1 1) 0
/-- DST_SP. -/
def dstSp (x : Bytes) : Bool := bit (fieldN x 1 1) 1
/-- FENCE. -/
def fence (x : Bytes) : Bool := bit (fieldN x 1 1) 2
/-- SRC. -/
def src (x : Bytes) : Nat := fieldN x 8 8
/-- DST. -/
def dst (x : Bytes) : Nat := fieldN x 0x10 8
/-- ROWS. -/
def rows (x : Bytes) : Nat := fieldN x 0x18 2
/-- ROW_G. -/
def rowG (x : Bytes) : Nat := fieldN x 0x1C 4
/-- SRC_STRIDE. -/
def srcStride (x : Bytes) : Nat := fieldN x 0x20 4
/-- DST_STRIDE. -/
def dstStride (x : Bytes) : Nat := fieldN x 0x24 4
/-- WAIT_IDX. -/
def waitIdx (x : Bytes) : Nat := bits (fieldN x 0x28 2) 13 0
/-- WAIT_EQ. -/
def waitEq (x : Bytes) : Bool := bit (fieldN x 0x28 2) 14
/-- WAIT_EN. -/
def waitEn (x : Bytes) : Bool := bit (fieldN x 0x28 2) 15
/-- SIG_IDX. -/
def sigIdx (x : Bytes) : Nat := bits (fieldN x 0x2A 2) 13 0
/-- SIG_EN. -/
def sigEn (x : Bytes) : Bool := bit (fieldN x 0x2A 2) 15
/-- SIG_INCR. -/
def sigIncr (x : Bytes) : Nat := fieldN x 0x2C 4
/-- WAIT_VALUE. -/
def waitValue (x : Bytes) : Nat := fieldN x 0x30 8
/-- FILL_PATTERN. -/
def pattern (x : Bytes) : Nat := fieldN x 0x3C 4
/-- Core of an SP operand. -/
def spCore (v : Nat) : Nat := bits v 24 16
/-- Granule of an SP operand. -/
def spGran (v : Nat) : Nat := bits v 15 0

/-- Granules the transfer moves, or descriptors a SUBMIT copies. -/
def total (x : Bytes) : Nat := rows x * rowG x

/-- An SP operand with a bit outside its fields, or reaching beyond the scratchpad. -/
def spBad (v stride rows rowG : Nat) : Bool :=
  decide (2 ^ 25 ≤ v) || decide (16384 < spGran v + (rows - 1) * stride + rowG)

/-- A VA operand that is not granule-aligned or has a high bit set. -/
def vaBad (v : Nat) : Bool := v % 64 != 0 || decide (2 ^ 48 ≤ v)

/-- The transfer is refused at its start (R253); `rc` is the ring's context. -/
def invalid (x : Bytes) (rc : Nat) : Bool :=
  let o := op x
  !(o == 1 || o == 2 || o == 3) || rows x == 0 || rowG x == 0 || decide (2 ^ 24 < rowG x) ||
  bits (fieldN x 1 1) 7 3 != 0 || fieldN x 7 1 != 0 || fieldN x 0x1A 2 != 0 || fieldN x 0x38 4 != 0 ||
  bit (fieldN x 0x2A 2) 14 || (sigEn x && sigIncr x == 0) || (rc != 0 && tCtx x != rc) ||
  (if o = 1 then
    (if srcSp x then spBad (src x) (srcStride x) (rows x) (rowG x) else vaBad (src x)) || pattern x != 0
   else if o = 2 then srcSp x || src x != 0
   else srcSp x || !dstSp x || rowG x != 1 || vaBad (src x) || decide (2 ^ 25 ≤ dst x) || spGran (dst x) != 0 ||
     dstStride x != 0 || pattern x != 0) ||
  (o != 3 && ((if dstSp x then spBad (dst x) (dstStride x) (rows x) (rowG x) else vaBad (dst x)) ||
    (decide (1 < rows x) && decide (dstStride x < rowG x))))
end Tfr

/-! ### Engine accessors -/

/-- A running ring entry. -/
def Dev.ringRun (d : Dev) (f n : Nat) : Option RingRun := (d.eng f).run.find? (fun r => r.entry == n)

/-- A running ring entry replaced by its image. -/
def Dev.modRun (d : Dev) (f n : Nat) (g : RingRun → RingRun) : Dev :=
  let x := d.eng f
  d.setEng f { x with run := x.run.map (fun r => if r.entry == n then g r else r) }

/-- Number of the next entry to start: entries start in ring order (R255). -/
def Dev.ringNext (d : Dev) (f : Nat) : Nat :=
  add32 (d.g (B.fe f) F.fe_CONS) ((d.eng f).run.length + (d.eng f).doneAhead.length)

/-- GATHER and SCATTER_ACC entries in flight at an engine. -/
def Dev.classBusy (d : Dev) (f : Nat) : Bool :=
  d.cores.any (fun x => engineOf x.1 == f && x.2.q.any (fun e => e.st == .issued && !e.done &&
    (match e.desc.cls with
     | some .gather => true
     | some .scatter => true
     | some .store => true
     | _ => false)))

/-- BUSY of FE_STAT. -/
def Dev.feBusy (d : Dev) (f : Nat) : Bool := (d.eng f).run != [] || d.classBusy f

/-- READY of FE_STAT: it follows the region infrastructure domain (R259). -/
def Dev.feReady (d : Dev) (f : Nat) : Bool := d.domUp (Dom.region (f / 8))

/-- Remote accesses of an operation that wait for their answer. -/
def Dev.remoteOf (d : Dev) (o : OpRef) : Nat := (d.remoteOps.filter (fun r => r.op == o)).length

/-- Link tags or engine tags an engine could still take (R46, R256). -/
def Dev.feTagFree (d : Dev) (f : Nat) : Bool := d.tagFree (.engine f)

/-- An ABORT reaches the work of engine `f` for context `c` (R280, Table 9.6). -/
def Dev.feAborted (d : Dev) (f c : Nat) : Bool :=
  match d.abortFunc with
  | some n => n == 0x40 + f || (n == c && c != 0)
  | none => false

/-! ### Ring registers (R255, R259) -/

/-- A write of RING_PROD (R255). A disabled engine refuses it (R280). -/
def Dev.ringProd (d : Dev) (f v ctx : Nat) (secure : Bool) : Dev :=
  let b := B.fe f
  if d.funcClosed (0x40 + f) then d.event 0x05 f 0x0205 (zeros 16) ctx secure
  else if 2 ^ d.g b F.fe_RING_LOG2 < sub32 v (d.g b F.fe_CONS) then
    d.event 0x05 f 0x0227 (dtl [(1, 0x1C)]) ctx secure
  else d.p b F.fe_PROD v

/-- A write of FE_CTRL: RING_EN, and RING_CTX while RING_EN and BUSY are both 0 (R255, R259). A ring that stops or moves
to another context gives its head up, so the entry there is read and checked afresh (R291). -/
def Dev.ringEn (d : Dev) (f v : Nat) : Dev :=
  let b := B.fe f
  let d := if !d.gb b F.fe_RING_EN && !d.feBusy f then d.p b F.fe_RING_CTX (bits v 7 4) else d
  let d := if bit v 0 && d.gb b F.fe_RING_EN then d else d.headForget f
  (d.pb b F.fe_RING_EN (bit v 0)).disableSettle

/-- A write of RING_VA or RING_CFG while RING_EN and BUSY are both 0 (R255). -/
def Dev.ringCfg (d : Dev) (f : Nat) (fld : Fld) (v : Nat) : Dev :=
  if d.gb (B.fe f) F.fe_RING_EN || d.feBusy f then d else (d.headForget f).p (B.fe f) fld v

/-- FE_CNT_CLR (R259). -/
def Dev.feCntClr (d : Dev) (f : Nat) : Dev :=
  d.clearFlds (B.fe f) [F.fe_RING_DONE_CNT, F.fe_CLASS_DONE_CNT, F.fe_FE_POISON_CNT, F.fe_TAG_WAIT_CYC]

/-! ### Ring entries -/

/-- The engine writes bytes of a ring entry, as narrow writes under the ring's context (R254). -/
def Dev.ringWrite (d : Dev) (f pa : Nat) (data : Bytes) : Dev :=
  let c := d.g (B.fe f) F.fe_RING_CTX
  (d.localAccess { sid := 0x200 + f, ctx := c, secure := d.ctxSecure c, pa := pa, wr := true, size := data.length,
                   data := data, inner := true }).1

/-- PROGRESS and PROGRESS_HI written into an entry. -/
def Dev.ringProgress (d : Dev) (f pa v : Nat) : Dev :=
  (d.ringWrite f (pa + 0x1A) (natLE 2 (v / 2 ^ 32))).ringWrite f (pa + 0x38) (natLE 4 v)

/-- RING_CONS passes the entries that are DONE, in ring order; `k` bounds the count (R255). -/
def Dev.ringRetire (d : Dev) (f : Nat) : Nat → Dev
  | 0 => d
  | k + 1 =>
    let x := d.eng f
    let c := d.g (B.fe f) F.fe_CONS
    if x.doneAhead.contains c then
      ((d.setEng f { x with doneAhead := x.doneAhead.filter (· != c) }).p (B.fe f) F.fe_CONS (c + 1)).ringRetire f k
    else d

/-- An entry ends (R254): STATUS, PROGRESS and STATE 3 are written, then the signal is made, then it retires. `sig` is
0 for no signal, 1 for one whose object is checked now, 2 for one that has passed. -/
def Dev.ringFinish (d : Dev) (f n pa : Nat) (x : Bytes) (status progress sig : Nat) : Dev :=
  let d := (d.ringWrite f (pa + 4) (natLE 2 status)).ringProgress f pa progress
  let d := d.ringWrite f (pa + 6) [3]
  let d := if Tfr.sigEn x ∧ sig = 2 then d.signal (Tfr.sigIdx x) (0x200 + f) (Tfr.sigIncr x) (tCtx x)
      (d.ctxSecure (tCtx x))
    else if Tfr.sigEn x ∧ sig = 1 then d.signalChecked (Tfr.sigIdx x) (0x200 + f) (tCtx x)
        (d.ctxSecure (tCtx x)) (Tfr.sigIncr x)
    else d
  let e := d.eng f
  let d := d.setEng f { e with run := e.run.filter (fun r => r.entry != n), doneAhead := e.doneAhead ++ [n] }
  let d := d.cores.foldl (fun d c => if c.2.sb.any (fun s => s.engine == f && s.entry == n) then
    d.setCore c.1 { d.core c.1 with sb := (d.core c.1).sb.filter (fun s => !(s.engine == f && s.entry == n)) } else d) d
  let d := d.inc (B.fe f) F.fe_RING_DONE_CNT
  (d.ringRetire f ((d.eng f).doneAhead.length)).settle (tCtx x)

/-- The ring head leaves the head position without having started. -/
def Dev.ringSkip (d : Dev) (f n pa : Nat) (x : Bytes) (status sig : Nat) : Dev :=
  (d.headForget f).ringFinish f n pa x status 0 sig

/-- An ABORT reaches a ring head that cannot be read: it ends with 0x0206, unread and unwritten, and its ring goes on
(R272, R280). -/
def Dev.ringDrop (d : Dev) (f n : Nat) : Dev :=
  let d := d.headForget f
  let e := d.eng f
  let d := (d.setEng f { e with doneAhead := e.doneAhead ++ [n], headParked := false }).inc (B.fe f) F.fe_RING_DONE_CNT
  (d.ringRetire f ((d.eng f).doneAhead.length)).settle (d.g (B.fe f) F.fe_RING_CTX)

/-- Rows of granules of an SP operand, as a scoreboard registration (R109). -/
def spXfer (f n v stride : Nat) (x : Bytes) (write : Bool) : Nat × SbXfer :=
  (Tfr.spCore v, ⟨f, n, Tfr.spGran v, Tfr.rowG x, Tfr.rows x, stride, write⟩)

/-- The scratchpad granules that the pages of a VA operand lie on, as its translations stand: core, first granule, one
past the last. -/
def Dev.vaPads (d : Dev) (f : Nat) (x : Bytes) (va stride : Nat) (wr : Bool) : List (Nat × Nat × Nat) :=
  (List.range (Tfr.rows x)).flatMap (fun i =>
    let lo := va / 64 + i * stride
    let hi := lo + Tfr.rowG x
    (List.range ((hi - 1) / 1024 - lo / 1024 + 1)).filterMap (fun p =>
      let a := max lo ((lo / 1024 + p) * 1024)
      let b := min hi ((lo / 1024 + p + 1) * 1024)
      match (d.translate (f / 8) (tCtx x) (0x200 + f) (a * 64) wr).2 with
      | .inr pa => if 0x1000000000 ≤ pa ∧ pa < 0x1020000000 then
          let o := (pa - 0x1000000000) / 64
          some (o / 16384, o % 16384, o % 16384 + (b - a)) else none
      | .inl _ => none))

/-- The registrations of a VA operand: for each core its pages reach, one range from the lowest to the highest granule
touched (log 196). -/
def Dev.vaXfers (d : Dev) (f n : Nat) (x : Bytes) (va stride : Nat) (write : Bool) : List (Nat × SbXfer) :=
  let ps := d.vaPads f x va stride write
  ((ps.map (·.1)).eraseDups).map (fun c =>
    let q := ps.filter (fun p => p.1 == c)
    let lo := q.foldl (fun a p => min a p.2.1) 16384
    let hi := q.foldl (fun a p => max a p.2.2) 0
    (c, ⟨f, n, lo, hi - lo, 1, 0, write⟩))

/-- The scoreboard registrations a transfer needs: core and entry (R109). -/
def Dev.xfersOf (d : Dev) (f n : Nat) (x : Bytes) : List (Nat × SbXfer) :=
  if Tfr.op x = 3 then []
  else (if Tfr.op x = 2 then []
      else if Tfr.srcSp x then [spXfer f n (Tfr.src x) (Tfr.srcStride x) x false]
      else d.vaXfers f n x (Tfr.src x) (Tfr.srcStride x) false) ++
    (if Tfr.dstSp x then [spXfer f n (Tfr.dst x) (Tfr.dstStride x) x true]
      else d.vaXfers f n x (Tfr.dst x) (Tfr.dstStride x) true)

/-- A transfer may register at a scoreboard (R109, R407): no ISSUED or STOLEN entry under the scoreboard meets it and no
self-test slice runs there. -/
def Dev.sbClear (d : Dev) (c : Nat) (t : SbXfer) : Bool :=
  let k := d.core c
  !d.slotHeld (clusterOf c) &&
  !k.q.any (fun e => e.st != .queued && !e.raw &&
    (e.desc.allWrites.any t.touches || (t.write && e.desc.allReads.any t.touches)))

/-- The registrations of a starting transfer. -/
def Dev.sbRegister (d : Dev) (l : List (Nat × SbXfer)) : Dev :=
  l.foldl (fun d t => d.setCore t.1 { d.core t.1 with sb := (d.core t.1).sb ++ [t.2] }) d

/-- The ring head starts: STATE 1 is written and its SP ranges are registered (R109, R255). -/
def Dev.ringStart (d : Dev) (f n pa : Nat) (x : Bytes) : Dev :=
  let e := d.eng f
  let d := d.setEng f { e with run := e.run ++ [{ entry := n, desc := x, pa := pa }]
                               headChecked := false, headReleased := false, headWatch := none }
  (d.sbRegister (d.xfersOf f n x)).ringWrite f (pa + 6) [1]

/-- Both sync objects of the ring head checked once, when it reaches the head (R291). -/
def Dev.ringAdmit (d : Dev) (f : Nat) (x : Bytes) : Dev × Bool × Bool :=
  let c := tCtx x
  let w := if Tfr.waitEn x then d.syncDeny (Tfr.waitIdx x) (0x200 + f) c else none
  let s := if Tfr.sigEn x then d.syncDeny (Tfr.sigIdx x) (0x200 + f) c else none
  let d := match w with
    | some r => d.syncDenied (Tfr.waitIdx x) false r c (d.ctxSecure c)
    | none => d
  let d := match s with
    | some r => d.syncDenied (Tfr.sigIdx x) true r c (d.ctxSecure c)
    | none => d
  (d, w.isNone && s.isNone, s.isNone)

/-- The ring head's wait registered where it waits (R288, R294). -/
def Dev.ringWait (d : Dev) (f : Nat) (x : Bytes) : Dev :=
  let d := d.setEng f { d.eng f with headChecked := true }
  if !Tfr.waitEn x || (d.eng f).headReleased || (d.eng f).headWatch.isSome then d
  else d.syncRegister (Tfr.waitIdx x) ⟨.ring f, Tfr.waitEq x, Tfr.waitValue x⟩

/-- A ring head whose wait has held may start: its registrations are clear and find entries enough free (R109, R255,
R275). -/
def Dev.ringMayStart (d : Dev) (f n : Nat) (x : Bytes) : Bool :=
  (!Tfr.waitEn x || (d.eng f).headReleased) && !(Tfr.fence x && (d.eng f).run != []) &&
  decide ((d.eng f).run.length < 4) && d.ctxMayStart (tCtx x) &&
  let ts := d.xfersOf f n x
  ts.all (fun t => d.sbClear t.1 t.2 &&
    decide ((d.core t.1).sb.length + (ts.filter (fun u => u.1 == t.1)).length ≤ 32))

/-- The head entry as read from the ring: checked, waited for, started or ended (R253, R255, R291). -/
def Dev.ringHead (d : Dev) (f n pa : Nat) (x : Bytes) : Dev :=
  let rc := d.g (B.fe f) F.fe_RING_CTX
  if d.feAborted f (tCtx x) || d.feAborted f rc then d.ringSkip f n pa x 0x0206 (if (d.eng f).headChecked then 2 else 1)
  else if Tfr.invalid x rc then d.ringSkip f n pa x 0x0227 1
  else
    let a : Dev × Bool × Bool := if (d.eng f).headChecked then (d, true, true) else d.ringAdmit f x
    if !a.2.1 then a.1.ringSkip f n pa x 0x0101 (if a.2.2 then 2 else 0)
    else
      let d := a.1.ringWait f x
      if d.ringMayStart f n x then d.ringStart f n pa x else d

/-- A translation or access fault on the read of the ring head (R255); an abort that meets it wins (R272). -/
def Dev.ringReadFault (d : Dev) (f n : Nat) (x : Xl) : Dev :=
  let rc := d.g (B.fe f) F.fe_RING_CTX
  if d.feAborted f rc then d.ringDrop f n
  else if d.mayPark rc x.status then
    let d := d.setEng f { d.eng f with headParked := true }
    (d.parkEvent rc x.va n (0x200 + f) false).ctxSettle rc
  else (d.pb (B.fe f) F.fe_RING_EN false).event 0x05 f x.status (dtl [(4, x.detail)]) rc (d.ctxSecure rc)

/-- RING_ENTRY_START of engine `f` (R253, R255, R275, R291). Under an ABORT of the engine the entries not started end
too. -/
def Dev.ringEntryStart (d : Dev) (f : Nat) : Dev :=
  let b := B.fe f
  let rc := d.g b F.fe_RING_CTX
  let n := d.ringNext f
  if !(d.gb b F.fe_RING_EN || d.feAborted f 0) || !d.feReady f || (d.eng f).headParked || n = d.g b F.fe_PROD ||
      !(d.ctxState rc = 1 || d.ctxState rc = 4) then d
  else
    let va := d.g b F.fe_RING_VA + n % 2 ^ d.g b F.fe_RING_LOG2 * 64
    let t := d.translate (f / 8) rc (0x200 + f) va false
    match t.2 with
    | .inl s => (t.1.ctxFault rc va (0x200 + f) s false).ringReadFault f n ⟨s, va / 65536, va⟩
    | .inr pa =>
      let r := t.1.localAccess { sid := 0x200 + f, ctx := rc, secure := t.1.ctxSecure rc, pa := pa, wr := false,
                                 size := 64, inner := true }
      if r.2.status = 0x0204 then
        (r.1.ctxFault rc va (0x200 + f) 0x0204 false).ringReadFault f n ⟨0x0204, pa / 65536, va⟩
      else if r.2.poison then
        (r.1.event 0x05 f 0x0227 (dtl [(1, 0xFF), (2,
          n % 2 ^ d.g b F.fe_RING_LOG2)]) rc (d.ctxSecure rc)).ringSkip f n
          pa r.2.data 0x0227 0
      else r.1.ringHead f n pa r.2.data

/-! ### Moving granules -/

/-- Where a granule of an operand lies: a device physical address, or the fault its translation met (R481). -/
def Dev.feAddr (d : Dev) (f c : Nat) (sp : Bool) (v off : Nat) (wr : Bool) : Dev × (Xl ⊕ Nat × Option Nat) :=
  if sp then (d, .inr (B.scratch (Tfr.spCore v) + (Tfr.spGran v + off) * 64, none))
  else
    let va := v + off * 64
    let t := d.translate (f / 8) c (0x200 + f) va wr
    match t.2 with
    | .inl s => (t.1.ctxFault c va (0x200 + f) s wr, .inl ⟨s, va / 65536, va⟩)
    | .inr pa => (t.1, .inr (pa, some va))

/-- What became of one granule. -/
inductive Moved where
  /-- moved, or under way to a peer: the status met (0 for none) with its detail, whether it was poisoned -/
  | gone (status detail : Nat) (poison : Bool)
  /-- no tag is free (R48) -/
  | wait
  deriving DecidableEq, Repr

/-- A physical address behind a remote window. -/
def isRemote (pa : Nat) : Bool := decide (0x4000000000 ≤ pa) && decide (pa < 0x44000000000)

/-- One access of engine `f` at a physical address under one of its tags: local, or through a remote window (R256). The
flag says the answer is still to come (R343, R345). -/
def Dev.feAccess (d : Dev) (f c pa : Nat) (va : Option Nat) (wr : Bool) (size : Nat) (data : Bytes) (poison : Bool)
    (dest : RdDest) (op : OpRef) : Dev × Option (Rsp × Bool) :=
  let q : Req := { sid := 0x200 + f, ctx := c, secure := d.ctxSecure c, pa := pa, wr := wr, size := size, data := data,
                   poison := poison, inner := true, va := va }
  if !d.feTagFree f then (d, none)
  else if isRemote pa then
    let r := d.remoteAccess q dest op
    match r.2 with
    | none => (r.1, none)
    | some x => (r.1, some (x, decide (d.remoteOps.length < r.1.remoteOps.length)))
  else
    let r := d.localAccess q
    let d := match r.2.status, va with
      | 0x0204, some a => r.1.ctxFault c a (0x200 + f) 0x0204 wr
      | _, _ => r.1
    (d, some ({ r.2 with detail := pa / 65536 }, false))

/-- The data of one granule written at its destination: counted, and the status met. -/
def Dev.fePut (d : Dev) (f c pa : Nat) (va : Option Nat) (data : Bytes) (poison : Bool) (op : OpRef) : Dev × Moved :=
  let r := d.feAccess f c pa va true 64 data poison .none op
  match r.2 with
  | none => (r.1, .wait)
  | some (x, _) =>
    let made := x.status == 0 && !x.poison
    let d := if made then r.1.incW (B.fe f) F.fe_GRANULES_MOVED else r.1
    let d := if made && poison then d.inc (B.fe f) F.fe_FE_POISON_CNT else d
    (d, .gone x.status x.detail poison)

/-- One granule moved from a source address to a destination address. -/
def Dev.feMove (d : Dev) (f c src dst : Nat) (sva dva : Option Nat) (op : OpRef) : Dev × Moved :=
  let r := d.feAccess f c src sva false 64 [] false (.store (0x200 + f) c (d.ctxSecure c) dst) op
  match r.2 with
  | none => (r.1, .wait)
  | some (x, true) => (r.1, .gone x.status x.detail false)
  | some (x, false) =>
    if x.status = 0x0204 then (r.1, .gone x.status x.detail false)
    else if isRemote dst && !(r.1.feTagFree f) then (d, .wait)
    else
      let w := r.1.fePut f c dst dva x.data x.poison op
      match w.2 with
      | .wait => (d, .wait)
      | .gone s k p => (w.1, if x.status = 0 then .gone s k p else .gone x.status x.detail p)

/-- A running entry stops at a fault: it parks at its progress, or ends with the status (R268, R270). -/
def Dev.ringFault (d : Dev) (f n : Nat) (x : Xl) (wr : Bool) : Dev :=
  match d.ringRun f n with
  | none => d
  | some r =>
    let c := tCtx r.desc
    if d.mayPark c x.status then
      let d := d.modRun f n (fun r => { r with parked := true })
      let d := (d.ringWrite f (r.pa + 6) [2]).ringProgress f r.pa r.progress
      (d.parkEvent c x.va r.progress (0x200 + f) wr).ctxSettle c
    else d.modRun f n (fun r => { r with moved := true, met := r.met ++ [(x.status, x.detail)] })

/-- A granule counted into a running entry's progress; a refused access ends the entry there (R268). -/
def Dev.ringStep (d : Dev) (f n status detail : Nat) (poison : Bool) : Dev :=
  d.modRun f n (fun r =>
    let met := if status = 0 then r.met else r.met ++ [(status, detail)]
    if status = 0x0204 then { r with moved := true, met := met }
    else { r with progress := r.progress + 1, poison := r.poison || poison, met := met })

/-- Move granules of a COPY or FILL from its progress on, until it ends, faults or waits for a tag; `k` bounds the
count (R252, R254). -/
def Dev.ringMove (d : Dev) (f n : Nat) : Nat → Dev
  | 0 => d
  | k + 1 =>
    match d.ringRun f n with
    | none => d
    | some r =>
      let x := r.desc
      let c := tCtx x
      if r.moved || r.parked then d
      else if Tfr.total x ≤ r.progress then d.modRun f n (fun r => { r with moved := true })
      else
        let i := r.progress / Tfr.rowG x
        let j := r.progress % Tfr.rowG x
        let idle := d.remoteOf (.ring f n) == 0
        let fault := fun (d' : Dev) (e : Xl) (wr : Bool) => if idle then d'.ringFault f n e wr else d
        let sa := if Tfr.op x = 2 then (d, Sum.inr (0, none))
          else d.feAddr f c (Tfr.srcSp x) (Tfr.src x) (i * Tfr.srcStride x + j) false
        match sa.2 with
        | .inl e => fault sa.1 e false
        | .inr (s, sva) =>
          let da := sa.1.feAddr f c (Tfr.dstSp x) (Tfr.dst x) (i * Tfr.dstStride x + j) true
          match da.2 with
          | .inl e => fault da.1 e true
          | .inr (t, dva) =>
            let m := if Tfr.op x = 2 then
                da.1.fePut f c t dva ((List.replicate 16 (natLE 4 (Tfr.pattern x))).flatten) false (.ring f n)
              else da.1.feMove f c s t sva dva (.ring f n)
            match m.2 with
            | .wait => d
            | .gone st dt p => (m.1.ringStep f n st dt p).ringMove f n k

/-- COPY or FILL of a running entry of engine `f` (R252): `op` is the operation the command names. -/
def Dev.ringTransfer (d : Dev) (f n op : Nat) : Dev :=
  match d.ringRun f n with
  | none => d
  | some r =>
    if Tfr.op r.desc ≠ op ∨ !d.feReady f ∨ d.feAborted f (tCtx r.desc) then d
    else d.ringMove f n (Tfr.total r.desc - r.progress + 1)

/-- A descriptor read by a SUBMIT transfer is written to the window of its core: accepted, retried, or ending the
transfer (R252). -/
def Dev.ringDeliver (d : Dev) (f n core : Nat) (data : Bytes) (poison : Bool) : Dev :=
  match d.ringRun f n with
  | none => d
  | some r =>
    let c := tCtx r.desc
    if poison then d.modRun f n (fun r => { r with moved := true, poison := true })
    else
      let s := if d.clusterUp (clusterOf core) then d.submit core (0x200 + f) c (d.ctxSecure c) data
        else (d.submitOff core { sid := 0x200 + f, ctx := c, secure := d.ctxSecure c, pa := B.core core + 0x1000,
                                 wr := true, size := 64 }, 0x0205)
      if s.2 = 0 then s.1.ringStep f n 0 0 false
      else if s.2 = 0x0212 then s.1
      else s.1.modRun f n (fun r => { r with moved := true, met := r.met ++ [(s.2, 0)] })

/-- SUBMIT_TRANSFER of a running entry: descriptors one at a time, until it ends, faults, is refused or waits (R252). -/
def Dev.ringSubmit (d : Dev) (f n : Nat) : Nat → Dev
  | 0 => d
  | k + 1 =>
    match d.ringRun f n with
    | none => d
    | some r =>
      let x := r.desc
      let c := tCtx x
      if r.moved || r.parked || Tfr.op x != 3 || d.feAborted f c || d.remoteOf (.ring f n) != 0 || !d.feReady f then d
      else if Tfr.rows x ≤ r.progress then d.modRun f n (fun r => { r with moved := true })
      else
        let a := d.feAddr f c false (Tfr.src x) (r.progress * Tfr.srcStride x) false
        match a.2 with
        | .inl e => a.1.ringFault f n e false
        | .inr (pa, va) =>
          let core := Tfr.spCore (Tfr.dst x)
          let q := a.1.feAccess f c pa va false 64 [] false (.submit core) (.ring f n)
          match q.2 with
          | none => d
          | some (_, true) => q.1
          | some (y, false) =>
            let d := if y.status = 0 then q.1 else q.1.modRun f n (fun r => { r with met := r.met ++ [(y.status, y.detail)] })
            let d' := d.ringDeliver f n core y.data y.poison
            match d'.ringRun f n with
            | none => d'
            | some r' => if r'.progress = r.progress then d' else d'.ringSubmit f n k

/-- SUBMIT_TRANSFER of entry `n` of engine `f`. -/
def Dev.submitTransfer (d : Dev) (f n : Nat) : Dev :=
  match d.ringRun f n with
  | none => d
  | some r => d.ringSubmit f n (Tfr.rows r.desc + 1)

/-- RING_ENTRY_COMPLETE (R254, R257): every granule has been moved and every tag of the entry has retired; or an ABORT
reaches it, at the next granule, its recorded point kept (R272, R280). -/
def Dev.ringComplete (d : Dev) (f n : Nat) : Dev :=
  match d.ringRun f n with
  | none => d
  | some r =>
    if d.remoteOf (.ring f n) ≠ 0 then d
    else if d.feAborted f (tCtx r.desc) then d.ringFinish f n r.pa r.desc 0x0206 r.progress 2
    else if r.moved then
      d.ringFinish f n r.pa r.desc (firstStatus (r.met ++ (if r.poison then [(0x0226, 0)] else []))).1 r.progress 2
    else d

/-! ### GATHER and SCATTER_ACC (R92, R139, R256) -/

/-- The segments of a 64-byte piece at an address that stay within one line: offset and length. -/
def lineParts (va : Nat) : List (Nat × Nat) :=
  if va % 64 = 0 then [(0, 64)] else [(0, 64 - va % 64), (64 - va % 64, va % 64)]

/-- The indices of an entry, each with whether it was read poisoned, the granules read poisoned, and a refusal of the
read. -/
def Dev.indices (d : Dev) (home f : Nat) (x : Desc) : Dev × List (Nat × Bool) × List Nat × Option (Nat × Nat) :=
  let b := d.padBuf home x.srcB.base (4 * x.idxCount) (d.who (0x200 + f) x.ctx)
  (b.1, (List.range x.idxCount).map (fun j => (fieldN b.2.1.data (4 * j) 4, b.2.1.badAt (4 * j))), b.2.1.seen, b.2.2)

/-- Indices at or above ROW_LIMIT among those processed (R92). -/
def oorCount (ix : List (Nat × Bool)) (limit : Nat) : Nat :=
  (ix.filter (fun i => !i.2 && i.1 != 0xFFFFFFFF && decide (limit ≤ i.1))).length

/-- A scratchpad granule holds the poison marker or an uncorrectable sector. -/
def Dev.padPoisoned (d : Dev) (n off : Nat) : Bool :=
  let a := B.scratch n + off / 64 * 64
  let bad := fun (o : Ecc.Outcome) => o == .marker || o == .bad
  bad (d.sramSector a).2 || bad (d.sramSector (a + 32)).2

/-- Bytes of a GATHER row written at a byte offset of core `n`'s scratchpad: one granule counted when its last byte is
written, one poisoned granule when the first poison reaches it (Table 8.15); the refusal, if one is met. -/
def Dev.gatherPut (d : Dev) (n off f : Nat) (w : Initiator) (data : Bytes) (poison : Bool) : Dev × Option (Nat × Nat) :=
  let was := data.length < 64 && d.padPoisoned n off
  let r := d.padWrite n off w data [poison]
  if r.2.isSome then r
  else
    let d := if (off + data.length) % 64 = 0 then r.1.incW (B.fe f) F.fe_GRANULES_MOVED else r.1
    (if poison && !was then d.inc (B.fe f) F.fe_FE_POISON_CNT else d, none)

/-- What became of one piece of a GATHER row: fetched with the statuses met, a translation fault, a refusal that ends the
descriptor, or no tag free. -/
inductive Piece where
  | ok (met : List (Nat × Nat))
  | fault (x : Xl)
  | denied (x : Nat × Nat)
  | wait
  deriving DecidableEq, Repr

/-- One access of a piece. -/
def Dev.gatherPart (d : Dev) (n slot f c va off len : Nat) : Dev × Piece :=
  let t := d.translate (f / 8) c (0x200 + f) va false
  let w := d.who (0x200 + f) c
  match t.2 with
  | .inl s => (t.1.ctxFault c va (0x200 + f) s false, .fault ⟨s, va / 65536, va⟩)
  | .inr pa =>
    let r := t.1.feAccess f c pa (some va) false len [] false (.pad n off w) (.core n slot)
    match r.2 with
    | none => (r.1, .wait)
    | some (x, inflight) =>
      let m := if x.status = 0 then [] else [(x.status, x.detail)]
      if x.status = 0x0204 then (r.1, .denied (x.status, x.detail))
      else if inflight then (r.1, .ok m)
      else
        let p := r.1.gatherPut n off f w x.data x.poison
        match p.2 with
        | some e => (p.1, .denied e)
        | none => (p.1, .ok m)

/-- One piece of a GATHER row fetched into the scratchpad: an access for each line it touches. A granule that two accesses
fill is cleared first, so that it ends poisoned only where a byte of it was read poisoned. -/
def Dev.gatherPiece (d : Dev) (n slot f c va off : Nat) : Dev × Piece :=
  let h : Dev × Option (Nat × Nat) :=
    if va % 64 = 0 then (d, none) else d.padWrite n off (d.who (0x200 + f) c) (zeros 64) []
  match h.2 with
  | some e => (h.1, .denied e)
  | none => (lineParts va).foldl (fun (a : Dev × Piece) p =>
    match a.2 with
    | .ok m =>
      let r := a.1.gatherPart n slot f c (va + p.1) (off + p.1) p.2
      (match r.2 with
       | .ok m' => (r.1, .ok (m ++ m'))
       | o => (r.1, o))
    | _ => a) (h.1, .ok [])

/-- A row GATHER does not fetch: one granule of zeros, poisoned where its index was (R92). -/
def Dev.gatherZero (d : Dev) (n f c off : Nat) (poison : Bool) : Dev × Piece :=
  let r := d.gatherPut n off f (d.who (0x200 + f) c) (zeros 64) poison
  match r.2 with
  | some e => (r.1, .denied e)
  | none => (r.1, .ok [])

/-- A class descriptor of a flow engine ends. -/
def Dev.classEnd (d : Dev) (n slot f : Nat) (res : Result) : Dev :=
  (d.finishEntry n slot res).inc (B.fe f) F.fe_CLASS_DONE_CNT

/-- A class descriptor met a fault: it parks at `point`, or ends (R268). -/
def Dev.classFault (d : Dev) (n slot f : Nat) (x : Xl) (point : Nat) (wr : Bool) (res : Result) : Dev :=
  let p := d.faultEntry n slot x point (0x200 + f) wr true res
  match p.entry n slot with
  | some e => if e.parked then p else p.inc (B.fe f) F.fe_CLASS_DONE_CNT
  | none => p

/-- Granules of a GATHER from its recorded point on, until it ends, faults, is refused or waits for a tag; `k` bounds the
count. -/
def Dev.gatherGo (d : Dev) (n slot f : Nat) (ix : List (Nat × Bool)) (seen : List Nat) : Nat → Dev
  | 0 => d
  | k + 1 =>
    match d.entry n slot with
    | none => d
    | some e =>
      let x := e.desc
      let rg := x.rowBytes / 64
      let i := e.point / rg
      let res := fun (j : Nat) => { mkResult {} seen e.res.met with oor := oorCount (ix.take j) x.rowLimit }
      if e.parked || e.done then d
      else if x.idxCount ≤ i then d.classEnd n slot f (res x.idxCount)
      else
        let g := e.point % rg
        let off := (x.dst.base * 64 + i * x.rowBytes) + g * 64
        let v := ix.getD i (0xFFFFFFFF, false)
        let r := if v.2 || v.1 == 0xFFFFFFFF || decide (x.rowLimit ≤ v.1) then d.gatherZero n f x.ctx off v.2
          else d.gatherPiece n slot f x.ctx (x.tableVa + v.1 * x.rowBytes + g * 64) off
        match r.2 with
        | .wait => d
        | .denied q => r.1.classEnd n slot f { res i with met := e.res.met ++ [q] }
        | .fault q =>
          if d.remoteOf (.core n slot) ≠ 0 then d
          else
            let p := (r.1.modEntry n slot (fun e => { e with point := i * rg })).classFault n slot f q i false (res i)
            match p.entry n slot with
            | some e => if e.parked then p.modEntry n slot (fun e => { e with point := i * rg }) else p
            | none => p
        | .ok m =>
          (r.1.modEntry n slot (fun e => { e with
            point := e.point + 1, res := { e.res with met := e.res.met ++ m } })).gatherGo n slot f ix seen k

/-- GATHER of an issued entry (R92, R256, R268). -/
def Dev.runGather (d : Dev) (n slot : Nat) : Dev :=
  d.withEntry n slot (· == .gather) (fun d e =>
    let f := engineOf n
    if !d.feReady f then d
    else
      let ix := d.indices n f e.desc
      match ix.2.2.2 with
      | some q => ix.1.classEnd n slot f (mkResult {} ix.2.2.1 [q])
      | none => ix.1.gatherGo n slot f ix.2.1 ix.2.2.1 (e.desc.idxCount * (e.desc.rowBytes / 64) + 1))

/-- The order in which the rows of one chunk are added: the implementation's choice (R92). -/
def pickOrder (serial : Nat) : Nat → List Nat → List Nat
  | 0, _ => []
  | k + 1, l =>
    match l[(Config.sumPick serial l.length).1 % l.length]? with
    | some a => a :: pickOrder serial k (l.erase a)
    | none => []

/-- The addresses of the lines of a row, translated for writing; the first fault met (R269). -/
def Dev.rowLines (d : Dev) (f c va bytes : Nat) : Dev × List (Nat × Nat × Nat) × Option Xl :=
  (List.range (ceilDiv (va % 64 + bytes) 64)).foldl (fun (a : Dev × List (Nat × Nat × Nat) × Option Xl) k =>
    if a.2.2.isSome then a
    else
      let lo := max va (va / 64 * 64 + 64 * k)
      let hi := min (va + bytes) (va / 64 * 64 + 64 * (k + 1))
      let t := a.1.translate (f / 8) c (0x200 + f) lo true
      match t.2 with
      | .inl s => (t.1.ctxFault c lo (0x200 + f) s true, a.2.1, some ⟨s, lo / 65536, lo⟩)
      | .inr pa => (t.1, a.2.1 ++ [(lo, pa, hi - lo)], none)) (d, [], none)

/-- Elements added one by one in FMT_D (R68, R69, R75): bytes and flags. -/
def addRows (f : Fmt) (old new : Bytes) : Bytes × AFlags :=
  let n := old.length * 8 / f.bits
  let rs := (List.range n).map (fun i =>
    let a := decodeIn f (codeAt f.bits old i) 127
    let b := decodeIn f (codeAt f.bits new i) 127
    let s := if f.isInt then Val.ofInt (Val.sumInt [a.1, b.1]) else Val.add32 a.1 b.1
    let o := encodeOut f s
    (o.1, ((o.2.or a.1.flags).or (b.1.flags.or s.flags)).or { ftz := a.2 || b.2 }))
  (packCodes f.bits (rs.map (·.1)), rs.foldl (fun a r => a.or r.2) {})

/-- The lines of a row read at the vault: bytes, poison of each line, statuses met. -/
def Dev.readLines (d : Dev) (f c : Nat) (lines : List (Nat × Nat × Nat)) :
    Dev × Bytes × List Bool × List (Nat × Nat) :=
  lines.foldl (fun (a : Dev × Bytes × List Bool × List (Nat × Nat)) l =>
    let r := a.1.feAccess f c l.2.1 (some l.1) false l.2.2 [] false .none .alone
    match r.2 with
    | some (x, _) => (r.1, a.2.1 ++ x.data, a.2.2.1 ++ [x.poison],
        a.2.2.2 ++ (if x.status = 0 then [] else [(x.status, x.detail)]))
    | none => (r.1, a.2.1 ++ zeros l.2.2, a.2.2.1 ++ [true], a.2.2.2)) (d, [], [], [])

/-- Lines written at their addresses, each poisoned where `bad` says so of its offset and length; a refused line is the
last (R268). -/
def Dev.writeLines (d : Dev) (f c va : Nat) (lines : List (Nat × Nat × Nat)) (data : Bytes)
    (bad : Nat → Nat → Bool) : Dev × List (Nat × Nat) :=
  lines.foldl (fun (a : Dev × List (Nat × Nat)) l =>
    if a.2.any (fun m => m.1 == 0x0204) then a
    else
      let lo := l.1 - va
      let r := a.1.fePut f c l.2.1 (some l.1) ((data.drop lo).take l.2.2) (bad lo l.2.2) .alone
      match r.2 with
      | .gone s k _ => (r.1, if s = 0 then a.2 else a.2 ++ [(s, k)])
      | .wait => (r.1, a.2)) (d, [])

/-- Some byte of the elements of `e` bytes that reach into a run of a row was read poisoned: from the table, whose lines
are marked in `tbl`, or from SRC_A, where the row starts at byte `o` (R103). -/
def rowBad (va o e : Nat) (tbl : List Bool) (src : Buf) (lo n : Nat) : Bool :=
  let a := lo / e * e
  (List.range (alignUp (lo + n) e - a)).any (fun i =>
    tbl.getD ((va % 64 + a + i) / 64) false || src.badAt (o + a + i))

/-- One row of SRC_A added into its table row, line by line at the vault: flags and statuses met, a refusal last (R92,
R268). -/
def Dev.addRow (d : Dev) (f c : Nat) (fd : Fmt) (lines : List (Nat × Nat × Nat)) (va : Nat) (src : Buf)
    (o bytes : Nat) : Dev × AFlags × List (Nat × Nat) :=
  let rd := d.readLines f c lines
  if rd.2.2.2.any (fun m => m.1 == 0x0204) then (rd.1, {}, rd.2.2.2)
  else
    let s := addRows fd rd.2.1 ((src.data.drop o).take bytes)
    let w := rd.1.writeLines f c va lines s.1 (rowBad va o (max 1 (fd.bits / 8)) rd.2.2.1 src)
    (w.1, s.2, rd.2.2.2 ++ w.2)

/-- What a chunk of a SCATTER_ACC met: a translation fault with nothing applied, flags, rows behind remote windows, other
statuses. -/
structure ChunkEnd where
  fault : Option Xl := none
  fl : AFlags := {}
  far : Nat := 0
  met : List (Nat × Nat) := []
  deriving DecidableEq, Repr

/-- A refused access is among the statuses met (R268). -/
def ChunkEnd.denied (c : ChunkEnd) : Bool := c.met.any (fun m => m.1 == 0x0204)

/-- One chunk of up to 64 indices: every address translated first, then each row added, unless it lies behind a remote
window (R269, R343); a refused access is the last. -/
def Dev.scatterChunk (d : Dev) (f : Nat) (x : Desc) (src : Buf) (chunk : List ((Nat × Bool) × Nat)) : Dev × ChunkEnd :=
  let use_ := chunk.filter (fun i => !i.1.2 && i.1.1 != 0xFFFFFFFF && decide (i.1.1 < x.rowLimit))
  let tr := use_.foldl (fun (a : Dev × List (Nat × Nat × List (Nat × Nat × Nat)) × Option Xl) i =>
    if a.2.2.isSome then a
    else
      let va := x.tableVa + i.1.1 * x.rowBytes
      let r := a.1.rowLines f x.ctx va x.rowBytes
      (r.1, a.2.1 ++ [(i.2, va, r.2.1)], r.2.2)) (d, [], none)
  match tr.2.2 with
  | some e => (tr.1, { fault := some e })
  | none =>
    let s := tr.1.takeSerials 1
    (pickOrder s.1 tr.2.1.length (List.range tr.2.1.length)).foldl (fun (a : Dev × ChunkEnd) k =>
      match tr.2.1[k]? with
      | none => a
      | some (j, va, lines) =>
        if a.2.denied then a
        else if lines.any (fun l => isRemote l.2.1) then (a.1, { a.2 with far := a.2.far + 1 })
        else
          let r := a.1.addRow f x.ctx x.fD lines va src (j * x.rowBytes) x.rowBytes
          (r.1, { a.2 with fl := a.2.fl.or r.2.1, met := a.2.met ++ r.2.2 })) (s.2, {})

/-- What a SCATTER_ACC has met so far, joined with one chunk's share. -/
def joinScatter (r : Result) (c : ChunkEnd) : Result :=
  let old := ((r.met.find? (fun s => s.1 == 0x0707)).map (·.2)).getD 0
  let rest := r.met.filter (fun s => s.1 != 0x0707) ++ c.met
  { r with flags := (Nat.lor r.flags c.fl.toNat),
           met := if old + c.far = 0 then rest else rest ++ [(0x0707, min (old + c.far) (2 ^ 32 - 1))] }

/-- Chunks of a SCATTER_ACC from its recorded point on; `k` bounds the count. -/
def Dev.scatterGo (d : Dev) (n slot f : Nat) (ix : List (Nat × Bool)) (src : Buf) (seen : List Nat) : Nat → Dev
  | 0 => d
  | k + 1 =>
    match d.entry n slot with
    | none => d
    | some e =>
      let x := e.desc
      let s := distinct seen
      let res := fun (r : Result) (j : Nat) => { r with pois := s.length, poisFirst := (s.min?).getD 0
                                                        oor := oorCount (ix.take j) x.rowLimit }
      if e.parked || e.done then d
      else if x.idxCount ≤ e.point then d.classEnd n slot f (res e.res x.idxCount)
      else
        let r := d.scatterChunk f x src ((ix.zipIdx.drop e.point).take 64)
        match r.2.fault with
        | some q => r.1.classFault n slot f q e.point true (res e.res e.point)
        | none =>
          if r.2.denied then r.1.classEnd n slot f (res (joinScatter e.res r.2) e.point)
          else (r.1.modEntry n slot (fun e => { e with
            point := e.point + 64, res := joinScatter e.res r.2 })).scatterGo n slot f ix src seen k

/-- SCATTER_ACC with OPVAR 0x00 (R92, R269); it waits while no tag of its engine is free (R48). Only the granules of rows
that are added count as read. -/
def Dev.runScatter (d : Dev) (n slot : Nat) : Dev :=
  d.withEntry n slot (· == .scatter) (fun d e =>
    let f := engineOf n
    let x := e.desc
    if !d.feReady f || !d.feTagFree f then d
    else
      let ix := d.indices n f x
      let src := if ix.2.2.2.isSome then (ix.1, ({} : Buf), ix.2.2.2)
        else ix.1.padBuf n x.srcA.base (x.idxCount * x.rowBytes) (d.who (0x200 + f) x.ctx)
      let rg := x.rowBytes / 64
      let used := (ix.2.1.zipIdx.filter (fun i => !i.1.2 && i.1.1 != 0xFFFFFFFF && decide (i.1.1 < x.rowLimit))).map (·.2)
      let seen := ix.2.2.1 ++ src.2.1.seen.filter (fun g => used.contains ((g - x.srcA.base) / rg))
      match src.2.2 with
      | some q => src.1.classEnd n slot f (mkResult {} seen (e.res.met ++ [q]))
      | none => src.1.scatterGo n slot f ix.2.1 src.2.1 seen (ceilDiv x.idxCount 64 + 1))

/-- What a compressing store has done so far: the tiles laid out, the fault met, the granules behind remote windows, other
statuses. -/
structure StoreRun where
  laid : Laid := {}
  fault : Option Xl := none
  far : Nat := 0
  met : List (Nat × Nat) := []
  deriving DecidableEq, Repr

/-- The payload of one tile written out where it was laid (R139). -/
def Dev.storePayload (d : Dev) (f : Nat) (x : Desc) (va : Nat) (s : Bytes) (bad : Bool) (r : StoreRun) : Dev × StoreRun :=
  let tr := d.rowLines f x.ctx va s.length
  match tr.2.2 with
  | some e => (tr.1, { r with fault := some e })
  | none =>
    let near := tr.2.1.filter (fun q => !isRemote q.2.1)
    let w := tr.1.writeLines f x.ctx va near s (fun _ _ => bad)
    (w.1, { r with far := r.far + (tr.2.1.length - near.length), met := r.met ++ w.2 })

/-- The payloads of a compressing store written out tile by tile (R139), until a fault or a refusal. -/
def Dev.storeTiles (d : Dev) (f : Nat) (x : Desc) (src : Buf) (free : Nat) : Dev × StoreRun :=
  (List.range x.idxCount).foldl (fun (a : Dev × StoreRun) t =>
    if a.2.fault.isSome || a.2.met.any (fun m => m.1 == 0x0204) then a
    else
      let o := t * tileBytes x.fD
      let s := storeTile x.fD (x.param 0x30 1) src o free
      let bad := src.badIn o (tileBytes x.fD)
      let l := a.2.laid.add x.rowLimit (2 ^ 32) t s bad
      let r := { a.2 with laid := l }
      if l.data.length = a.2.laid.data.length then (a.1, r)
      else a.1.storePayload f x (x.tableVa + a.2.laid.data.length) s.bytes bad r) (d, {})

/-- SCATTER_ACC with OPVAR 0x01, the compressing store (R120, R138, R139): it restarts from the beginning after a
fault. -/
def Dev.runStore (d : Dev) (n slot : Nat) : Dev :=
  d.withEntry n slot (· == .store) (fun d e =>
    let f := engineOf n
    let x := e.desc
    let w := d.who (0x200 + f) x.ctx
    if !d.feReady f || !d.feTagFree f then d
    else
      let src := d.padBuf n x.srcA.base (x.idxCount * tileBytes x.fD) w
      match src.2.2 with
      | some q => src.1.classEnd n slot f (mkResult {} src.2.1.seen [q])
      | none =>
        let fr := src.1.fresh
        let r := fr.2.storeTiles f x src.2.1 fr.1
        let es := (List.range x.idxCount).flatMap (fun t => (tileElems x.fD src.2.1 (t * tileBytes x.fD)).flatten)
        let met := (r.2.laid.stop.map (fun t => (0x0302, t % 65536))).toList ++
          (if r.2.far = 0 then [] else [(0x0707, r.2.far)]) ++ r.2.met
        let res := mkResult (readFlags es) src.2.1.seen met
        match r.2.fault with
        | some q => r.1.classFault n slot f q 0 true res
        | none =>
          if r.2.met.any (fun m => m.1 == 0x0204) then r.1.classEnd n slot f res
          else
            let o := r.1.padWrite n (64 * x.dst.base) w (r.2.laid.entries.flatMap (natLE 4)) []
            o.1.classEnd n slot f { res with met := res.met ++ o.2.toList })

end Sys2Proof.Machine
end

