-- ==== Sys2Proof/Machine/VaultOps.lean ====
section
/-!
DEFINITION. The vault controllers' commands: reads and writes with their tags (R46–R48, R230, R240, R241), scrubbing
(R246, R247), readiness and INIT (R249, R250), counters (R258).
Choices of the model: log entries 55, 58, 59, 61.
-/

namespace Sys2Proof.Machine

/-- An access the vault controller accepts under one of its tags. -/
def Dev.vaultTake (d : Dev) (v : Nat) (q : Req) : Dev :=
  let r := (d.takeTag (.vault v) q).dramLine q
  { r.1 with resp := some r.2 }

/-- A single access handed to the vault controller of its address: held while the vault trains or INIT runs, stalled for
want of a vault tag or behind a stalled one of its stream, or accepted under a tag (R39, R46, R48, R250). `ups` are upsets
of the stored line that the access meets. -/
def Dev.vaultAccept (d : Dev) (q : Req) (ups : ErrPat) : Dev :=
  let vo := d.vaultOf q.pa
  let v := vo.1
  if !d.vaultUp v then
    let r := d.decodeFail q
    { r.1 with resp := some r.2 }
  else if d.vaultHolds v then { d with heldReq := d.heldReq ++ [q] }
  else if !d.tagFree (.vault v) || d.stalled.any (fun s => s.1 == .vault v && s.2.sid == q.sid) then
    { d with stalled := d.stalled ++ [(.vault v, q)] }
  else (d.upsetLine v (vo.2 / 64) ups).vaultTake v q

/-- VAULT_READ of the line at an address (R240). -/
def Dev.vaultReadCmd (d : Dev) (sid ctx : Nat) (secure : Bool) (pa : Nat) (ups : ErrPat) : Dev :=
  d.vaultAccept { sid := sid, ctx := ctx, secure := secure, pa := pa / 64 * 64, wr := false, size := 64 } ups

/-- Insert a write into a list in ascending order of stream (R230). -/
def insertSid (q : Req) : List Req → List Req
  | [] => [q]
  | x :: xs => if x.sid ≤ q.sid then x :: insertSid q xs else q :: x :: xs

/-- VAULT_WRITE: the writes that reach one line in one cycle, accepted in ascending order of stream (R230, R241). -/
def Dev.vaultWriteCmd (d : Dev) (ws : List Req) (ups : ErrPat) : Dev :=
  let l := (ws.foldl (fun a q => insertSid { q with wr := true, size := q.data.length } a) [])
  match l with
  | [] => d
  | q :: _ =>
    let vo := d.vaultOf q.pa
    let d := if d.vaultUp vo.1 then d.upsetLine vo.1 (vo.2 / 64) ups else d
    l.foldl (fun d w => if w.pa / 64 = q.pa / 64 ∧ w.pa % 64 + w.data.length ≤ 64 then d.vaultAccept w [] else d) d

/-- The device physical address of a vault offset under the interleave in force (R228, R229). -/
def Dev.lineAddr (d : Dev) (v off : Nat) : Nat :=
  let plain := v * vaultBytes + off
  let cands := (List.range 64).filterMap (fun k =>
    let c := d.g B.mgmt F.mgmt_ILV k
    match (if c = 0 ∨ !d.gb B.mgmt F.mgmt_RD_EN k then none else vaultGroup (d.rdBase k) (d.rdEnd k)) with
    | some (v0, n) =>
      if v0 ≤ v ∧ v < v0 + n then
        let G := ilvGranule c
        some (v0 * vaultBytes + (off / G * n + (v - v0)) * G + off % G)
      else none
    | none => none)
  ((plain :: cands).find? (fun pa => d.vaultOf pa == (v, off))).getD plain

/-- The error pattern of a line after the scrubber corrected its sectors. -/
def scrubbed (e : ErrPat) : ErrPat :=
  [0, 1].foldl (fun a s =>
    match Ecc.decode (sectorErr e s) with
    | .corrected i x => Ecc.flip a (symByte s i) x
    | _ => a) e

/-- The scrubber's read of one line (R246, R247). A line of arbitrary bits decodes to a free outcome. -/
def Dev.scrubLine (d : Dev) (v L : Nat) : Dev :=
  let b := B.vault v
  let pc := L % 32
  let ue := fun (d : Dev) =>
    let f := d.fresh
    let pa := d.lineAddr v (L * 64)
    f.2.vaultErr v F.vault_SCRUB_UE_CNT 0x0229 pa 0 (f.1 % 4096) (dtl [(8, pa)]) true
  match d.lineAt v (v * vaultLines + L) with
  | none =>
    let f := d.fresh
    match f.1 % 3 with
    | 0 => f.2
    | 1 => let g := f.2.fresh
           (((g.2.inc b F.vault_SCRUB_CE_CNT).inc b F.vault_PC_CE_CNT pc).laneHit v pc (g.1 % 544))
    | _ => ue f.2
  | some l =>
    let x := Ecc.decode (sectorErr l.err 0)
    let y := Ecc.decode (sectorErr l.err 1)
    let bad := fun (o : Ecc.Outcome) => match o with
      | .bad => true
      | .marker => true
      | _ => false
    if bad x || bad y then ue d
    else
      let hits := ([(0, x), (1, y)] : List (Nat × Ecc.Outcome)).filterMap (fun p => match p.2 with
        | .corrected i val => some (laneOf p.1 i val)
        | _ => none)
      if hits.isEmpty then d
      else
        let d := { d with dram := d.dram.put (v * vaultLines + L) { l with err := scrubbed l.err } }
        hits.foldl (fun d lane => (d.inc b F.vault_PC_CE_CNT pc).laneHit v pc lane) (d.inc b F.vault_SCRUB_CE_CNT)

/-- SCRUB_READ of vault `v`: one line in each pseudo-channel, in ascending order, wrapping (R246). `ups` are upsets of
those lines, by pseudo-channel. -/
def Dev.scrub (d : Dev) (v : Nat) (ups : List (Nat × ErrPat)) : Dev :=
  if !d.gb (B.vault v) F.vault_SCRUB_EN || !d.vaultUp v || d.vaultHolds v then d
  else
    let n := (d.vlt v).scrubNext
    let d := ups.foldl (fun d u => if u.1 < 32 then d.upsetLine v (n * 32 + u.1) u.2 else d) d
    let d := (List.range 32).foldl (fun d pc => d.scrubLine v (n * 32 + pc)) d
    let x := d.vlt v
    if n + 1 = 3145728 then (d.setVlt v { x with scrubNext := 0, laneCnt := [] }).inc (B.vault v) F.vault_SCRUB_PASS_CNT
    else d.setVlt v { x with scrubNext := n + 1 }

/-- The accesses that vault `v` has held are accepted in order of arrival (R250). -/
def Dev.heldGo (d : Dev) (v : Nat) : Dev :=
  let mine := d.heldReq.filter (fun q => (d.vaultOf q.pa).1 == v)
  mine.foldl (fun d q => d.vaultAccept q []) { d with heldReq := d.heldReq.filter (fun q => (d.vaultOf q.pa).1 != v) }

/-- VAULT_READY: lane training of a vault whose interface domain is on has ended (R250). -/
def Dev.vaultReady (d : Dev) (v : Nat) : Dev :=
  if d.domUp (Dom.vault v) && d.gb (B.vault v) F.vault_TRAINING then
    (((d.pb (B.vault v) F.vault_TRAINING false).pb (B.vault v) F.vault_READY true).setVlt v
      { d.vlt v with selfRefresh := false }).heldGo v
  else d

/-- INIT_START: every line of the vault becomes a ZERO line; accesses are held until INIT_DONE (R250). -/
def Dev.initStart (d : Dev) (v : Nat) : Dev :=
  if d.vaultUp v && d.gb (B.vault v) F.vault_READY && !d.gb (B.vault v) F.vault_INIT_BUSY then
    let d := d.setVlt v { d.vlt v with zeroed := true }
    { (d.pb (B.vault v) F.vault_INIT_BUSY true) with
      dram := Tab.clear d.dram (v * vaultLines) ((v + 1) * vaultLines) }
  else d

/-- INIT_DONE: INIT has written every line; held accesses are accepted in order of arrival (R250). -/
def Dev.initDone (d : Dev) (v : Nat) : Dev :=
  if d.gb (B.vault v) F.vault_INIT_BUSY then
    ((d.pb (B.vault v) F.vault_INIT_BUSY false).pb (B.vault v) F.vault_INIT_DONE true).heldGo v
  else d

/-- VLT_CNT_CLR (R258). -/
def Dev.vltCntClr (d : Dev) (v : Nat) : Dev :=
  d.clearFlds (B.vault v) [F.vault_CE_CNT, F.vault_UE_CNT, F.vault_ATTR_FAULT_CNT, F.vault_TAG_FAIL_CNT,
    F.vault_CTX_MISMATCH_CNT, F.vault_KEY_STALE_CNT, F.vault_POISON_RD_CNT, F.vault_POISON_WR_CNT,
    F.vault_SCRUB_CE_CNT, F.vault_SCRUB_UE_CNT, F.vault_SCRUB_PASS_CNT, F.vault_PC_CE_CNT]

/-- TAG_RETIRE: the operation that holds a tag completes (R47); what waited for it may end (R113, R267, R282). -/
def Dev.tagRetire (d : Dev) (o : Owner) (id : Nat) : Dev :=
  if d.tags.any (fun t => t.owner == o && t.id == id) then
    ({ d with tags := d.tags.filter (fun t => !(t.owner == o && t.id == id)) }).disableSettle
  else d

/-- Stalled accesses of an owner that no older one of their stream precedes (R39). -/
def Dev.stalledHeads (d : Dev) (o : Owner) : List (Owner × Req) :=
  let l := d.stalled.filter (fun s => s.1 == o)
  l.zipIdx.filterMap (fun x => if (l.take x.2).any (fun s => s.2.sid == x.1.2.sid) then none else some x.1)

/-- The weight of context `c` at vault `v`: W_c of QOS_W, 1 where it is 0, 15 for a LATENCY context (R51, R248). -/
def Dev.qosWeight (d : Dev) (v c : Nat) : Nat :=
  if d.gb B.mgmt F.mgmt_LATENCY c then 15 else max 1 (d.g (B.vault v) F.vault_QOS_W c)

/-- The arbiter of vault `v`: the context of the next grant among those with requests pending, visited in ascending order,
with the grants left of its round after it; a context without requests gives up the rest of its round (R248). -/
def Dev.vaultGrant (d : Dev) (v : Nat) (pend : List Nat) : Nat × Nat :=
  let x := d.vlt v
  if 0 < x.rrLeft ∧ x.rrCtx ∈ pend then (x.rrCtx, x.rrLeft - 1)
  else
    let c := (((List.range 16).map (fun i => (x.rrCtx + 1 + i) % 16)).find? (fun c => pend.contains c)).getD 0
    (c, d.qosWeight v c - 1)

/-- TAG_STALL_RESUME: an access stalled for want of a tag of this owner takes one, if one is free (R48): at a vault the
oldest of the context that the arbiter grants (R248), at a link port the oldest. -/
def Dev.stallResume (d : Dev) (o : Owner) : Dev :=
  if !d.tagFree o then d
  else
    let heads := d.stalledHeads o
    match o with
    | .vault v =>
      let g := d.vaultGrant v (heads.map (fun s => s.2.ctx))
      (match heads.find? (fun s => s.2.ctx == g.1) with
       | none => d
       | some s =>
         let d := { d.setVlt v { d.vlt v with rrCtx := g.1, rrLeft := g.2 } with stalled := d.stalled.erase s }
         if !d.vaultUp v then
           let r := d.decodeFail s.2
           { r.1 with resp := some r.2 }
         else if d.vaultHolds v then { d with heldReq := d.heldReq ++ [s.2] }
         else d.vaultTake v s.2)
    | _ => match heads with
      | [] => d
      | s :: _ =>
        let d := { d with stalled := d.stalled.erase s }
        let r := d.remoteAccess s.2 .response .alone
        match r.2 with
        | some x => { r.1 with resp := some x }
        | none => { r.1 with stalled := s :: r.1.stalled }

end Sys2Proof.Machine
end

