-- ==== Sys2Proof/Machine/Context.lean ====
section
/-!
DEFINITION. Contexts and isolation: the context commands (R261, R262, R271), disabling functions (R280–R282), XL_INV
(R267), region descriptors (R229, R278, R279), translation walks (R266).
Choices of the model: log entries 21, 65, 70, 71, 72.
-/

namespace Sys2Proof.Machine

/-! ### Context commands -/

/-- A command of FUNC_DIS, or an enable during its own disable, ignored and counted (R282). -/
def Dev.disReject (d : Dev) : Dev := d.inc B.mgmt F.mgmt_DIS_REJECT

/-- ENABLE: OFF to ACTIVE, with empty fault records (R262, R282). -/
def Dev.ctxEnable (d : Dev) (c : Nat) : Dev :=
  if d.gb B.mgmt F.mgmt_DIS_BUSY ∧ d.g B.mgmt F.mgmt_DIS_FUNC = c then d.disReject
  else if c = 0 ∨ d.ctxState c ≠ 0 then d
  else
    let b := B.mgmt
    let d := d.p b F.mgmt_STATE 1 c
    let d := [F.mgmt_FAULT_VA, F.mgmt_FAULT_CODE, F.mgmt_FAULT_STREAM, F.mgmt_FAULT_WRITE, F.mgmt_FAULT_VALID,
      F.mgmt_FAULT_TIME].foldl (fun d fld => d.p b fld 0 c) d
    d.p b F.mgmt_FUNC_OFF (setBits (d.g b F.mgmt_FUNC_OFF) c 1 0)

/-- SUSPEND: ACTIVE to SUSPENDING, and on to SUSPENDED where nothing of the context runs (R261, R262). -/
def Dev.ctxSuspend (d : Dev) (c : Nat) : Dev :=
  if c = 0 ∨ d.ctxState c ≠ 1 then d else (d.p B.mgmt F.mgmt_STATE 2 c).ctxSettle c

/-- Every parked operation of a context restarts at its recorded point (R271): a ring entry shows RUNNING again. -/
def Dev.unparkAll (d : Dev) (c : Nat) : Dev :=
  let d := d.cores.foldl (fun d x =>
    if x.2.q.any (fun e => e.parked && e.desc.ctx == c) then
      d.setCore x.1 { d.core x.1 with q := (d.core x.1).q.map (fun e =>
        if e.parked && e.desc.ctx == c then { e with parked := false } else e) }
    else d) d
  let d : Dev := { d with colls := d.colls.map (fun x => if x.2.ctx == c then (x.1, { x.2 with parked := false }) else x) }
  d.engines.foldl (fun d x =>
    let rs := x.2.run.filter (fun r => r.parked && tCtx r.desc == c)
    let d := rs.foldl (fun d r => (d.modRun x.1 r.entry (fun r => { r with parked := false })).ringWrite x.1 (r.pa + 6) [1]) d
    if x.2.headParked && d.g (B.fe x.1) F.fe_RING_CTX == c then d.setEng x.1 { d.eng x.1 with headParked := false } else d) d

/-- RESUME: back to ACTIVE, with every parked operation restarted and CTX_RESUMED raised (R271). -/
def Dev.ctxResume (d : Dev) (c : Nat) : Dev :=
  if c = 0 ∨ !(d.ctxState c = 2 ∨ d.ctxState c = 3) then d
  else
    let n := d.ctxParked c
    ((d.p B.mgmt F.mgmt_STATE 1 c).unparkAll c).event 0x11 0 0x0208 (dtl [(1, c), (4, n)]) c (d.ctxSecure c)

/-- A write of CTX_CMD (R262): SUSPEND with RESUME acts as RESUME alone. -/
def Dev.ctxCmd (d : Dev) (c v : Nat) : Dev :=
  let d := if bit v 0 then d.ctxEnable c else d
  if bit v 2 then d.ctxResume c else if bit v 1 then d.ctxSuspend c else d

/-! ### Disabling a function (R280–R282) -/

/-- A function number of Table 9.6. -/
def isFunc (n : Nat) : Bool :=
  (decide (1 ≤ n) && decide (n ≤ 0x12)) || (decide (0x18 ≤ n) && decide (n < 0x80))

/-- A function is off already: a context in OFF, or a block whose FUNC_OFF bit is set. -/
def Dev.isOff (d : Dev) (n : Nat) : Bool := if n < 16 then d.ctxState n == 0 else d.funcOff n

/-- A parked read of a ring head reached by an abort of function `n` is parked no longer: the entry ends when its ring is
served next (R272, R280). -/
def Dev.unparkHeads (d : Dev) (n : Nat) : Dev :=
  d.engines.foldl (fun d x =>
    if x.2.headParked && (n == 0x40 + x.1 || (n != 0 && d.g (B.fe x.1) F.fe_RING_CTX == n)) then
      d.setEng x.1 { d.eng x.1 with headParked := false } else d) d

/-- ABORT reaches what has not started and what is parked (R272, R280): queued and parked entries end with 0x0206; an
engine's RING_EN falls. -/
def Dev.abortNow (d : Dev) (n : Nat) : Dev :=
  let d := d.cores.foldl (fun d x => d.abortWhere x.1 (fun e => (e.funcs x.1).contains n && (e.st == .queued || e.parked))) d
  let d := d.unparkHeads n
  if 0x40 ≤ n ∧ n < 0x80 then d.pb (B.fe (n - 0x40)) F.fe_RING_EN false else d

/-- A disable of function `n` is accepted: none runs, or it turns the DRAIN of the same function into an ABORT (R282). -/
def Dev.disAccepts (d : Dev) (n : Nat) (abort : Bool) : Bool :=
  let b := B.mgmt
  if d.gb b F.mgmt_DIS_BUSY then d.g b F.mgmt_DIS_FUNC == n && abort && !d.gb b F.mgmt_DIS_POLICY
  else isFunc n && !d.isOff n

/-- FUNC_DIS written with GO and OP 0 (R280, R282). -/
def Dev.funcDisable (d : Dev) (n : Nat) (abort : Bool) : Dev :=
  let b := B.mgmt
  if !d.disAccepts n abort then d.disReject
  else if d.gb b F.mgmt_DIS_BUSY then ((d.pb b F.mgmt_DIS_POLICY true).abortNow n).disableSettle
  else
    let d := ((d.p b F.mgmt_DIS_FUNC n).pb b F.mgmt_DIS_POLICY abort).pb b F.mgmt_DIS_BUSY true
    let d := if n < 16 then d.p b F.mgmt_STATE 4 n else d
    let d := if abort then d.abortNow n else if n < 16 then d.unparkAll n else d
    d.disableSettle

/-- FUNC_DIS written with GO and OP 1 (R282). -/
def Dev.funcEnable (d : Dev) (n : Nat) : Dev :=
  if d.gb B.mgmt F.mgmt_DIS_BUSY || n < 16 || !isFunc n || !d.funcOff n then d.disReject
  else d.p B.mgmt F.mgmt_FUNC_OFF (setBits (d.g B.mgmt F.mgmt_FUNC_OFF) n 1 0)

/-- A write of FUNC_DIS (Table 9.9). -/
def Dev.funcDis (d : Dev) (v : Nat) : Dev :=
  let d := ((d.p B.mgmt F.mgmt_FUNC (v % 256)).p B.mgmt F.mgmt_POLICY (bits v 8 8)).p B.mgmt F.mgmt_OP (bits v 9 9)
  if !bit v 31 then d else if bit v 9 then d.funcEnable (v % 256) else d.funcDisable (v % 256) (bit v 8)

/-! ### Invalidation (R267) -/

/-- The entries an invalidation names: context, whole context or not, and the range of addresses. -/
structure InvRange where
  ctx : Nat
  all : Bool
  lo : Nat
  hi : Nat
  deriving DecidableEq, Repr

/-- A mapping of `len` bytes from `va` is named. -/
def InvRange.names (r : InvRange) (ctx va len : Nat) : Bool :=
  ctx == r.ctx && (r.all || overlaps va len r.lo (r.hi - r.lo))

/-- A write of XL_INV (R267, Table 9.9). GO is ignored while INV_BUSY is 1. -/
def Dev.xlInv (d : Dev) (v : Nat) : Dev :=
  let b := B.mgmt
  let d := (d.p b F.mgmt_INV_CTX (v % 16)).pb b F.mgmt_INV_ALL (bit v 4)
  let d := if v / 65536 % 65536 = 0 then d else d.p b F.mgmt_INV_COUNT (v / 65536)
  if !bit v 5 || d.gb b F.mgmt_INV_BUSY then d
  else
    let lo := d.g b F.mgmt_INV_VA * 0x200000
    let r : InvRange := ⟨d.g b F.mgmt_INV_CTX, d.gb b F.mgmt_INV_ALL, lo, lo + d.g b F.mgmt_INV_COUNT * 0x200000⟩
    let d := (List.range 11).foldl (fun d i =>
      let x := d.tc i
      let leaf := x.leaf.filter (fun t => !r.names t.ctx (t.page * 0x10000) (if t.large then 0x200000 else 0x10000))
      let l1 := x.l1.filter (fun e => !r.names e.ctx (e.index * 2 ^ 29) (2 ^ 29))
      if leaf.length == x.leaf.length && l1.length == x.l1.length then d
      else (d.tcInc i F.region_TC_INV_CNT (x.leaf.length - leaf.length + (x.l1.length - l1.length))).setTc i
        { x with leaf := leaf, l1 := l1 }) d
    let hit := fun (c : Nat) (va : Option Nat) => match va with
      | some a => r.names c a 64
      | none => false
    { (d.pb b F.mgmt_INV_BUSY true) with
      tags := d.tags.map (fun t => { t with inv := t.inv || hit t.ctx t.va })
      remoteOps := d.remoteOps.map (fun t => { t with inv := t.inv || hit t.ctx t.va }) }

/-- XL_INV_DONE: every tag that holds an address of a removed entry has retired (R267). -/
def Dev.xlInvDone (d : Dev) : Dev :=
  if d.gb B.mgmt F.mgmt_INV_BUSY && !d.tags.any (·.inv) && !d.remoteOps.any (·.inv) then
    d.pb B.mgmt F.mgmt_INV_BUSY false
  else d

/-! ### Region descriptors (R229, R278, R279) -/

/-- A write of the word at +0x10 of region descriptor `k`: RD_EN sets only over a range that is not empty, and an
interleave selected on a range that is no vault group is reported when the descriptor is enabled (R229). -/
def Dev.rdCfg (d : Dev) (k v : Nat) : Dev :=
  let b := B.mgmt
  let was := d.gb b F.mgmt_RD_EN k
  let en := bit v 0 && (was || decide (d.g b F.mgmt_RD_BASE k ≤ d.g b F.mgmt_RD_LIMIT k))
  let d := ((((((d.pb b F.mgmt_RD_EN en k).pb b F.mgmt_RD_SECURE (bit v 1) k).pb b F.mgmt_PERM_R (bit v 2) k).pb b
    F.mgmt_PERM_W (bit v 3) k).p b F.mgmt_ILV (bits v 5 4) k).pb b F.mgmt_SID_ANY (bit v 6) k).p b F.mgmt_CTX_MASK
    (v / 65536) k
  if en && !was && bits v 5 4 != 0 && (vaultGroup (d.rdBase k) (d.rdEnd k)).isNone then
    d.event 0x11 0 0x022A (dtl [(1, k)]) 0 true
  else d

/-- REGION_DESCRIPTOR_WRITE: the register at offset 0, 8, 0x10 or 0x14 of descriptor `k` (R279, Table 9.12). -/
def Dev.rdWrite (d : Dev) (k o v : Nat) : Dev :=
  let b := B.mgmt
  if o = 0 then d.p b F.mgmt_RD_BASE (v / 65536) k
  else if o = 8 then d.p b F.mgmt_RD_LIMIT (v / 65536) k
  else if o = 0x10 then d.rdCfg k v
  else if o = 0x14 then (d.p b F.mgmt_SID_LO (v % 4096) k).p b F.mgmt_SID_HI (v / 65536) k
  else d

/-- TRANSLATION_WALK: a translation of context `c` made in cache `i` (R264–R267). The address, or the fault recorded
for the operation that met it (R481). -/
def Dev.walkCmd (d : Dev) (i c sid va : Nat) (wr : Bool) : Dev :=
  let t := d.translate i c sid va wr
  match t.2 with
  | .inl s => { (t.1.ctxFault c va sid s wr) with resp := some ⟨zeros 8, true, s, va / 65536⟩ }
  | .inr pa => { t.1 with resp := some ⟨natLE 8 pa, false, 0, 0⟩ }

/-- TC_CNT_CLR of region `r` (R285). -/
def Dev.tcCntClr (d : Dev) (r : Nat) : Dev :=
  d.clearFlds (B.region r) [F.region_TC_HIT_CNT, F.region_TC_MISS_CNT, F.region_TC_WALK_RD_CNT, F.region_TC_FAULT_CNT,
    F.region_TC_INV_CNT]

end Sys2Proof.Machine
end

