-- ==== Sys2Proof/Machine/Firn.lean ====
section
/-!
DEFINITION. Firn: the sweep guard (R148–R152), the frame workspace (R153–R155), keys, cells and capacity (R159–R165),
farthest-point sampling (R166–R168), rulebooks (R169–R171), LABEL and BEV (R172, R173), the count grid (R174), work
that is ended early (R175).
Choices of the model: log entries 22, 30, 31, 32, 33, 34, 35, 36, 37, 159.
-/

namespace Sys2Proof.Machine

namespace Firn

/-- Stream of Firn's fabric accesses (Table 1.4). -/
def sid : Nat := 0x250
/-- The translation cache Firn uses. -/
def cache : Nat := 8
/-- Point capacity (R178). -/
def pointCap : Nat := 4194304
/-- Cell capacity (R178). -/
def cellCap : Nat := 1048576
/-- Hash buckets (R178). -/
def buckets : Nat := 2097152

end Firn

/-! ### Geometry (R159–R163, R170) -/

/-- `v · 2^sh` rounded down to an integer; none where the value is not finite. -/
def Val.floorAt (v : Val) (sh : Int) : Option Int :=
  match v with
  | .fin n m e =>
    let s : Int := if n then -(m : Int) else m
    let q := e + sh
    some (if 0 ≤ q then s * 2 ^ q.toNat else s / 2 ^ (-q).toNat)
  | _ => none

/-- `v · 2^sh` rounded to the nearest integer, ties to even; 0 where the value is not finite. -/
def Val.roundAt (v : Val) (sh : Int) : Int :=
  match v with
  | .fin n m e => if n then -((Val.rne m (e + sh) 0 : Nat) : Int) else ((Val.rne m (e + sh) 0 : Nat) : Int)
  | _ => 0

/-- An integer quotient rounded to nearest, ties to even. -/
def divRne (a : Int) (b : Nat) : Int :=
  let q := a / (b : Int)
  let r := a % (b : Int)
  if 2 * r < b then q else if (b : Int) < 2 * r then q + 1 else q + q % 2

/-- One axis of a point moved into frame coordinates, in FP32 (R160). -/
def moveAxis (row : List Val) (t : Val) (p : List Val) : Val :=
  let m := fun i => Val.round32 (Val.mul (row.getD i Val.zero) (p.getD i Val.zero))
  Val.add32 (Val.add32 (Val.add32 (m 0) (m 1)) (m 2)) t

/-- A stored coordinate of `w` bits in units of 1/128 m, in metres. -/
def metres (w v : Nat) : Val :=
  match Val.ofInt (sint w v) with
  | .fin n m _ => .fin n m (-7)
  | x => x

/-- A point of a sweep moved by its sweep-table entry (R159, R160). -/
def movePoint (entry p : Bytes) : List Val :=
  let xs := (List.range 3).map (fun i => metres 16 (fieldN p (2 * i) 2))
  (List.range 3).map (fun i => moveAxis ((List.range 3).map (fun j => decodeRaw .fp32 (fieldN entry (8 + 12 * i + 4 * j) 4)))
    (metres 32 (fieldN entry (0x2C + 4 * i) 4)) xs)

/-- The cell key of three cell coordinates; none outside the range (R159). -/
def keyOf (c : List Int) : Option Nat :=
  let f := c.map (fun x => x + 2 ^ 20)
  if f.all (fun x => decide (0 ≤ x) && decide (x < 2 ^ 21)) then
    some ((f.getD 0 0).toNat + 2 ^ 21 * (f.getD 1 0).toNat + 2 ^ 42 * (f.getD 2 0).toNat)
  else none

/-- The cell coordinates of a key. -/
def keyCoord (k : Nat) : List Int := (List.range 3).map (fun i => ((k / 2 ^ (21 * i) % 2 ^ 21 : Nat) : Int) - 2 ^ 20)

/-- The cell key of moved coordinates (R159). -/
def pointKey (edge : Nat) (p : List Val) : Option Nat :=
  let c := p.map (fun v => v.floorAt (5 - (edge : Int)))
  if c.all (·.isSome) then keyOf (c.map (fun x => x.getD 0)) else none

/-- The home bucket of a key (R161). -/
def homeBucket (k : Nat) : Nat :=
  let f := fun i => k / 2 ^ (21 * i) % 2 ^ 21
  (f 0 ^^^ (f 1 * 2 ^ 7) ^^^ (f 2 * 2 ^ 14)) % 2 ^ 21

/-! ### Workspace accesses -/

/-- A read by Firn under context `c`, its poisoned lines as zeros. -/
def Dev.firnRead (d : Dev) (c va n : Nat) : Dev × Bytes × List Bool × Option Xl := d.vaRead Firn.cache c Firn.sid va n

/-- A write by Firn under context `c`. -/
def Dev.firnWrite (d : Dev) (c va : Nat) (data : Bytes) (bad : List Bool := []) : Dev × Option Xl :=
  d.vaWrite Firn.cache c Firn.sid va data bad

/-- The writes of a list, in order, up to the first fault. -/
def Dev.firnWrites (d : Dev) (c : Nat) (ws : List (Nat × Bytes)) : Dev × Option Xl :=
  ws.foldl (fun (a : Dev × Option Xl) w => if a.2.isSome then a else a.1.firnWrite c w.1 w.2) (d, none)

/-- The epoch of a new frame in a workspace whose header holds `old`; every bucket is cleared first where it must be
(R155). FRAME_STATUS is written as zero and the new epoch to the header (R158). -/
def Dev.newEpoch (d : Dev) (c ws old : Nat) : Dev × Nat × Option Xl :=
  let clear := old == 0 || old == 0xFFFF
  let a := if clear then
      d.firnWrites c ((List.range Firn.buckets).map (fun i => (ws + 0x200000 + 16 * i + 0xC, natLE 2 0)))
    else (d, none)
  let e := if clear then 1 else old + 1
  match a.2 with
  | some x => (a.1, e, some x)
  | none => let b := a.1.firnWrites c [(ws + 4, natLE 2 0), (ws, natLE 2 e)]
            (b.1, e, b.2)

/-- Where a search of the hash table ends (R161): the cell that holds the key, an empty bucket, or nowhere, with the
number of buckets examined less one. -/
inductive Found where
  | hit (cell i : Nat)
  | empty (bucket i : Nat)
  | full
  deriving DecidableEq, Repr

/-- Probes from `i` on of the search for a key (R161). -/
def Dev.probe (d : Dev) (c ws epoch key : Nat) : Nat → Nat → Dev × (Xl ⊕ Found)
  | 0, _ => (d, .inr .full)
  | k + 1, i =>
    let b := (homeBucket key + i) % Firn.buckets
    let r := d.firnRead c (ws + 0x200000 + 16 * b) 16
    match r.2.2.2 with
    | some x => (r.1, .inl x)
    | none =>
      if fieldN r.2.1 0xC 2 ≠ epoch then (r.1, .inr (.empty b i))
      else if fieldN r.2.1 0 8 = key then (r.1, .inr (.hit (fieldN r.2.1 8 4) i))
      else r.1.probe c ws epoch key k (i + 1)

/-- What becomes of a key offered to the cell set. -/
inductive Ins where
  | old (cell : Nat)
  | new
  | probe
  | cap
  deriving DecidableEq, Repr

/-- A key looked up and, where it is new and the cell capacity admits it, entered as cell `count` (R161, R164). -/
def Dev.insertKey (d : Dev) (c ws epoch key count : Nat) : Dev × (Xl ⊕ Ins) :=
  let p := d.probe c ws epoch key 8 0
  let hist := fun (d : Dev) (i : Nat) => d.inc B.firn F.firn_PROBE_HIST i
  match p.2 with
  | .inl x => (p.1, .inl x)
  | .inr (.hit n i) => (hist p.1 i, .inr (.old n))
  | .inr .full => (hist p.1 7, .inr .probe)
  | .inr (.empty b i) =>
    let d := hist p.1 i
    if count = Firn.cellCap then (d, .inr .cap)
    else
      let w := d.firnWrite c (ws + 0x200000 + 16 * b) (natLE 8 key ++ natLE 4 count ++ natLE 2 epoch ++ zeros 2)
      match w.2 with
      | some x => (w.1, .inl x)
      | none => (w.1, .inr .new)

/-! ### The guard (R150, R151) -/

/-- What the guard finds of one sweep: which checks failed (bit k for check k), the sensor slot that serves it, and
the header's counter and timestamp. -/
structure Guarded where
  fails : Nat := 0
  slot : Option Nat := none
  fcnt : Nat := 0
  ts : Nat := 0
  deriving DecidableEq, Repr

/-- A check of class REJECT failed. -/
def Guarded.rejected (g : Guarded) : Bool := g.fails / 2 % 8 != 0

/-- The enabled sensor slot that serves an identity, the lowest-numbered (R151). -/
def Dev.sensorSlot (d : Dev) (id : Nat) : Option Nat :=
  (List.range 64).find? (fun s => d.gb B.firn F.firn_SLOT_EN s && d.g B.firn F.firn_SENSOR_ID s == id)

/-- The seven checks of Table 5.4 on a sweep's header and payload. -/
def Dev.guardChecks (d : Dev) (count : Nat) (h payload : Bytes) (bad : Bool) : Guarded :=
  let fmt := fieldN h 0 4 != 0x46505753 || fieldN h 4 1 != 1 || fieldN h 0xC 4 != count
  let crc := Crypto.crc32c (h.take 0x3C ++ payload) != fieldN h 0x3C 4 || bad
  let base := 2 * b2n fmt + 4 * b2n crc
  let fcnt := fieldN h 8 4
  let ts := fieldN h 0x10 8
  if fmt || crc then { fails := base, fcnt := fcnt, ts := ts }
  else
    let flt := 128 * b2n (bit (fieldN h 5 1) 0)
    match d.sensorSlot (fieldN h 6 2) with
    | none => { fails := 8 + flt, fcnt := fcnt, ts := ts }
    | some s =>
      let f := B.firn
      let armed := d.gb f F.firn_ARMED s
      let age := d.gb f F.firn_GUARD_AGE_EN s &&
        (!d.gb B.mgmt F.mgmt_STEPPED || decide (ts + d.g f F.firn_MAX_AGE_US s * 1000 < d.varve) ||
          decide (d.varve + d.g f F.firn_FUTURE_TOL_US * 1000 < ts))
      { fails := 16 * b2n (armed && fcnt != (d.g f F.firn_LAST_FCNT s + 1) % 2 ^ 32) +
          32 * b2n (armed && decide (ts ≤ d.g f F.firn_LAST_TS s)) + 64 * b2n age + flt
        slot := some s, fcnt := fcnt, ts := ts }

/-- The first failed check, 1 to 7. -/
def Guarded.first (g : Guarded) : Nat := ((List.range 8).find? (fun k => bit g.fails k)).getD 0

/-- The counters and the sensor slot after a sweep has been checked (R150, R151, Table 5.21). -/
def Dev.guardRecord (d : Dev) (g : Guarded) : Dev :=
  let f := B.firn
  let d := d.inc f F.firn_SWEEPS_READ
  let d := ([(1, F.firn_GUARD_FMT_CNT), (2, F.firn_GUARD_CRC_CNT), (3, F.firn_GUARD_SENSOR_CNT),
    (4, F.firn_GUARD_SEQ_CNT), (5, F.firn_GUARD_TS_CNT), (6, F.firn_GUARD_AGE_CNT), (7, F.firn_GUARD_SFLT_CNT)] :
    List (Nat × Fld)).foldl (fun d c => if bit g.fails c.1 then d.inc f c.2 else d) d
  match g.slot with
  | none => d
  | some s =>
    let d := if g.fails = 0 then d else (d.p f F.firn_LAST_FAIL g.first s).inc f F.firn_SLOT_FAIL_CNT s
    ((d.p f F.firn_LAST_FCNT g.fcnt s).p f F.firn_LAST_TS g.ts s).pb f F.firn_ARMED true s

/-! ### BUILD (R155, R158–R168, R174) -/

/-- A cell while it is built: key, points, first point, exact sums of the moved coordinates in 1/1,024 m, sweeps,
largest intensity, flags (Table 5.9, R163). -/
structure Cell where
  key : Nat
  count : Nat
  rep : Nat
  sums : List Int
  mask : Nat
  inten : Nat
  flags : Nat
  deriving DecidableEq, Repr

/-- A centroid coordinate (R163). -/
def Cell.centre (c : Cell) (i : Nat) : Int := divRne (c.sums.getD i 0) c.count

/-- The cell record (Table 5.9). -/
def Cell.bytes (c : Cell) : Bytes :=
  natLE 8 c.key ++ natLE 4 c.count ++ natLE 4 c.rep ++
  ((List.range 3).flatMap (fun i => natLE 4 (unsint 32 (c.centre i)))) ++ natLE 2 c.mask ++ [byte c.inten,
    byte c.flags]

/-- A BUILD in progress. -/
structure Build where
  d : Dev
  arrival : Nat := 0
  cells : List Cell := []
  accepted : Nat := 0
  invalid : Nat := 0
  range : Nat := 0
  probe : Nat := 0
  ptcap : Nat := 0
  cellcap : Nat := 0
  guard : Nat := 0
  mask : Nat := 0
  refFcnt : Nat := 0
  refTs : Nat := 0
  grid : Tab Nat := []
  fault : Option (Xl × Bool) := none
  deriving DecidableEq, Repr

/-- A point counted in the grid (R174). -/
def Build.gridAdd (b : Build) (edge : Nat) (p : List Val) : Build :=
  let c := fun i => ((p.getD i Val.zero).floorAt (2 - (edge : Int))).map (fun x => x + 128)
  if p.all (fun v => (v.floorAt 0).isSome) then
    match c 0, c 1 with
    | some x, some y =>
      if 0 ≤ x ∧ x < 256 ∧ 0 ≤ y ∧ y < 256 then
        let k := y.toNat * 256 + x.toNat
        { b with grid := b.grid.put k (min 65535 (b.grid.getD k 0 + 1)) }
      else b
    | _, _ => b
  else b

/-- A write of the point-map word of a point (Table 5.10). -/
def Build.map (b : Build) (c ws cell sweep cause : Nat) : Build :=
  let w := b.d.firnWrite c (ws + 0x4200000 + 4 * b.arrival) (natLE 4 (cell + 2 ^ 20 * sweep + 2 ^ 24 * cause))
  { b with d := w.1, fault := w.2.map (fun x => (x, true)) }

/-- A point joins cell `n`, which is new where the list ends before it (R162, R163). -/
def Build.join (b : Build) (n key sweep : Nat) (suspect : Bool) (p : List Val) (inten : Nat) : Build :=
  let s := p.map (fun v => v.roundAt 10)
  let cells := if n < b.cells.length then
      modAt b.cells n (fun c => { c with
        count := c.count + 1, sums := List.zipWith (· + ·) c.sums s, mask := Nat.lor c.mask (2 ^ sweep)
        inten := max c.inten inten, flags := Nat.lor c.flags (b2n suspect) })
    else b.cells ++ [⟨key, 1, b.arrival, s, 2 ^ sweep, inten, b2n suspect⟩]
  { b with cells := cells, accepted := b.accepted + 1 }

/-- One point of a frame (Table 5.11). `trusted` says its sweep passed checks 1 to 3, `grid` the grid edge where the
frame fills the count grid. -/
def Build.point (b : Build) (c ws epoch edge sweep : Nat) (trusted suspect : Bool) (grid : Option Nat)
  (entry p : Bytes) :
    Build :=
  if b.fault.isSome then b
  else
    let bad := bit (fieldN p 0xB 1) 0
    let q := movePoint entry p
    let b := match grid with
      | some g => if trusted && !bad then b.gridAdd g q else b
      | none => b
    let b := if Firn.pointCap ≤ b.arrival then { b with ptcap := b.ptcap + 1 }
      else if !trusted then ({ b with guard := b.guard + 1 }).map c ws 0 sweep 1
      else if bad then ({ b with invalid := b.invalid + 1 }).map c ws 0 sweep 2
      else match pointKey edge q with
        | none => ({ b with range := b.range + 1 }).map c ws 0 sweep 3
        | some key =>
          let r := b.d.insertKey c ws epoch key b.cells.length
          let b := { b with d := r.1 }
          match r.2 with
          | .inl x => { b with fault := some (x, false) }
          | .inr .probe => ({ b with probe := b.probe + 1 }).map c ws 0 sweep 4
          | .inr .cap => ({ b with cellcap := b.cellcap + 1 }).map c ws 0 sweep 5
          | .inr (.old n) => (b.join n key sweep suspect q (fieldN p 6 1)).map c ws n sweep 0
          | .inr .new => (b.join b.cells.length key sweep suspect q (fieldN p 6 1)).map c ws b.cells.length sweep 0
    { b with arrival := b.arrival + 1 }

/-- One sweep of a frame: read, checked, its points taken (R149–R151). -/
def Build.sweep (b : Build) (c ws epoch edge s : Nat) (grid : Option Nat) (entry : Bytes) : Build :=
  if b.fault.isSome then b
  else
    let va := fieldN entry 0 6
    let n := fieldN entry 0x38 4
    let r := b.d.firnRead c va (64 + 16 * n)
    match r.2.2.2 with
    | some x => { b with d := r.1, fault := some (x, false) }
    | none =>
      let g := r.1.guardChecks n (r.2.1.take 64) (r.2.1.drop 64) (r.2.2.1.any id)
      let b := { b with
        d := r.1.guardRecord g, mask := if g.fails = 0 then b.mask else b.mask + 2 ^ s
        refFcnt := if s = 0 ∧ !g.rejected then g.fcnt else b.refFcnt
        refTs := if s = 0 ∧ !g.rejected then g.ts else b.refTs }
      (chunks 16 (r.2.1.drop 64)).foldl (fun b p =>
        b.point c ws epoch edge s (!g.rejected) (g.fails != 0) grid entry p) b

/-- FP32 squared distance of two centroids (R166); the order of the sum is free (R71). -/
def sqDist (serial : Nat) (a b : List Int) : Val :=
  Val.sum32 serial ((List.zip a b).map (fun p =>
    let x := match Val.ofInt (p.1 - p.2) with
      | .fin n m _ => Val.round32 (.fin n m (-10))
      | v => v
    Val.mul x x))

/-- Cells selected by farthest-point sampling (R166): `sel` in order of selection, `dist` the least squared distance of
each cell. -/
def fpsGo (serial : Nat) (cs : List (List Int)) : Nat → List Nat → List Val → List Nat
  | 0, sel, _ => sel
  | k + 1, sel, dist =>
    let cand := (List.range cs.length).filter (fun i => !sel.contains i)
    match cand.find? (fun i => cand.all (fun j => !Val.lt (dist.getD i .zero) (dist.getD j .zero))) with
    | none => sel
    | some i =>
      let nd := cs.zipIdx.map (fun c => sqDist (serial + sel.length * cs.length + c.2) c.1 (cs.getD i []))
      fpsGo serial cs k (sel ++ [i]) (List.zipWith (fun a b => if Val.lt b a then b else a) dist nd)

/-- The first `n` cells farthest-point sampling selects. -/
def fpsCells (serial n : Nat) (cs : List (List Int)) : List Nat :=
  if n = 0 ∨ cs.isEmpty then []
  else fpsGo serial cs (n - 1) [0] (cs.zipIdx.map (fun c => sqDist (serial + c.2) c.1 (cs.headD [])))

/-- The Spindrift of every region can be held (R168). -/
def Dev.spindrifts (d : Dev) : Bool := (List.range 8).all (fun r => d.spindriftUp r && !d.funcClosed (0x18 + r))

/-- A buffer of the count grid that may be filled: not the newest, not the one Rime reads (R174). Which of them is the
implementation's choice. -/
def Dev.gridPick (d : Dev) : Dev × Nat :=
  let c := (List.range 3).filter (fun i =>
    !(d.gb B.firn F.firn_GRID_VALID && d.g B.firn F.firn_GRID_NEWEST == i) && d.gridRead != some i)
  let f := d.fresh
  (f.2, c.getD (f.1 % c.length) 0)

/-- A BUILD's grid becomes the newest buffer (R174); it replaces a buffer that waits for Whiteout (R394). -/
def Dev.gridStore (d : Dev) (g : Tab Nat) (fcnt ts : Nat) (guard : Bool) : Dev :=
  let p := d.gridPick
  let d := { p.1 with grids := Tab.put p.1.grids p.2 ⟨g, fcnt, ts, guard⟩ }
  let d := (d.p B.firn F.firn_GRID_NEWEST p.2).pb B.firn F.firn_GRID_VALID true
  let d := if d.rime.woWait then d.inc B.rime F.rime_WO_SKIP_CNT else d
  { d with rime := { d.rime with woWait := true } }

/-- Firn's accesses to a scratchpad, under the context of the frame (R278). -/
def Dev.firnWho (d : Dev) (c : Nat) : Initiator := d.who Firn.sid c

/-- The context a Firn descriptor works under: OWNER_CTX of VOXELIZE, CONTEXT of RULEBOOK_BUILD (R157, R169). -/
def firnCtx (x : Desc) : Nat := if x.cls = some .voxelize then x.param 0x31 1 else x.ctx

/-- The DST granule takes the header (R153), and the execution of the entry has ended. -/
def Dev.firnEnd (d : Dev) (n slot : Nat) (x : Desc) (dst : Bytes) (seen : List Nat) (met : List (Nat × Nat)) : Dev :=
  let w := d.padWrite n (64 * x.dst.base) (d.firnWho (firnCtx x)) (padTo 64 dst) []
  w.1.finishEntry n slot (mkResult {} seen (met ++ w.2.toList))

/-- An ABORT reaches Firn's work for the entry: its owner or context, or Firn itself, is being aborted (R175, Table
9.6). -/
def Dev.firnAborted (d : Dev) (e : QEntry) : Bool :=
  match d.abortFunc with
  | some f => f == 0x10 || (f != 0 && f == firnCtx e.desc)
  | none => false

/-- FRAME_STATUS of a header. -/
def hdrStatus (h : Bytes) : Nat := fieldN h 4 2

/-- The header with its FRAME_STATUS replaced. -/
def hdrWith (h : Bytes) (status : Nat) : Bytes := patch h 4 (natLE 2 status)

/-- The detail of FIRN_DEGRADED (Table 5.14). -/
def degraded (pt cell probe range : Bool) : Nat := b2n pt + 2 * b2n cell + 4 * b2n probe + 8 * b2n range

/-- A translation fault ends a phase at once (R175). -/
def Dev.firnFault (d : Dev) (n slot : Nat) (x : Desc) (hdr : Bytes) (seen : List Nat) (f : Xl) : Dev :=
  d.firnEnd n slot x hdr seen [(f.status, f.detail)]

/-- FRAME_STATUS of work that an ABORT ends: ABORTED set, the bit of what did not complete clear (R175). -/
def abortStatus (hdr : Bytes) (done : Nat) : Nat := Nat.lor (hdrStatus hdr &&& (0xFFFF ^^^ done)) 8

/-- Work that an ABORT ends at its first boundary: FRAME_STATUS is written, and DST takes what `dst` makes of the header
(R171, R175). -/
def Dev.firnAbort (d : Dev) (n slot c ws done : Nat) (x : Desc) (hdr : Bytes) (seen : List Nat)
    (dst : Bytes → Bytes := id) : Dev :=
  let h := hdrWith hdr (abortStatus hdr done)
  let w := d.firnWrite c (ws + 4) (natLE 2 (hdrStatus h))
  w.1.firnEnd n slot x (dst h) seen [(0x0206, 0)]

/-- The sampling of a BUILD (R166–R168): cells selected, and the reason it was refused or stopped. Where a region's
Spindrift is unavailable, `stop` is how many cells had been selected when it became so, none where it was so before. -/
def Dev.fpsRun (d : Dev) (owned : Bool) (target : Nat) (stop : Option Nat) (cells : List Cell) :
    Dev × List Nat × Option Nat :=
  if !owned then (d, [], some 0)
  else
    let n := min target cells.length
    let lim := if d.spindrifts then n else min (stop.getD 0) n
    let s := d.takeSerials (cells.length * (lim + 1))
    let sel := fpsCells s.1 lim (cells.map (fun c => (List.range 3).map c.centre))
    (s.2, sel, if lim < n then some 1 else none)

/-- The frame counters after a BUILD has completed (Table 5.20). -/
def Dev.firnCount (d : Dev) (deg guard : Bool) : Dev :=
  let f := B.firn
  let d := d.inc f F.firn_FRAMES_BUILT
  let d := if deg then d.inc f F.firn_FRAMES_DEGRADED else d
  if guard then d.inc f F.firn_FRAMES_GUARD else d

/-- The points a BUILD has dropped, counted however it ends (Table 5.20). -/
def Dev.firnDrops (d : Dev) (b : Build) : Dev :=
  let f := B.firn
  ((((d.inc f F.firn_DROP_INVALID_CNT 0 b.invalid).inc f F.firn_DROP_KEY_CNT 0 b.range).inc f F.firn_DROP_PROBE_CNT 0
    b.probe).inc f F.firn_DROP_PTCAP_CNT 0 b.ptcap).inc f F.firn_DROP_CELLCAP_CNT 0 b.cellcap

/-- The header of a completed BUILD (Table 5.6). -/
def buildHeader (x : Desc) (epoch status fps time : Nat) (b : Build) : Bytes :=
  record 64 [(0, natLE 2 epoch), (2, [byte (x.param 0x32 1)]), (3, [byte (x.param 0x36 1)]), (4, natLE 2 status),
    (6, natLE 2 b.mask), (8, natLE 4 b.refFcnt), (0xC, [byte (x.param 0x31 1)]), (0xD, [byte (x.param 0x33 1)]),
    (0xE, natLE 2 fps), (0x10, natLE 8 b.refTs), (0x18, natLE 4 b.arrival), (0x1C, natLE 4 b.accepted),
    (0x20, natLE 4 b.cells.length), (0x24, natLE 4 b.invalid), (0x28, natLE 4 b.range), (0x2C, natLE 4 b.probe),
    (0x30, natLE 4 b.ptcap), (0x34, natLE 4 b.cellcap), (0x38, natLE 4 time), (0x3C, natLE 4 b.guard)]

/-- The end of a BUILD whose points have all been taken: sampling, cell records, grid, header, counters, statuses. -/
def Dev.buildEnd (d : Dev) (n slot c ws epoch : Nat) (e : QEntry) (stop : Option Nat) (grid : Bool) (b : Build)
    (hdr : Bytes) (seen : List Nat) : Dev :=
  let x := e.desc
  let fps : Dev × List Nat × Option Nat :=
    if x.param 0x33 1 = 1 then d.fpsRun e.fpsOk (x.param 0x34 2) stop b.cells else (d, [], none)
  let sampled := x.param 0x33 1 == 1 && fps.2.2.isNone
  let cells := b.cells.zipIdx.map (fun k => if fps.2.1.contains k.2 then { k.1 with flags := k.1.flags + 2 } else k.1)
  let degP := decide (d.g B.firn F.firn_PROBE_DROP_TOL < b.probe)
  let deg := b.ptcap != 0 || b.range != 0 || b.cellcap != 0 || degP
  let guard := b.mask != 0
  let status := 1 + 2 * b2n guard + 4 * b2n deg + 16 * b2n sampled
  let h := buildHeader x epoch status fps.2.1.length fps.1.t32 b
  let w := fps.1.firnWrites c
    ((cells.zipIdx.map (fun k => (ws + 0x2200000 + 32 * k.2, k.1.bytes))) ++
     (fps.2.1.zipIdx.map (fun k => (ws + 0x10000 + 4 * k.2, natLE 4 k.1))) ++ [(ws, h)])
  match w.2 with
  | some f => w.1.firnFault n slot x hdr seen f
  | none =>
    let d := if grid then w.1.gridStore b.grid b.refFcnt b.refTs guard else w.1
    (d.firnCount deg guard).firnEnd n slot x h seen
      ((match fps.2.2 with
        | some r => [(0x0404, r)]
        | none => []) ++ (if guard then [(0x0401, b.mask)] else []) ++
       (if deg then [(0x0402, degraded (b.ptcap != 0) (b.cellcap != 0) degP (b.range != 0))] else []))

/-- VOXELIZE PHASE 0 (R155, R158–R168). -/
def Dev.voxBuild (d : Dev) (n slot : Nat) (e : QEntry) (stop : Option Nat) : Dev :=
  let x := e.desc
  let c := x.param 0x31 1
  let ws := x.param 0x28 6
  let tbl := d.padBuf n x.srcA.base (64 * x.param 0x36 1) (d.firnWho c)
  let seen := tbl.2.1.seen
  match tbl.2.2 with
  | some f => tbl.1.firnEnd n slot x [] seen [f]
  | none =>
    let old := tbl.1.firnRead c ws 64
    match old.2.2.2 with
    | some f => old.1.firnFault n slot x [] seen f
    | none =>
    let ep := old.1.newEpoch c ws (fieldN old.2.1 0 2)
    let hdr := hdrWith (patch old.2.1 0 (natLE 2 ep.2.1)) 0
    match ep.2.2 with
    | some f => ep.1.firnFault n slot x hdr seen f
    | none =>
      if ep.1.firnAborted e then ep.1.firnAbort n slot c ws 1 x hdr seen
      else
        let grid := ep.1.gb B.firn F.firn_GRID_EN && ep.1.g B.firn F.firn_GRID_CTX == c
        let ge := if grid then some (ep.1.g B.firn F.firn_GRID_EDGE) else none
        let b := (chunks 64 (tbl.2.1.data.take (64 * x.param 0x36 1))).zipIdx.foldl (fun (b : Build) s =>
          b.sweep c ws ep.2.1 (x.param 0x32 1) s.2 ge s.1) { d := ep.1 }
        let d := b.d.firnDrops b
        match b.fault with
        | some f => d.firnFault n slot x hdr seen f.1
        | none => d.buildEnd n slot c ws ep.2.1 e stop grid b hdr seen

/-! ### LABEL and BEV (R172, R173) -/

/-- A later phase over a workspace whose header has been read: refused where BUILD_DONE is 0 (R158), otherwise run. -/
def Dev.voxLater (d : Dev) (n slot : Nat) (e : QEntry) (f : Dev → Bytes → Dev × Option Xl) (done : Nat) : Dev :=
  let x := e.desc
  let c := x.param 0x31 1
  let ws := x.param 0x28 6
  let h := d.firnRead c ws 64
  match h.2.2.2 with
  | some q => h.1.firnFault n slot x [] [] q
  | none =>
    let hdr := h.2.1
    if !bit (hdrStatus hdr) 0 then h.1.firnEnd n slot x hdr [] [(0x0403, hdrStatus hdr)]
    else if h.1.firnAborted e then h.1.firnAbort n slot c ws done x hdr []
    else
      let r := f h.1 hdr
      match r.2 with
      | some q => r.1.firnFault n slot x hdr [] q
      | none =>
        let h' := hdrWith hdr (Nat.lor (hdrStatus hdr) done)
        let w := r.1.firnWrite c (ws + 4) (natLE 2 (hdrStatus h'))
        match w.2 with
        | some q => w.1.firnFault n slot x hdr [] q
        | none => w.1.firnEnd n slot x h' [] []

/-- The label of one point: class, confidence, read poisoned (R172). -/
def Dev.pointLabel (d : Dev) (c ws word : Nat) (bad : Bool) : Dev × Nat × Nat × Bool × Option Xl :=
  if bad then (d, 0xFFFF, 0, true, none)
  else if bits word 26 24 ≠ 0 then (d, 0xFFFF, 0, false, none)
  else
    let r := d.firnRead c (ws + 0x5200000 + 4 * bits word 19 0) 4
    (r.1, fieldN r.2.1 0 2, fieldN r.2.1 2 1, r.2.2.1.any id, r.2.2.2)

/-- VOXELIZE PHASE 1 (R172). -/
def Dev.voxLabel (d : Dev) (n slot : Nat) (e : QEntry) : Dev :=
  let c := e.desc.param 0x31 1
  let ws := e.desc.param 0x28 6
  d.voxLater n slot e (fun d hdr =>
    let k := min (fieldN hdr 0x18 4) Firn.pointCap
    let m := d.firnRead c (ws + 0x4200000) (4 * k)
    match m.2.2.2 with
    | some q => (m.1, some q)
    | none =>
      let r := (List.range k).foldl (fun (a : Dev × List (Nat × Nat × Bool) × Option Xl) i =>
        if a.2.2.isSome then a
        else
          let l := a.1.pointLabel c ws (fieldN m.2.1 (4 * i) 4) (m.2.2.1.getD (i / 16) false)
          (l.1, a.2.1 ++ [(l.2.1, l.2.2.1, l.2.2.2.1)], l.2.2.2.2)) (m.1, [], none)
      match r.2.2 with
      | some q => (r.1, some q)
      | none =>
        let bad := fun (per : Nat) => (chunks per r.2.1).map (fun g => g.any (fun x => x.2.2))
        let w := r.1.firnWrite c (ws + 0x5600000) (r.2.1.flatMap (fun x => natLE 2 x.1)) (bad 32)
        match w.2 with
        | some q => (w.1, some q)
        | none => w.1.firnWrite c (ws + 0x5E00000) (r.2.1.map (fun x => byte x.2.1)) (bad 64)) 0x20

/-- A cell record read back (Table 5.9). -/
def cellFrom (b : Bytes) : Cell :=
  ⟨fieldN b 0 8, fieldN b 8 4, fieldN b 0xC 4, (List.range 3).map (fun i => sint 32 (fieldN b (0x10 + 4 * i) 4)),
    fieldN b 0x1C 2, fieldN b 0x1E 1, fieldN b 0x1F 1⟩

/-- The cell records of a workspace; the sums of a record read back are its centroid. -/
def Dev.readCells (d : Dev) (c ws n : Nat) : Dev × List Cell × Bool × Option Xl :=
  let r := d.firnRead c (ws + 0x2200000) (32 * n)
  (r.1, (chunks 32 r.2.1).map cellFrom, r.2.2.1.any id, r.2.2.2)

/-- Height of a cell above Z_BASE in units of 1/8 m (R173). -/
def bevHeight (c : Cell) (z : Int) : Int := max (-127) (min 127 (divRne (c.sums.getD 2 0 - 8 * z) 128))

/-- The eight plane values of one column (Table 5.13). -/
def bevColumn (cs : List Cell) (z : Int) : List Int :=
  match cs with
  | [] => List.replicate 8 0
  | c :: _ =>
    let hs := cs.map (fun c => bevHeight c z)
    [(min 127 ((cs.map (·.count)).sum) : Nat), hs.foldl max (bevHeight c z), hs.foldl min (bevHeight c z),
     ((cs.foldl (fun a c => max a c.inten) 0) / 2 : Nat), (min 127 cs.length : Nat),
     (cs.foldl (fun a c => max a (Nat.log2 c.mask)) 0 : Nat), 0, 0]

/-- VOXELIZE PHASE 2 (R173). -/
def Dev.voxBev (d : Dev) (n slot : Nat) (e : QEntry) : Dev :=
  let x := e.desc
  let c := x.param 0x31 1
  let ws := x.param 0x28 6
  let W := 32 * x.param 0x32 1
  let H := 32 * x.param 0x33 1
  d.voxLater n slot e (fun d hdr =>
    let r := d.readCells c ws (fieldN hdr 0x20 4)
    match r.2.2.2 with
    | some q => (r.1, some q)
    | none =>
      let col := fun (c : Cell) => ((keyCoord c.key).getD 0 0 + (W / 2 : Nat),
        (keyCoord c.key).getD 1 0 + (H / 2 : Nat))
      let cols := (List.range H).flatMap (fun v => (List.range W).map (fun u =>
        bevColumn (r.2.1.filter (fun c => col c == (Int.ofNat u, Int.ofNat v))) (sint 16 (x.param 0x34 2))))
      let bytes := (List.range 8).flatMap (fun k => cols.map (fun p => byte (unsint 8 (p.getD k 0))))
      r.1.firnWrite c (ws + 0x6200000) bytes (List.replicate (bytes.length / 64) r.2.2.1)) 0x40

/-! ### Rulebooks (R169–R171) -/

/-- Coordinates of offset number `o` of a kernel (R170): d from −h for stride 1, from 0 for stride 2. -/
def kernelOffset (k h o : Nat) : List Int :=
  [((o % k : Nat) : Int) - h, ((o / k % k : Nat) : Int) - h, ((o / (k * k) : Nat) : Int) - h]

/-- The input-output pairs of stride 1 at one offset, by ascending output (R170, R171). -/
def pairsS1 (cs : List Cell) (off : List Int) : List (Nat × Nat) :=
  cs.zipIdx.filterMap (fun j =>
    let want := List.zipWith (· + ·) (keyCoord j.1.key) off
    (findAt (fun (i : Cell) => keyCoord i.key == want) cs).map (fun i => (i.1, j.2)))

/-- Parents inserted into an output workspace (R170): the cells, the output number of each input cell where it was
taken, drops by probe and by capacity, the fault met. -/
structure Parents where
  d : Dev
  cells : List Cell := []
  out : List (Option Nat) := []
  probe : Nat := 0
  cap : Nat := 0
  fault : Option Xl := none
  deriving DecidableEq, Repr

/-- A child joins its parent; the sums are weighted by its count (R170). -/
def Parents.join (p : Parents) (n key : Nat) (c : Cell) : Parents :=
  let ws : List Int := c.sums.map (fun s => s * Int.ofNat c.count)
  { p with
    cells := if n < p.cells.length then
        modAt p.cells n (fun q => { q with
          count := q.count + c.count, sums := List.zipWith (· + ·) q.sums ws, mask := Nat.lor q.mask c.mask
          inten := max q.inten c.inten, flags := Nat.lor q.flags c.flags })
      else p.cells ++ [⟨key, c.count, c.rep, ws, c.mask, c.inten, c.flags⟩]
    out := p.out ++ [some n] }

/-- One input cell offered to the output workspace. -/
def Parents.add (p : Parents) (c ws epoch : Nat) (cell : Cell) : Parents :=
  if p.fault.isSome then p
  else
    let key := (keyOf ((keyCoord cell.key).map (fun x => x / 2))).getD 0
    let r := p.d.insertKey c ws epoch key p.cells.length
    let p := { p with d := r.1 }
    match r.2 with
    | .inl x => { p with fault := some x }
    | .inr .probe => { p with probe := p.probe + 1, out := p.out ++ [none] }
    | .inr .cap => { p with cap := p.cap + 1, out := p.out ++ [none] }
    | .inr (.old n) => p.join n key cell
    | .inr .new => p.join p.cells.length key cell

/-- The pairs of stride 2 at one offset, by ascending output, then input. -/
def pairsS2 (cs : List Cell) (p : Parents) (off : List Int) : List (Nat × Nat) :=
  (List.range p.cells.length).flatMap (fun j =>
    ((cs.zip p.out).zipIdx.filter (fun i => i.1.2 == some j &&
      List.zipWith (fun a b => a - 2 * b) (keyCoord i.1.1.key)
        (keyCoord (p.cells.getD j ⟨0, 0, 0, [], 0, 0, 0⟩).key) == off)).map
      (fun i => (i.2, j)))

/-- Free point counts of a header, one after another, whose sum leaves the 32-bit POINTS_IN exact: each at most what
`left` still admits (Table 5.6). -/
def freeCounts (left : Nat) : List Nat → List Nat
  | [] => []
  | f :: fs => f % (left + 1) :: freeCounts (left - f % (left + 1)) fs

/-- The header of a stride-2 output workspace (R170). Fields the spec gives no value for are free values within the ranges
of Table 5.6; POINTS_IN stays the sum R153 states. -/
def outHeader (free inHdr : Bytes) (epoch : Nat) (p : Parents) : Bytes :=
  let deg := p.probe != 0 || p.cap != 0
  let f := fun o n => fieldN free o n
  let n := p.cells.length
  let cs := freeCounts (2 ^ 32 - 1 - p.probe - p.cap) [f 0x1C 4, f 0x24 4, f 0x28 4, f 0x30 4, f 0x3C 4]
  let k := fun (i : Nat) => natLE 4 (cs.getD i 0)
  record 64 [(0, natLE 2 epoch), (2, [byte (fieldN inHdr 2 1 + 1)]), (3, [byte (1 + f 3 1 % 16)]),
    (4, natLE 2 (1 + (if bit (hdrStatus inHdr) 1 then 2 else 0) + 4 * b2n deg)), (6, natLE 2 (f 6 2)),
    (8, natLE 4 (f 8 4)), (0xC, [byte (f 0xC 1 % 16)]), (0xD, [byte (f 0xD 1 % 2)]),
    (0xE, natLE 2 (f 0xE 2 % (min 8192 n + 1))), (0x10, natLE 8 (f 0x10 8)),
    (0x18, natLE 4 (cs.sum + p.probe + p.cap)), (0x1C, k 0), (0x20, natLE 4 n), (0x24, k 1), (0x28, k 2),
    (0x2C, natLE 4 p.probe), (0x30, k 3), (0x34, natLE 4 p.cap), (0x38, natLE 4 (f 0x38 4)), (0x3C, k 4)]

/-- The rulebook laid out (R171): directory and stored pairs, kept within `cap` pairs. -/
def rulebook (groups : List (List (Nat × Nat))) (cap : Nat) : Bytes × List (Nat × Nat) :=
  let dir := (groups.foldl (fun (a : List (Nat × Nat) × Nat) g =>
    let k := min g.length (cap - a.2)
    (a.1 ++ [(a.2, k)], a.2 + k)) ([], 0)).1
  (dir.flatMap (fun e => natLE 4 e.1 ++ natLE 4 e.2), groups.flatten.take cap)

/-- The summary in DST (R171). -/
def rbSummary (pairs dropped cells k s status : Nat) : Bytes :=
  record 64 [(0, natLE 4 pairs), (4, natLE 4 dropped), (8, natLE 4 cells), (0xC, natLE 2 (k * k * k)), (0xE,
    [byte k]),
    (0xF, [byte s]), (0x10, natLE 2 status)]

/-- The rulebook, the input header's marks and DST written, and the execution ended (R171). -/
def Dev.rbEnd (d : Dev) (n slot : Nat) (e : QEntry) (hdr : Bytes) (groups : List (List (Nat × Nat))) (cells : Nat)
    (met : List (Nat × Nat)) : Dev :=
  let x := e.desc
  let rb := x.param 0x38 6
  let cap := x.param 0x3E 2 * 65536
  let total := (groups.map (·.length)).sum
  let drop := total - cap
  let l := rulebook groups cap
  let st := if drop = 0 then hdrStatus hdr else Nat.lor (hdrStatus hdr) 0x84
  let w := d.firnWrites x.ctx ([(rb, l.1), (rb + 0x400, l.2.flatMap (fun p => natLE 4 p.1 ++ natLE 4 p.2))] ++
    (if drop = 0 then [] else [(x.param 0x28 6 + 4, natLE 2 st)]))
  let sum := rbSummary (total - drop) drop cells (x.param 0x2E 1) (x.param 0x2F 1) st
  match w.2 with
  | some q => w.1.firnEnd n slot x sum [] [(q.status, q.detail)]
  | none => w.1.firnEnd n slot x sum [] ((if drop = 0 then [] else [(0x0405, min drop (2 ^ 32 - 1))]) ++ met)

/-- The output workspace of stride 2: its epoch, its parents, their records and its header (R170). -/
def Dev.rbParents (d : Dev) (c out : Nat) (inHdr : Bytes) (cs : List Cell) : Dev × Parents × Option Xl :=
  let h := d.firnRead c out 64
  match h.2.2.2 with
  | some q => (h.1, { d := h.1 }, some q)
  | none =>
    let ep := h.1.newEpoch c out (fieldN h.2.1 0 2)
    match ep.2.2 with
    | some q => (ep.1, { d := ep.1 }, some q)
    | none =>
      let p := cs.foldl (fun (p : Parents) x => p.add c out ep.2.1 x) { d := ep.1 }
      match p.fault with
      | some q => (p.d, p, some q)
      | none =>
        let f := p.d.freeBytes 64
        let w := f.2.firnWrites c ((p.cells.zipIdx.map (fun k => (out + 0x2200000 + 32 * k.2, k.1.bytes))) ++
          [(out, outHeader f.1 inHdr ep.2.1 p)])
        (w.1, p, w.2)

/-- RULEBOOK_BUILD (R169–R171). -/
def Dev.rbBuild (d : Dev) (n slot : Nat) (e : QEntry) : Dev :=
  let x := e.desc
  let c := x.ctx
  let ws := x.param 0x28 6
  let k := x.param 0x2E 1
  let s := x.param 0x2F 1
  let stop := fun (d : Dev) (hdr : Bytes) (met : List (Nat × Nat)) =>
    d.firnEnd n slot x (rbSummary 0 0 0 k s (hdrStatus hdr)) [] met
  let h := d.firnRead c ws 64
  match h.2.2.2 with
  | some q => stop h.1 [] [(q.status, q.detail)]
  | none =>
    let hdr := h.2.1
    if s = 2 ∧ fieldN hdr 2 1 = 6 then h.1.finishEntry n slot (mkResult {} [] [(0x0210, 6)])
    else if !bit (hdrStatus hdr) 0 then stop h.1 hdr [(0x0403, hdrStatus hdr)]
    else if h.1.firnAborted e then
      h.1.firnAbort n slot c ws 0 x hdr [] (fun h => rbSummary 0 0 0 k s (hdrStatus h))
    else
      let r := h.1.readCells c ws (fieldN hdr 0x20 4)
      match r.2.2.2 with
      | some q => stop r.1 hdr [(q.status, q.detail)]
      | none =>
        let cs := r.2.1
        let offs := List.range (k * k * k)
        if s = 2 then
          let p := r.1.rbParents c (x.param 0x30 6) hdr cs
          match p.2.2 with
          | some q => stop p.1 hdr [(q.status, q.detail)]
          | none =>
            let pr := p.2.1
            p.1.rbEnd n slot e hdr (offs.map (fun o => pairsS2 cs pr (kernelOffset k 0 o))) pr.cells.length
              (if pr.probe = 0 ∧ pr.cap = 0 then [] else [(0x0402, degraded false (pr.cap != 0)
                (pr.probe != 0) false)])
        else r.1.rbEnd n slot e hdr (offs.map (fun o => pairsS1 cs (kernelOffset k ((k - 1) / 2) o))) cs.length []

/-! ### Commands -/

/-- The workspaces a Firn descriptor names, with the context they are translated under (R156). -/
def firnSpaces (x : Desc) : List (Nat × Nat) :=
  match x.cls with
  | some .voxelize => [(x.param 0x31 1, x.param 0x28 6)]
  | some .rulebook => [(x.ctx, x.param 0x28 6)] ++ (if x.param 0x2F 1 = 2 then [(x.ctx, x.param 0x30 6)] else [])
  | _ => []

/-- It is the turn of an entry: none received before it waits in its pipe or names a workspace of it (R156). -/
def Dev.firnTurn (d : Dev) (e : QEntry) : Bool :=
  !(d.blockPend Dom.firn).any (fun o => decide (o.2.issueNo < e.issueNo) &&
    (o.2.desc.cls == e.desc.cls || (firnSpaces o.2.desc).any (fun w => (firnSpaces e.desc).contains w)))

/-- A phase of VOXELIZE, or RULEBOOK_BUILD, of an issued entry whose turn it is. -/
def Dev.runFirn (d : Dev) (n slot : Nat) (want : Cls) (phase : Option Nat) (f : Dev → QEntry → Dev) : Dev :=
  d.withEntry n slot (· == want) (fun d e =>
    if d.domUp Dom.firn && d.gb B.firn F.firn_READY && d.firnTurn e &&
        (match phase with | some p => e.desc.param 0x30 1 == p | none => true) then f d e
    else d)

/-- VOXELIZE_BUILD. -/
def Dev.runVoxBuild (d : Dev) (n slot : Nat) (stop : Option Nat) : Dev :=
  d.runFirn n slot .voxelize (some 0) (fun d e => d.voxBuild n slot e stop)

/-- VOXELIZE_LABEL. -/
def Dev.runVoxLabel (d : Dev) (n slot : Nat) : Dev := d.runFirn n slot .voxelize (some 1)
  (fun d e => d.voxLabel n slot e)

/-- VOXELIZE_BEV. -/
def Dev.runVoxBev (d : Dev) (n slot : Nat) : Dev := d.runFirn n slot .voxelize (some 2) (fun d e => d.voxBev n slot e)

/-- RULEBOOK_BUILD. -/
def Dev.runRulebook (d : Dev) (n slot : Nat) : Dev := d.runFirn n slot .rulebook none (fun d e => d.rbBuild n slot e)

/-- SENSOR_SLOT_WRITE: the configuration word of sensor slot `s` (R151, Table 5.21). -/
def Dev.sensorSlotWrite (d : Dev) (s v : Nat) : Dev :=
  let f := B.firn
  let en := bit v 16
  let off := !en || !d.gb f F.firn_SLOT_EN s || bit v 17
  let d := ((d.p f F.firn_SENSOR_ID (v % 65536) s).pb f F.firn_SLOT_EN en s).pb f F.firn_GUARD_AGE_EN (bit v 18) s
  if off then d.pb f F.firn_ARMED false s else d

/-- FIRN_CNT_CLR (R177). -/
def Dev.firnCntClr (d : Dev) : Dev :=
  d.clearFlds B.firn [F.firn_FRAMES_BUILT, F.firn_FRAMES_DEGRADED, F.firn_FRAMES_GUARD, F.firn_SWEEPS_READ,
    F.firn_GUARD_FMT_CNT, F.firn_GUARD_CRC_CNT, F.firn_GUARD_SENSOR_CNT, F.firn_GUARD_SEQ_CNT, F.firn_GUARD_TS_CNT,
    F.firn_GUARD_AGE_CNT, F.firn_GUARD_SFLT_CNT, F.firn_DROP_INVALID_CNT, F.firn_DROP_KEY_CNT, F.firn_DROP_PROBE_CNT,
    F.firn_DROP_PTCAP_CNT, F.firn_DROP_CELLCAP_CNT, F.firn_PROBE_HIST]

/-- FIRN_READY (R179): the count-grid buffers are clear. -/
def Dev.firnReady (d : Dev) : Dev :=
  if d.domUp Dom.firn && !d.gb B.firn F.firn_READY then
    ({ d with grids := [] }.pb B.firn F.firn_GRID_VALID false).pb B.firn F.firn_READY true
  else d

end Sys2Proof.Machine
end

