-- ==== Sys2Proof/Machine/MoraineOps.lean ====
section
/-!
DEFINITION. What Moraine's commands share: the placement directory (R182, R183), row records and the local index
(R184–R186), messages (R197), combining (R195), the requester's batches (R187–R194).
Choices of the model: log entries 38, 42, 43, 44, 46, 50, 185, 200.
-/

namespace Sys2Proof.Machine

namespace Mrn

/-- Stream of Moraine's fabric accesses (Table 1.4). -/
def sid : Nat := 0x251
/-- The translation cache Moraine uses. -/
def cache : Nat := 9
/-- Stubs of a package (R201). -/
def stubs : Nat := 256
/-- Override entries of a package (R183). -/
def overrides : Nat := 4096

end Mrn

/-! ### State -/

/-- One table's further state. -/
def Dev.morTab (d : Dev) (t : Nat) : MorTab := d.mor.tabs.getD t {}

/-- Open steps of a table are shown in TBL_STEP. -/
def Dev.setMorTab (d : Dev) (t : Nat) (x : MorTab) : Dev :=
  ({ d with mor := { d.mor with tabs := Tab.set {} d.mor.tabs t x } }).p B.moraine F.moraine_OPEN_STEPS x.opened.length t

/-- What an owner holds of a step. -/
def Dev.ownStep (d : Dev) (t n : Nat) : OwnStep := (d.morTab t).steps.getD n {}

/-- What an owner holds of a step replaced. -/
def Dev.setOwnStep (d : Dev) (t n : Nat) (x : OwnStep) : Dev :=
  d.setMorTab t { d.morTab t with steps := (d.morTab t).steps.put n x }

/-- A counter of Table 6.13 raised. -/
def Dev.minc (d : Dev) (fld : Fld) (n : Nat := 1) : Dev := d.inc B.moraine fld 0 n

/-- Moraine works: its domain is up and READY is 1 (R203). -/
def Dev.morUp (d : Dev) : Bool := d.domUp Dom.moraine && d.gb B.moraine F.moraine_READY

/-! ### Tables (R180–R183) -/

/-- ROW_BYTES of a table. -/
def Dev.morRowBytes (d : Dev) (t : Nat) : Nat := 64 * (d.g B.moraine F.moraine_ROW_G t + 1)

/-- The words of PEER_LIST. -/
def peerListFlds : List Fld :=
  [F.moraine_PEER_LIST0, F.moraine_PEER_LIST1, F.moraine_PEER_LIST2, F.moraine_PEER_LIST3, F.moraine_PEER_LIST4,
   F.moraine_PEER_LIST5, F.moraine_PEER_LIST6, F.moraine_PEER_LIST7, F.moraine_PEER_LIST8, F.moraine_PEER_LIST9,
   F.moraine_PEER_LIST10, F.moraine_PEER_LIST11, F.moraine_PEER_LIST12, F.moraine_PEER_LIST13,
   F.moraine_PEER_LIST14, F.moraine_PEER_LIST15]

/-- The package IDs of the owner slots, PEER_COUNT of them. -/
def Dev.morPeers (d : Dev) (t : Nat) : List Nat :=
  (((peerListFlds.flatMap (fun f => natLE 4 (d.g B.moraine f t))).map (·.toNat))).take
    (d.g B.moraine F.moraine_PEER_COUNT_M1 t + 1)

/-- The package is in a list of messages' senders from every peer of a table. -/
def Dev.fromAll (d : Dev) (t : Nat) (l : List Nat) : Bool := (d.morPeers t).all (fun q => l.contains q)

/-- DIR_CRC of a table (R182): TBL_EN as 1, INDEX_LOG2 and RSVD bits as 0. -/
def Dev.dirCrc (d : Dev) (t : Nat) : Nat :=
  let b := B.moraine
  let cfg := 1 + 2 * d.g b F.moraine_KEY_KIND t + 4 * d.g b F.moraine_COMBINE t + 16 * d.g b F.moraine_ELEM_FMT t +
    256 * d.g b F.moraine_ROW_G t + 65536 * d.g b F.moraine_PEER_COUNT_M1 t
  Crypto.crc32c (natLE 4 cfg ++ (d.morPeers t).map byte)

/-- The hash of a key, H of R182. -/
def keyHash (k : Nat) : Nat := k % 2 ^ 32 ^^^ k / 2 ^ 32

/-- The valid override entry of a table and key, with its index. -/
def Dev.ovrFor (d : Dev) (t key : Nat) : Option (Nat × OvrEnt) :=
  d.mor.ovr.find? (fun e => e.2.valid && e.2.table == t && e.2.key == key)

/-- Owner and epoch of a key (R182, R198). -/
def Dev.morOwner (d : Dev) (t key : Nat) : Nat × Nat :=
  match d.ovrFor t key with
  | some e => (e.2.owner, e.2.epoch)
  | none => let ps := d.morPeers t
            (ps.getD (keyHash key % ps.length) 0, 0)

/-- An override entry replaced. -/
def Dev.setOvr (d : Dev) (i : Nat)
  (e : OvrEnt) : Dev := { d with mor := { d.mor with ovr := Tab.set {} d.mor.ovr i e } }

/-- An override installed over the entry of its key, or in a free entry, whichever; false where none is free. -/
def Dev.installOvr (d : Dev) (e : OvrEnt) : Dev × Bool :=
  match d.ovrFor e.table e.key with
  | some x => (d.setOvr x.1 e, true)
  | none =>
    let f := d.fresh
    let used := ((f.2.mor.ovr.filter (fun x => x.2.valid)).map (·.1))
    let free := (List.range Mrn.overrides).filter (fun i => !used.contains i)
    match free[f.1 % free.length]? with
    | some i => (f.2.setOvr i e, true)
    | none => (f.2, false)

/-- The stub this package holds for a key. -/
def Dev.stubFor (d : Dev) (t key : Nat) : Option Calving :=
  d.mor.calving.find? (fun c => c.stub && c.table == t && c.key == key)

/-- A calving of a key waits for its CALVE_ACK. -/
def Dev.calvingOf (d : Dev) (t key : Nat) : Bool :=
  d.mor.calving.any (fun c => !c.stub && c.table == t && c.key == key)

/-- The calving of a key is in progress at this package (R183): from its start to the freeing of the stub at the old
owner, from CALVE to DIR_OVR at the new one. -/
def Dev.calvingNow (d : Dev) (t key : Nat) : Bool :=
  d.mor.calving.any (fun c => c.table == t && c.key == key) || d.mor.incoming.contains (t, key)

/-! ### Row records (R184, R186) -/

/-- The world Moraine acts in on its own account: that of its group of BLK_ATTR (R276, R277). -/
def Dev.morWorld (d : Dev) : Option Bool := some (bit (d.g B.mgmt F.mgmt_BLK_SECURE) 23)

/-- A read of the table store or index, as context 0. -/
def Dev.morRead (d : Dev) (va n : Nat) : Dev × Bytes × Bool :=
  let r := d.vaRead Mrn.cache 0 Mrn.sid va n d.morWorld
  (r.1, padTo n r.2.1, r.2.2.1.any id || r.2.2.2.isSome)

/-- A write of the table store or index, as context 0. -/
def Dev.morWrite (d : Dev) (va : Nat) (data : Bytes) (bad : Bool := false) : Dev :=
  (d.vaWrite Mrn.cache 0 Mrn.sid va data (List.replicate (data.length / 64 + 1) bad) d.morWorld).1

/-- A row record as its owner reads it: header fields, the active row, read poisoned. -/
structure RowRec where
  local_ : Nat
  bucket : Nat
  ver : Nat := 0
  step : Nat := 0
  epoch : Nat := 0
  row : Bytes := []
  bad : Bool := false
  deriving DecidableEq, Repr

/-- The home bucket of a key in the local index (R186). -/
def Dev.morHome (d : Dev) (t key : Nat) : Nat :=
  (keyHash key * 0x9E3779B1 % 2 ^ 32) / 2 ^ (32 - d.g B.moraine F.moraine_INDEX_LOG2 t)

/-- Address of a bucket. -/
def Dev.morBucket (d : Dev) (t i : Nat) : Nat :=
  d.g B.moraine F.moraine_INDEX_VA t % 2 ^ 48 + 16 * (i % 2 ^ d.g B.moraine F.moraine_INDEX_LOG2 t)

/-- Sixteen probes for a key (R186): the row and bucket that hold it, and the first empty bucket met. -/
def Dev.morProbe (d : Dev) (t key : Nat) : Dev × Option (Nat × Nat) × Option Nat :=
  (List.range 16).foldl (fun (a : Dev × Option (Nat × Nat) × Option Nat) i =>
    if a.2.1.isSome then a
    else
      let va := a.1.morBucket t (a.1.morHome t key + i)
      let r := a.1.morRead va 16
      if r.2.2 then (r.1, none, a.2.2)
      else
        let row := fieldN r.2.1 8 4
        if row = 0xFFFFFFFF then (r.1, none, if a.2.2.isSome then a.2.2 else some va)
        else if fieldN r.2.1 0 8 = key then (r.1, some (row, va), a.2.2)
        else (r.1, none, a.2.2)) (d, none, none)

/-- Address of the record of a local row. -/
def Dev.morRecord (d : Dev) (t r : Nat) : Nat :=
  d.g B.moraine F.moraine_STORE_VA t % 2 ^ 48 + r * (64 + 2 * d.morRowBytes t)

/-- The record of a key where this package holds one that is VALID, and the first empty bucket (R184, R186). -/
def Dev.morFind (d : Dev) (t key : Nat) : Dev × Option RowRec × Option Nat :=
  let p := d.morProbe t key
  match p.2.1 with
  | none => (p.1, none, p.2.2)
  | some (r, va) =>
    let a := p.1.morRecord t r
    let h := p.1.morRead a 64
    let ver := fieldN h.2.1 8 4
    let n := h.1.morRowBytes t
    let row := h.1.morRead (a + 64 + (ver % 2) * n) n
    let x : RowRec := { local_ := r, bucket := va, ver := ver, step := fieldN h.2.1 0xC 4, epoch := fieldN h.2.1 0x10 4
                        row := row.2.1, bad := h.2.2 || row.2.2 }
    (row.1, some x, p.2.2)

/-- A whole new row written into the inactive slot, then the header line (R184). -/
def Dev.morStore (d : Dev) (t key : Nat) (x : RowRec) (row : Bytes) (bad : Bool) (step epoch : Nat) : Dev :=
  let a := d.morRecord t x.local_
  let n := d.morRowBytes t
  let act := (x.ver + 1) % 2
  let ver := act + 2 + 16 * ((x.ver / 16 + 1) % 2 ^ 28)
  let d := d.morWrite (a + 64 + act * n) row bad
  d.morWrite a (padTo 64 (natLE 8 key ++ natLE 4 ver ++ natLE 4 step ++ natLE 4 epoch))

/-- A row created for an absent key (R186): false where 16 probes met no empty bucket or the table is full. Which free
local row it takes is the implementation's choice. -/
def Dev.morCreate (d : Dev) (t key : Nat) (bucket : Option Nat) (row : Bytes) (bad : Bool) (step epoch : Nat) :
    Dev × Bool :=
  let used := (d.morTab t).rows
  let cap := d.g B.moraine F.moraine_ROWS_LOCAL t
  match bucket with
  | none => (d, false)
  | some va =>
    if cap ≤ d.g B.moraine F.moraine_ROWS_USED t then (d, false)
    else
      let f := d.fresh
      let r := ((List.range (used.length + 1)).map (fun i => (f.1 + i) % cap)).find? (fun i => !used.contains i)
      let r := r.getD 0
      let d := f.2.setMorTab t { f.2.morTab t with rows := used ++ [r] }
      let d := (d.p B.moraine F.moraine_ROWS_USED (d.g B.moraine F.moraine_ROWS_USED t + 1) t).minc F.moraine_ROWS_CREATED_CNT
      let d := d.morStore t key { local_ := r, bucket := va } row bad step epoch
      (d.morWrite va (natLE 8 key ++ natLE 4 r ++ zeros 4), true)

/-- A key's index entry and record cleared (R199 step 7). -/
def Dev.morErase (d : Dev) (t key : Nat) : Dev :=
  let p := d.morProbe t key
  match p.2.1 with
  | none => p.1
  | some (r, va) =>
    let d := p.1.morWrite va (zeros 8 ++ natLE 4 0xFFFFFFFF ++ zeros 4)
    let d := d.morWrite (d.morRecord t r) (zeros 64)
    let d := d.setMorTab t { d.morTab t with rows := (d.morTab t).rows.filter (· != r) }
    d.p B.moraine F.moraine_ROWS_USED (d.g B.moraine F.moraine_ROWS_USED t - 1) t

/-! ### Combining (R195) -/

/-- A row and contributions combined under SUM or MAX, element by element; `order` is the order the implementation
takes them in. -/
def combineRow (max_ : Bool) (fmt : Fmt) (serial : Nat) (old : Option Bytes) (cs : List Bytes) (n : Nat) : Bytes :=
  packCodes fmt.bits ((List.range (n * 8 / fmt.bits)).map (fun i =>
    let v := fun (b : Bytes) => (decodeIn fmt (codeAt fmt.bits b i) 127).1
    let ts := (old.toList ++ cs).map v
    let r := if max_ then (match ts with
        | [] => Val.zero
        | a :: l => l.foldl Val.max79 a)
      else if fmt.isInt then Val.ofInt (Val.sumInt ts)
      else Val.sum32 (serial + i) ts
    (encodeOut fmt r).1))

/-- The contribution with the greatest (source, position); the step is the same for all (R195 LAST). -/
def lastOf (cs : List MorHeld) : Option MorHeld :=
  cs.find? (fun c => cs.all (fun o => decide (o.src < c.src) || (o.src == c.src && decide (o.item.pos ≤ c.item.pos))))

/-- The contributions of one step to one key applied: row status of each (Table 6.4). -/
def Dev.morApplyKey (d : Dev) (t n key : Nat) (cs : List MorHeld) : Dev × Nat :=
  let b := B.moraine
  let rule := d.g b F.moraine_COMBINE t
  let fmt := (Fmt.ofCode (d.g b F.moraine_ELEM_FMT t)).getD .int8
  let rb := d.morRowBytes t
  let s := d.takeSerials (rb * 8 + 1)
  let sorted := pickOrder s.1 cs.length (List.range cs.length)
  let rows := sorted.filterMap (fun i => (cs[i]?).map (·.item.row))
  let f := s.2.morFind t key
  let last := ((lastOf cs).map (·.item.row)).getD []
  match f.2.1 with
  | some x =>
    let row := if rule = 2 then last else combineRow (rule == 1) fmt s.1 (some x.row) rows rb
    let bad := x.bad && rule != 2
    ((f.1.morStore t key x row bad n x.epoch).minc F.moraine_UPDATE_KEYS_CNT cs.length, if bad then 2 else 0)
  | none =>
    let row := if rule = 2 then last
      else combineRow (rule == 1) fmt s.1 (if rule = 0 then some (zeros rb) else none) rows rb
    let c := f.1.morCreate t key f.2.2 row false n (f.1.morOwner t key).2
    if c.2 then (c.1.minc F.moraine_UPDATE_KEYS_CNT cs.length, 1)
    else (c.1.minc F.moraine_ROW_REFUSED_CNT cs.length, 5)

/-! ### Messages (R197) -/

/-- Answers that carry a row: OK and ABSENT of a look-up. -/
def rowFollows (part : Bool) (status : Nat) : Bool := !part && decide (status % 16 ≤ 1)

/-- The bytes of a message (Table 6.6, R197). DIR_OVR and DIR_ACK carry the new owner as the position of one item. -/
def MorMsg.bytes (m : MorMsg) : Bytes :=
  let flags := b2n m.part + 2 * b2n m.next + 4 * b2n m.freed
  [byte m.kind, byte m.table, byte m.src, byte m.orig] ++ natLE 4 m.step ++ natLE 4 m.items.length ++ natLE 4 m.crc ++
  [byte flags] ++ zeros 3 ++ natLE 4 m.epoch ++ natLE 8 m.key ++
  m.items.flatMap (fun i =>
    if m.kind = 2 then natLE 4 i.pos ++ [byte i.status] ++ zeros 3 ++ (if rowFollows m.part i.status then i.row else [])
    else if m.kind = 6 then i.row
    else natLE 8 i.key ++ natLE 4 i.pos ++ natLE 4 i.epoch ++ (if m.kind = 3 ∨ m.kind = 5 then i.row else []))

/-- The items of a message read from its bytes; `n` is their number, `rb` ROW_BYTES. -/
def morItems (kind : Nat) (part : Bool) (rb : Nat) : Nat → Bytes → List MorItem
  | 0, _ => []
  | n + 1, b =>
    if kind = 2 then
      let st := fieldN b 4 1
      let k := if rowFollows part st then rb else 0
      { pos := fieldN b 0 4, status := st, row := (b.drop 8).take k } :: morItems kind part rb n (b.drop (8 + k))
    else if kind = 6 then { pos := 0, row := b.take rb } :: morItems kind part rb n (b.drop rb)
    else
      let k := if kind = 3 ∨ kind = 5 then rb else 0
      { key := fieldN b 0 8, pos := fieldN b 8 4, epoch := fieldN b 0xC 4, row := (b.drop 16).take k } ::
        morItems kind part rb n (b.drop (16 + k))

/-- A message read from its bytes. -/
def Dev.morParse (d : Dev) (b : Bytes) (bad : Bool) : MorMsg :=
  let fl := fieldN b 0x10 1
  let kind := fieldN b 0 1
  let t := fieldN b 1 1 % 64
  { kind := kind, table := t, src := fieldN b 2 1, orig := fieldN b 3 1, step := fieldN b 4 4, crc := fieldN b 0xC 4
    part := bit fl 0, next := bit fl 1, freed := bit fl 2, epoch := fieldN b 0x14 4, key := fieldN b 0x18 8
    items := morItems kind (bit fl 0) (d.morRowBytes t) (fieldN b 8 4) (b.drop 32), bad := bad }

/-- A message sent to a package: handed over at once where it is this one, otherwise cut into packets of 2,048 bytes
whose ADDR counts the bytes still to come. False where a packet could not be sent. `fwd` names table and new owner of a
message that a stub forwards (R199). -/
def Dev.morSend (d : Dev) (q : Nat) (m : MorMsg) (fwd : Option (Nat × Nat) := none) : Dev × Bool :=
  let m := { m with src := d.pkgId, crc := d.g B.moraine F.moraine_DIR_CRC m.table
                    orig := if m.kind = 4 ∨ m.kind = 5 then m.orig else d.pkgId }
  if q = d.pkgId then ({ d with mor := { d.mor with inbox := d.mor.inbox ++ [m] } }, true)
  else
    let bs := m.bytes
    (chunks 2048 bs).zipIdx.foldl (fun (a : Dev × Bool) c =>
      if !a.2 then a
      else a.1.sendMsg { dst := q, src := d.pkgId, kind := 7, slot := d.g B.link0 F.link0_OUT_SLOT q
                         addr := bs.length - (2048 * c.2 + c.1.length)
                         pmap := if m.bad then 2 ^ ceilDiv c.1.length 64 - 1 else 0, payload := c.1 } 2 fwd) (d, true)

/-- A Moraine packet of a peer handed over (R197). -/
def Dev.morArrive (d : Dev) (k : Pkt) : Dev :=
  if !d.domUp Dom.moraine then d
  else
    let b := d.mor.rx.getD k.src [] ++ k.payload
    let bad := k.pmap != 0 || d.mor.rxBad.contains k.src
    if k.addr = 0 then
      let m := { d.morParse b bad with src := k.src }
      { d with mor := { d.mor with rx := d.mor.rx.del k.src, rxBad := d.mor.rxBad.filter (· != k.src)
                                   inbox := d.mor.inbox ++ [m] } }
    else { d with mor := { d.mor with rx := d.mor.rx.put k.src b
                                      rxBad := if bad then k.src :: d.mor.rxBad else d.mor.rxBad } }

/-- One message of a part sent to every peer, empty (R190). -/
def Dev.morEmpty (d : Dev) (t step : Nat) (upd : Bool) : Dev :=
  (d.morPeers t).foldl (fun d q =>
    (d.morSend q { kind := if upd then 3 else 1, table := t, src := 0, orig := 0, step := step, part := upd }).1) d

/-- Answers sent to a requester, where there are any. -/
def Dev.morRespond (d : Dev) (t step : Nat) (upd : Bool) (q : Nat) (items : List MorItem) : Dev :=
  if items.isEmpty then d
  else (d.morSend q { kind := 2, table := t, src := 0, orig := 0, step := step, part := upd, items := items }).1

/-- Answers grouped by requester and sent. -/
def Dev.morAnswers (d : Dev) (t step : Nat) (upd : Bool) (as : List (Nat × MorItem)) : Dev :=
  (distinct (as.map (·.1))).foldl (fun d q =>
    d.morRespond t step upd q ((as.filter (fun a => a.1 == q)).map (·.2))) d

/-! ### Batches (R187–R194) -/

/-- The batch summary (Table 6.5). -/
def mapSummary (t : Nat) (upd : Bool) (step count : Nat) (answers : List (Option Nat)) (pref time : Nat)
  (sent : Bool) :
    Bytes :=
  let of := fun (k : Nat) => (answers.filter (fun a => match a with
    | some s => s % 16 == k
    | none => false)).length
  let fwd := (answers.filter (fun a => match a with
    | some s => bit s 7
    | none => false)).length
  [byte t, byte (b2n upd), 0,
    0] ++ natLE 4 step ++ natLE 4 count ++ (List.range 8).flatMap (fun k => natLE 4 (of k)) ++
  natLE 4 fwd ++ natLE 4 pref ++ natLE 4 time ++ [byte (b2n sent)] ++ zeros 7

/-- MAP_WARN with its DETAIL where a key ended with row status 2 to 7 (Table 6.7). -/
def mapWarn (answers : List (Option Nat)) : List (Nat × Nat) :=
  let ss := answers.filterMap (fun a => match a with
    | some s => if 2 ≤ s % 16 ∧ s % 16 ≤ 7 then some (s % 16) else none
    | none => none)
  if ss.isEmpty then []
  else [(0x0501, min ss.length 65535 + 65536 * ((List.range 6).foldl (fun a i => a + b2n (ss.contains (i + 2)) * 2 ^ i) 0))]

/-- A part of a step has completed (R194). -/
def Dev.morPartDone (d : Dev) (t step : Nat) (upd : Bool) : Dev :=
  let x := d.morTab t
  let o := x.opened.map (fun (s : OpenStep) =>
    if s.step = step then (if upd then { s with upd := true } else { s with look := true }) else s)
  d.setMorTab t { x with opened := o.filter (fun s => !(s.look && s.upd)) }

/-- The execution of a batch's descriptor ends: its summary is written and what it met recorded. `pref` is
PREFETCH_HITS. Which record reports the arithmetic events of a combine at an owner is not stated: none does (log entry
185). -/
def Dev.morEnd (d : Dev) (n slot t : Nat) (upd : Bool) (step count : Nat) (answers : List (Option Nat)) (sent : Bool)
    (met : List (Nat × Nat)) (pref : Nat := 0) : Dev :=
  match d.entry n slot with
  | none => d
  | some e =>
    let w := d.padWrite n (64 * e.desc.dst.base) (d.who Mrn.sid e.desc.ctx)
      (mapSummary t upd step count answers pref d.t32 sent) []
    w.1.finishEntry n slot (mkResult {} [] (met ++ w.2.toList ++ mapWarn answers))

/-- NOT_SENT written for every key of a batch that ends before its exchange (Table 6.4); the fault met. -/
def Dev.morNotSent (d : Dev) (c va count : Nat) : Dev × List (Nat × Nat) :=
  let w := d.vaWrite Mrn.cache c Mrn.sid va (List.replicate count 7#8) []
  (w.1, w.2.toList.map (fun x => (x.status, x.detail)))

/-- The batch of an entry. -/
def Dev.morBatch (d : Dev) (n slot : Nat) : Option MorBatch :=
  d.mor.batches.find? (fun b => b.core == n && b.slot == slot)

/-- A batch replaced by its image. -/
def Dev.modBatch (d : Dev) (n slot : Nat) (f : MorBatch → MorBatch) : Dev :=
  { d with mor := { d.mor with batches := d.mor.batches.map (fun b => if b.core == n && b.slot == slot then f b else b) } }

/-- PREFETCH_HITS of a batch that ends (Table 6.5): the look-ups served here from prefetched rows, and a free number of
those hinted to other owners, whose answers do not tell. -/
def Dev.morHits (d : Dev) (b : MorBatch) : Nat × Dev :=
  let far := (b.hinted.zipIdx.filter (fun h => h.1 && (match b.answers.getD h.2 none with
    | some s => decide (s % 16 ≤ 2)
    | none => false))).length
  if far = 0 then (b.hits, d)
  else
    let f := d.fresh
    (b.hits + f.1 % (far + 1), f.2)

/-- A batch ends with what it has met and these statuses besides. -/
def Dev.morFinish (d : Dev) (b : MorBatch) (met : List (Nat × Nat)) : Dev :=
  let h := d.morHits b
  let d := { h.2 with mor := { h.2.mor with
    batches := h.2.mor.batches.filter (fun x => !(x.core == b.core && x.slot == b.slot)) } }
  (d.morPartDone b.table b.step b.upd).morEnd b.core b.slot b.table b.upd b.step b.answers.length b.answers b.sent
    (b.met ++ met) h.1

/-- A batch ends once every key has its answer (R192). -/
def Dev.morSettle (d : Dev) (n slot : Nat) : Dev :=
  match d.morBatch n slot with
  | some b => if b.answers.all (·.isSome) then d.morFinish b [] else d
  | none => d

/-- One key of a batch answered: its row and status byte written (Table 6.4, R187). A translation fault ends the
batch (R202). -/
def Dev.morAnswer (d : Dev) (n slot p status : Nat) (row : Bytes) : Dev :=
  match d.morBatch n slot with
  | none => d
  | some b =>
    if (b.answers.getD p (some 0)).isSome then d
    else
      let rb := d.morRowBytes b.table
      let w : Dev × Option Xl :=
        if b.upd || decide (2 < status % 16) then (d, none)
        else
          let data := if status % 16 = 0 then row else zeros rb
          d.vaWrite Mrn.cache b.ctx Mrn.sid (b.rowsVa + p * rb) data
            (List.replicate (rb / 64) (status % 16 == 2))
      let v : Dev × Option Xl := match w.2 with
        | some x => (w.1, some x)
        | none => w.1.vaWrite Mrn.cache b.ctx Mrn.sid (b.statVa + p) [byte status] []
      let d := v.1.modBatch n slot (fun b => { b with answers := b.answers.set p (some status) })
      match v.2, d.morBatch n slot with
      | some x, some b => d.morFinish b [(x.status, x.detail)]
      | _, _ => d

/-- Keys routed to a package that can no longer be reached take UNREACHABLE, and the batch the link-loss status
(R193). -/
def Dev.morLost (d : Dev) (q : Nat) : Dev :=
  d.mor.batches.foldl (fun d b =>
    let ps := (List.range b.answers.length).filter (fun p => (b.answers.getD p (some 0)).isNone && b.owners.getD p 64 == q)
    if ps.isEmpty then d
    else
      let d := d.modBatch b.core b.slot (fun b => { b with met := b.met ++ [(0x0701, q)] })
      (ps.foldl (fun d p => d.morAnswer b.core b.slot p 3 []) d).morSettle b.core b.slot) d

/-- An ABORT ends the batches of a function at the exchange boundary (R202): what was sent stays applied, answers
still to come are dropped. -/
def Dev.morAbort (d : Dev) (fn : Nat) : Dev :=
  (d.mor.batches.filter (fun b => fn == 0x11 || (b.ctx == fn && fn != 0))).foldl (fun d b => d.morFinish b [(0x0206,
    0)]) d

end Sys2Proof.Machine
end

