-- ==== Sys2Proof/Machine/Moraine.lean ====
section
/-!
DEFINITION. Moraine's commands: batches (R187–R194), the owner's side of a step (R191, R193, R195, R197), calving
(R198–R201), overrides, tables and counters (R181–R183, R205).
Choices of the model: log entries 39, 40, 41, 42, 45, 46, 47, 48, 49, 185, 199, 200.
-/

namespace Sys2Proof.Machine

/-! ### Batches -/

/-- A byte or bits of a batch header break Table 6.3: the offset of the first bad field. -/
def batchInvalid (h : Bytes) (upd : Bool) : Option Nat :=
  let va := fun (o : Nat) => fieldN h o 8
  if fieldN h 0 1 ≥ 64 then some 0
  else if fieldN h 1 1 ≠ b2n upd then some 1
  else if fieldN h 2 1 ≥ 16 then some 2
  else if fieldN h 3 1 ≠ 0 then some 3
  else if fieldN h 8 4 > 65536 then some 8
  else if fieldN h 0xC 4 > 65536 ∨ (upd ∧ fieldN h 0xC 4 ≠ 0) then some 0xC
  else if va 0x10 % 8 ≠ 0 ∨ va 0x10 ≥ 2 ^ 48 then some 0x10
  else if va 0x18 % 64 ≠ 0 ∨ va 0x18 ≥ 2 ^ 48 then some 0x18
  else if va 0x20 ≥ 2 ^ 48 then some 0x20
  else if (fieldN h 0xC 4 ≠ 0 ∧ va 0x28 % 8 ≠ 0) ∨ va 0x28 ≥ 2 ^ 48 then some 0x28
  else if fieldN h 0x30 16 ≠ 0 then some 0x30
  else none

/-- Place of a part in the sequence of a table: two parts a step (R189). -/
def partNo (step : Nat) (upd : Bool) : Nat := 2 * step + b2n upd

/-- The next part a table accepts. -/
def Dev.nextPart (d : Dev) (t : Nat) : Nat :=
  partNo (d.g B.moraine F.moraine_NEXT_STEP t) (d.gb B.moraine F.moraine_NEXT_PART t)

/-- A part is within the sequence: not behind it and at most one step ahead (R189). -/
def Dev.inSequence (d : Dev) (t step : Nat) (upd : Bool) : Bool :=
  decide (d.nextPart t ≤ partNo step upd) && decide (step ≤ d.g B.moraine F.moraine_NEXT_STEP t + 1)

/-- A step is open already, or a further one may open (R194). -/
def Dev.mayOpen (d : Dev) (t step : Nat) : Bool :=
  (d.morTab t).opened.any (fun s => s.step == step) || decide ((d.morTab t).opened.length < 2)

/-- A part accepted (R189): the parts skipped are closed with empty messages, the step opens, the sequence advances. -/
def Dev.morAccept (d : Dev) (t step : Nat) (upd : Bool) : Dev :=
  let p := partNo step upd
  let skipped : List Nat := (List.range (p - d.nextPart t)).map (fun i => d.nextPart t + i)
  let d := skipped.foldl (fun d k => (d.morEmpty t (k / 2) (k % 2 == 1)).morPartDone t (k / 2) (k % 2 == 1)) d
  let x := d.morTab t
  let d := if x.opened.any (fun s => s.step == step) then d
    else d.setMorTab t { x with opened := x.opened ++ [{ step := step, look := skipped.contains (2 * step) }] }
  (d.p B.moraine F.moraine_NEXT_STEP ((p + 1) / 2) t).p B.moraine F.moraine_NEXT_PART ((p + 1) % 2) t

/-- A batch with a header ends before its exchange: its keys take NOT_SENT. -/
def Dev.morUnsent (d : Dev) (n slot : Nat) (upd : Bool) (h : Bytes) (met : List (Nat × Nat)) : Dev :=
  let count := fieldN h 8 4
  let w := d.morNotSent (fieldN h 2 1) (fieldN h 0x20 6) count
  w.1.morEnd n slot (fieldN h 0 1 % 64) upd (fieldN h 4 4) count (List.replicate count (some 7)) false (met ++ w.2)

/-- A batch whose place in the sequence was accepted fails before its messages are built: empty messages keep the step
closable (R190). -/
def Dev.morFail (d : Dev) (n slot t : Nat) (upd : Bool) (h : Bytes) (met : List (Nat × Nat)) : Dev :=
  ((d.morEmpty t (fieldN h 4 4) upd).morPartDone t (fieldN h 4 4) upd).morUnsent n slot upd h met

/-- The keys of an array under a context: the keys, some granule read poisoned, the fault met. -/
def Dev.morKeys (d : Dev) (c va count : Nat) : Dev × List Nat × Bool × Option Xl :=
  if count = 0 then (d, [], false, none)
  else
    let r := d.vaRead Mrn.cache c Mrn.sid va (8 * count)
    (r.1, (List.range count).map (fun i => fieldN r.2.1 (8 * i) 8), r.2.2.1.any id, r.2.2.2)

/-- A key lies in the range of its kind (R180). -/
def keyOk (cell : Bool) (k : Nat) : Bool := if cell then decide (k < 2 ^ 63) else decide (k < 2 ^ 32)

/-- The hints for the next step sent with a look-up (R196). -/
def Dev.morHints (d : Dev) (t step : Nat) (keys : List Nat) : Dev :=
  if keys.isEmpty then d
  else
    let d := d.setMorTab t { d.morTab t with hinted := (step + 1, keys) :: (d.morTab t).hinted }
    let cell := d.gb B.moraine F.moraine_KEY_KIND t
    (d.morPeers t).foldl (fun d q =>
      let ks := (keys.zipIdx.filter (fun k => keyOk cell k.1 && (d.morOwner t k.1).1 == q))
      if ks.isEmpty then d
      else (d.morSend q { kind := 1, table := t, src := 0, orig := 0, step := step, next := true
                          items := ks.map (fun k => { pos := k.2, key := k.1, epoch := (d.morOwner t k.1).2 }) }).1) d

/-- The messages of a batch built and sent to every owner, and the batch recorded as waiting for its answers (R187,
R190). `rows` are the contributions of an update, each with whether it was read poisoned. -/
def Dev.morExchange (d : Dev) (n slot t : Nat) (upd : Bool) (h : Bytes) (keys : List Nat)
  (rows : List (Bytes × Bool)) :
    Dev :=
  let step := fieldN h 4 4
  let cell := d.gb B.moraine F.moraine_KEY_KIND t
  let pre := keys.zipIdx.map (fun k =>
    if !keyOk cell k.1 then some 6 else if (rows.getD k.2 ([], false)).2 then some 2 else none)
  let owners := keys.zipIdx.map (fun k => if (pre.getD k.2 none).isSome then 64 else (d.morOwner t k.1).1)
  let x := d.morTab t
  let hinted := (x.hinted.filter (fun s => !upd && s.1 == step)).flatMap (·.2)
  let b : MorBatch := { core := n, slot := slot, table := t, step := step, upd := upd, ctx := fieldN h 2 1
                        rowsVa := fieldN h 0x18 6, statVa := fieldN h 0x20 6, owners := owners
                        answers := List.replicate keys.length none, sent := true, sentAt := d.varve
                        hinted := keys.zipIdx.map (fun k => hinted.contains k.1 && owners.getD k.2 64 != d.pkgId) }
  let d := d.setMorTab t { x with hinted := x.hinted.filter (fun s => upd || decide (step < s.1)) }
  let d := { d with mor := { d.mor with batches := d.mor.batches ++ [b] } }
  let send := fun (a : Dev × List Nat) (q : Nat) =>
    let items := (keys.zipIdx.filter (fun k => owners.getD k.2 64 == q)).map (fun k =>
      ({ pos := k.2, key := k.1, epoch := (a.1.morOwner t k.1).2, row := (rows.getD k.2 ([], false)).1 } : MorItem))
    let r := a.1.morSend q { kind := if upd then 3 else 1, table := t, src := 0, orig := 0, step := step, part := upd
                             items := items }
    (r.1, if r.2 then a.2 else a.2 ++ [q])
  let s := (d.morPeers t).foldl send (d, [])
  let d := pre.zipIdx.foldl (fun d p => match p.1 with
    | some st => d.morAnswer n slot p.2 st []
    | none => d) s.1
  let d := s.2.foldl (fun d q => d.morLost q) d
  d.morSettle n slot

/-- The arrays of an accepted batch read and its messages sent; a fault or a poisoned key array fails it (R190, R202). -/
def Dev.morRun (d : Dev) (n slot t : Nat) (upd : Bool) (h : Bytes) : Dev :=
  let c := fieldN h 2 1
  let step := fieldN h 4 4
  let count := fieldN h 8 4
  let fail := fun (d : Dev) (met : List (Nat × Nat)) => d.morFail n slot t upd h met
  let k := d.morKeys c (fieldN h 0x10 6) count
  match k.2.2.2 with
  | some x => fail k.1 [(x.status, x.detail)]
  | none =>
    if k.2.2.1 then fail k.1 []
    else if upd then
      let rb := k.1.morRowBytes t
      if count = 0 then k.1.morExchange n slot t upd h [] []
      else
        let r := k.1.vaRead Mrn.cache c Mrn.sid (fieldN h 0x18 6) (count * rb)
        match r.2.2.2 with
        | some x => fail r.1 [(x.status, x.detail)]
        | none =>
          let rows := (chunks rb r.2.1).zipIdx.map (fun w =>
            (w.1, ((r.2.2.1.drop (w.2 * (rb / 64))).take (rb / 64)).any id))
          r.1.morExchange n slot t upd h k.2.1 rows
    else
      let nx := k.1.morKeys c (fieldN h 0x28 6) (fieldN h 0xC 4)
      match nx.2.2.2 with
      | some x => fail nx.1 [(x.status, x.detail)]
      | none => (nx.1.morHints t step (if nx.2.2.1 then [] else nx.2.1)).morExchange n slot t upd h k.2.1 []

/-- MAP_LOOKUP or MAP_UPDATE of an entry (R187–R191): its header checked, its place in the sequence accepted, its
messages exchanged. Where it would open a third step it waits (R194), until an abort ends it (R202). -/
def Dev.morBegin (d : Dev) (n slot : Nat) (upd : Bool) (e : QEntry) : Dev :=
  let r := d.vaRead Mrn.cache e.desc.ctx Mrn.sid (e.desc.param 0x28 6) 64
  let h := padTo 64 r.2.1
  let step := fieldN h 4 4
  let count := fieldN h 8 4
  let t := fieldN h 0 1 % 64
  match r.2.2.2 with
  | some x => r.1.morEnd n slot t upd 0 0 [] false [(x.status, x.detail)]
  | none =>
    let d := r.1
    let on := d.gb B.moraine F.moraine_TBL_EN t
    let inv := if r.2.2.1.any id then some 0 else batchInvalid h upd
    let order := on && !d.inSequence t step upd
    let met := (if order then [(0x0502, d.g B.moraine F.moraine_NEXT_STEP t)] else []) ++
      (if on then [] else [(0x0503, t)])
    match inv with
    | some o => d.morEnd n slot t upd step count (List.replicate (min count 65536) (some 7)) false (met ++ [(0x0504, o)])
    | none =>
      let c := fieldN h 2 1
      let aborted := d.entryAborted n e || d.abortFunc == some c && c != 0
      if !on || order then d.morUnsent n slot upd h met
      else if !d.mayOpen t step then (if aborted then d.morUnsent n slot upd h [(0x0206, 0)] else d)
      else
        let d := d.morAccept t step upd
        if aborted then d.morFail n slot t upd h [(0x0206, 0)]
        else if !bit (d.g B.moraine F.moraine_CTX_MASK t) c then d.morFail n slot t upd h [(0x0506, c)]
        else d.morRun n slot t upd h

/-- MAP_LOOKUP (`upd` false) or MAP_UPDATE of the entry in slot `slot` of core `n`'s queue. -/
def Dev.runMap (d : Dev) (n slot : Nat) (upd : Bool) : Dev :=
  d.withEntry n slot (· == (if upd then .mapUpdate else .mapLookup)) (fun d e =>
    if d.morUp && (d.morBatch n slot).isNone then d.morBegin n slot upd e else d)

/-- STEP_TIMEOUT_REQUESTER: twice STEP_TIMEOUT has passed since the batch of an entry was sent (R193). -/
def Dev.morTimeoutReq (d : Dev) (n slot : Nat) : Dev :=
  match d.morBatch n slot with
  | none => d
  | some b =>
    if b.sentAt + 2000 * d.g B.moraine F.moraine_STEP_TIMEOUT_US ≤ d.varve then
      ((List.range b.answers.length).foldl (fun d p => d.morAnswer n slot p 3 []) d).morSettle n slot
    else d

/-! ### Messages received (R182, R192, R197) -/

/-- The oldest message of a kind that waits, taken. -/
def Dev.morTake (d : Dev) (kind : Nat) : Option (MorMsg × Dev) :=
  match d.mor.inbox.find? (fun m => m.kind == kind) with
  | none => none
  | some m => some (m, { d with mor := { d.mor with inbox := d.mor.inbox.erase m } })

/-- A message dropped for its DIR_CRC (R182): counted, raised, and shown by the batch of its step and part, whose exchange
met it (R204). -/
def Dev.dirMismatch (d : Dev) (m : MorMsg) : Dev :=
  let d := (d.minc F.moraine_DIR_MISMATCH_CNT).event 0x08 0 0x0505 (dtlWord m.src)
  { d with mor := { d.mor with batches := d.mor.batches.map (fun b =>
      if m.kind ≤ 5 ∧ b.table = m.table ∧ b.step = m.step ∧ b.upd = m.part then { b with met := b.met ++ [(0x0505, m.src)] }
      else b) } }

/-- The oldest message of a kind handled, once its DIR_CRC is found equal. -/
def Dev.morHandle (d : Dev) (kind : Nat) (f : Dev → MorMsg → Dev) : Dev :=
  if !d.morUp then d
  else match d.morTake kind with
    | none => d
    | some (m, d) =>
      let d := { d with mor := { d.mor with crcs := d.mor.crcs.put (64 * m.table + m.src) m.crc } }
      if d.gb B.moraine F.moraine_TBL_EN m.table && d.g B.moraine F.moraine_DIR_CRC m.table == m.crc then f d m
      else d.dirMismatch m

/-- A closed part answers STALE for every key (R193). -/
def Dev.morStale (d : Dev) (m : MorMsg) (q : Nat) (fwd : Bool) : Dev :=
  (d.minc F.moraine_STALE_CNT m.items.length).morRespond m.table m.step m.part q
    (m.items.map (fun i => { pos := i.pos, status := 4 + 128 * b2n fwd }))

/-- A prefetch hint for step `n` noted, and its row fetched early while the buffer of 8 MiB holds it (R196). -/
def Dev.morPrefetch (d : Dev) (t n : Nat) (items : List MorItem) : Dev :=
  if !d.gb B.moraine F.moraine_PREFETCH_EN then d
  else items.foldl (fun d i =>
    let held := ((d.mor.prefetch.filter (fun p => p.ver.isSome)).map (fun p => d.morRowBytes p.table)).sum
    let f := d.morFind t i.key
    let d := if held + d.morRowBytes t ≤ 0x800000 then f.1 else d
    let ver := if held + d.morRowBytes t ≤ 0x800000 then some ((f.2.1.map (·.ver)).getD 0) else none
    { d with mor := { d.mor with prefetch := d.mor.prefetch ++ [⟨t, i.key, n, ver⟩] } }) d

/-- REQ (R191, R196, R197): look-ups held for their step; the update part of a closed step answers STALE. -/
def Dev.morReq (d : Dev) : Dev :=
  d.morHandle 1 (fun d m =>
    if m.next then d.morPrefetch m.table (m.step + 1) m.items
    else if m.step < (d.morTab m.table).applied then d.morStale m m.src false
    else
      let s := d.ownStep m.table m.step
      d.setOwnStep m.table m.step { s with
        reqFrom := s.reqFrom ++ [m.src], reqs := s.reqs ++ m.items.map (fun i => ⟨m.src, false, i⟩) })

/-- Forwarded messages of a stub (R199 steps 5 and 6): each STUB_FREED stands for one stub of its sender, whose key it
does not name; the waiting ends once every stub of the sender is gone (log entry 200). -/
def Dev.morFwd (d : Dev) (m : MorMsg) : Dev :=
  if m.freed then
    let x := d.morTab m.table
    let gone := x.fwdGone ++ [m.src]
    if (x.fwdFrom.filter (fun a => a.1 == m.src)).length ≤ (gone.filter (· == m.src)).length then
      d.setMorTab m.table { x with fwdFrom := x.fwdFrom.filter (fun a => a.1 != m.src)
                                   fwdGone := gone.filter (· != m.src) }
    else d.setMorTab m.table { x with fwdGone := gone }
  else d

/-! ### The owner's side of a step -/

/-- What becomes of an item at the package it reached (R199). -/
inductive Here where
  | forward (q : Nat)
  | serve (r : Option RowRec) (bucket : Option Nat)
  | misroute
  deriving DecidableEq, Repr

/-- Whether an item is forwarded, served here, or stale: this package serves the keys routed to it and the rows calved
to it (R182, R199). -/
def Dev.morHere (d : Dev) (t : Nat) (h : MorHeld) : Dev × Here :=
  match d.stubFor t h.item.key with
  | some c => (d, if h.fwd then .misroute else .forward c.owner)
  | none =>
    let f := d.morFind t h.item.key
    let calved := match f.2.1 with
      | some r => r.epoch != 0
      | none => false
    if (f.1.morOwner t h.item.key).1 == f.1.pkgId || calved then (f.1, .serve f.2.1 f.2.2) else (f.1, .misroute)

/-- A look-up counted in the hot list by the space-saving method (R201). -/
def hotAdd (l : List (Nat × Nat × Nat)) (t key : Nat) : List (Nat × Nat × Nat) :=
  match findAt (fun (x : Nat × Nat × Nat) => x.1 == t && x.2.1 == key) l with
  | some (i, _) => modAt l i (fun x => (x.1, x.2.1, min (x.2.2 + 1) (2 ^ 32 - 1)))
  | none =>
    if l.length < 64 then l ++ [(t, key, 1)]
    else
      let least := l.foldl (fun a x => min a x.2.2) (2 ^ 32 - 1)
      match findAt (fun (x : Nat × Nat × Nat) => x.2.2 == least) l with
      | some (i, _) => modAt l i (fun _ => (t, key, min (least + 1) (2 ^ 32 - 1)))
      | none => l

/-- One look-up served: its answer, or the package it is forwarded to. -/
def Dev.morServeOne (d : Dev) (t n : Nat) (h : MorHeld) : Dev × MorItem × Option Nat :=
  let w := 128 * b2n h.fwd
  let r := d.morHere t h
  match r.2 with
  | .forward q => (r.1, { pos := h.item.pos, status := 0x87 }, some q)
  | .misroute =>
    ((r.1.minc F.moraine_MISROUTE_CNT).minc F.moraine_STALE_CNT, { pos := h.item.pos, status := 4 + w }, none)
  | .serve x _ =>
    let d := (r.1.minc F.moraine_LOOKUP_KEYS_CNT)
    let d := if h.fwd then d.minc F.moraine_FWD_RECV_CNT else d
    let ver := (x.map (·.ver)).getD 0
    let d := match d.mor.prefetch.find? (fun p => p.table == t && p.key == h.item.key && p.step == n) with
      | none => d
      | some p =>
        if p.ver = some ver then
          { d.minc F.moraine_PREFETCH_HIT_CNT with mor := { d.mor with batches := d.mor.batches.map (fun (b : MorBatch) =>
              if h.src = d.pkgId ∧ b.table = t ∧ b.step = n ∧ !b.upd then { b with hits := b.hits + 1 } else b) } }
        else d.minc F.moraine_PREFETCH_MISS_CNT
    let d := { d with mor := { d.mor with hot := hotAdd d.mor.hot t h.item.key } }
    match x with
    | some y => (d, { pos := h.item.pos, status := (if y.bad then 2 else 0) + w, row := if y.bad then [] else y.row }, none)
    | none => (d, { pos := h.item.pos, status := 1 + w, row := zeros (d.morRowBytes t) }, none)

/-- New owners that a table's forwarding messages go to: of its stubs, and those still to be told of a freeing (R199
step 6). -/
def Dev.morDests (d : Dev) (t : Nat) : List Nat :=
  distinct ((d.mor.calving.filter (fun c => c.stub && c.table == t)).map (·.owner) ++ (d.morTab t).freedTo)

/-- The forwarding messages of one part to one new owner: one for each requester, possibly empty, the last with
STUB_FREED where a stub is gone (R199 steps 5 and 6). -/
def Dev.morForwardOne (d : Dev) (t n : Nat) (upd : Bool) (q : Nat) (items : List MorHeld) : Dev :=
  let peers := d.morPeers t
  let freed := (d.morTab t).freedTo.contains q
  let d := peers.zipIdx.foldl (fun d o =>
    (d.morSend q { kind := if upd then 5 else 4, table := t, src := 0, orig := o.1, step := n, part := upd
                   freed := freed && o.2 + 1 == peers.length
                   items := (items.filter (fun i => i.src == o.1)).map (·.item) } (some (t, q))).1) d
  let x := d.morTab t
  let d := (d.setMorTab t { x with freedTo := x.freedTo.erase q }).minc F.moraine_FWD_SENT_CNT items.length
  if n < x.applied then d
  else
    let s := d.ownStep t n
    d.setOwnStep t n (if upd then { s with fwdUpdTo := q :: s.fwdUpdTo } else { s with fwdReqTo := q :: s.fwdReqTo })

/-- The forwarding messages of a part to every new owner that has not had them. -/
def Dev.morForward (d : Dev) (t n : Nat) (upd : Bool) (items : List (Nat × MorHeld)) : Dev :=
  let s := d.ownStep t n
  ((d.morDests t).filter (fun q => !(if upd then s.fwdUpdTo else s.fwdReqTo).contains q)).foldl (fun d q =>
    d.morForwardOne t n upd q ((items.filter (fun i => i.1 == q)).map (·.2))) d

/-- The FWD_REQ messages of a step sent, once. -/
def Dev.morForwardReqs (d : Dev) (t n : Nat) : Dev :=
  let s := d.ownStep t n
  if s.fwdSent then d
  else (d.setOwnStep t n { s with fwdSent := true, fwdReqs := [] }).morForward t n false s.fwdReqs

/-- The FWD_UPD messages of a step sent, once, when every UPD is held or the part is closed and no key of it awaits the
answer to its calving: the requesters are told that the new owner answers (R199 steps 5 and 6). -/
def Dev.morForwardUpds (d : Dev) (t n : Nat) : Dev :=
  let s := d.ownStep t n
  if s.fwdUpdSent || !(s.closed || d.fromAll t s.updFrom) || s.upds.any (fun h => d.calvingOf t h.item.key) then d
  else
    let sent := s.upds.filterMap (fun h => if h.fwd then none else (d.stubFor t h.item.key).map (fun c => (c.owner, h)))
    let rest := s.upds.filter (fun h => h.fwd || (d.stubFor t h.item.key).isNone)
    ((d.setOwnStep t n { s with fwdUpdSent := true, upds := rest }).morAnswers t n true
      (sent.map (fun x => (x.2.src, { pos := x.2.item.pos, status := 0x87 })))).morForward t n true sent

/-- Stubs freed once every DIR_ACK is held, nothing routed to them waits here, and every tag of a forwarded message has
retired (R199 step 7). -/
def Dev.stubSettle (d : Dev) (t : Nat) : Dev :=
  (d.mor.calving.filter (fun c => c.stub && c.table == t)).foldl (fun d c =>
    let waits := (d.morTab t).steps.any (fun s =>
      (s.2.reqs ++ s.2.upds ++ s.2.fwdReqs.map (·.2)).any (fun h => h.item.key == c.key))
    let tags := d.tags.any (fun g => g.fwd == some (t, c.owner)) || d.unsent.any (fun m => m.fwd == some (t, c.owner))
    if waits || tags || !((d.morPeers t).all (fun q => q == d.pkgId || c.acks.contains q)) then d
    else
      let d := d.morErase t c.key
      let d := { d with mor := { d.mor with calving := d.mor.calving.erase c } }
      let d := match d.ovrFor t c.key with
        | some o => d.setOvr o.1 { o.2 with stub := false }
        | none => d
      let x := d.morTab t
      (d.setMorTab t { x with freedTo := x.freedTo ++ [c.owner] }).minc F.moraine_CALVE_DONE_CNT) d

/-- Every table's stubs that may go now are freed: a tag of a forwarded message has retired. -/
def Dev.stubsSettle (d : Dev) : Dev :=
  if d.morUp then (distinct (d.mor.calving.map (·.table))).foldl (fun d t => d.stubSettle t) d else d

/-! ### Requests and forwarded requests received (R191, R199) -/

/-- FWD_REQ: look-ups a stub forwards (R199). -/
def Dev.morFwdReq (d : Dev) : Dev :=
  d.morHandle 4 (fun d m =>
    let d := d.morFwd m
    if m.step < (d.morTab m.table).applied then d.morStale m m.orig true
    else
      let s := d.ownStep m.table m.step
      d.setOwnStep m.table m.step { s with
        fwdReqFrom := s.fwdReqFrom ++ [m.src * 64 + m.orig], reqs := s.reqs ++ m.items.map (fun i => ⟨m.orig, true,
          i⟩) })

/-- UPD (R191, R193, R195): contributions held for their step. -/
def Dev.morUpd (d : Dev) : Dev :=
  d.morHandle 3 (fun d m =>
    let s := d.ownStep m.table m.step
    if m.step < (d.morTab m.table).applied ∨ s.closed then d.morStale m m.src false
    else (d.setOwnStep m.table m.step { s with
      updFrom := s.updFrom ++ [m.src], upds := s.upds ++ m.items.map (fun i => ⟨m.src, false, i⟩)
      first := some (s.first.getD d.varve) }).morForwardUpds m.table m.step)

/-- FWD_UPD: contributions a stub forwards (R199, R200). -/
def Dev.morFwdUpd (d : Dev) : Dev :=
  d.morHandle 5 (fun d m =>
    let d := d.morFwd m
    let s := d.ownStep m.table m.step
    if m.step < (d.morTab m.table).applied ∨ s.closed then d.morStale m m.orig true
    else d.setOwnStep m.table m.step { s with
      fwdUpdFrom := s.fwdUpdFrom ++ [m.src * 64 + m.orig], upds := s.upds ++ m.items.map (fun i => ⟨m.orig, true, i⟩)
      first := some (s.first.getD d.varve) })

/-- RESP (R192): answers matched by table, step, part and position. STATUS with FWD and low bits 7 is a stub's notice
that the new owner will answer. -/
def Dev.morResp (d : Dev) : Dev :=
  d.morHandle 2 (fun d m =>
    match d.mor.batches.find? (fun b => b.table == m.table && b.step == m.step && b.upd == m.part) with
    | none => d.minc F.moraine_LATE_MSG_CNT
    | some b =>
      let d := m.items.foldl (fun d i =>
        if i.status % 16 = 7 then d else d.morAnswer b.core b.slot i.pos i.status i.row) d
      d.morSettle b.core b.slot)

/-- LOOKUP_SERVE of step `n` of table `t` (R191): once every update part up to n − 2 has been applied, the look-ups held
are served; those of a key whose calving waits for its answer stay held (R199). -/
def Dev.lookupServe (d : Dev) (t n : Nat) : Dev :=
  if !d.morUp || !d.gb B.moraine F.moraine_TBL_EN t || decide ((d.morTab t).applied + 1 < n) then d
  else
    let s := d.ownStep t n
    let now := s.reqs.filter (fun h => !d.calvingOf t h.item.key)
    let r := now.foldl (fun (a : Dev × List (Nat × MorItem) × List (Nat × MorHeld)) h =>
      let x := a.1.morServeOne t n h
      (x.1, a.2.1 ++ [(h.src, x.2.1)], match x.2.2 with
        | some q => a.2.2 ++ [(q, h)]
        | none => a.2.2)) (d, [], [])
    if now.isEmpty ∧ s.fwdSent then d
    else
      let rest := s.reqs.filter (fun h => d.calvingOf t h.item.key)
      let e := (r.1.morAnswers t n false r.2.1).setOwnStep t n { r.1.ownStep t n with
        reqs := rest, served := s.served ++ now.map (fun h => h.item.key), fwdReqs := s.fwdReqs ++ r.2.2 }
      let e := if rest.isEmpty && e.fromAll t s.reqFrom then e.morForwardReqs t n else e
      e.stubSettle t

/-- Every message that the update part of a step awaits is held, or the timeout has closed the part (R191, R199). -/
def Dev.updComplete (d : Dev) (t n : Nat) (s : OwnStep) : Bool :=
  s.closed || (d.fromAll t s.reqFrom && d.fromAll t s.updFrom &&
    (d.morTab t).fwdFrom.all (fun a => decide (n ≤ a.2.1) || (d.morPeers t).all (fun q =>
      s.fwdReqFrom.contains (a.1 * 64 + q) && s.fwdUpdFrom.contains (a.1 * 64 + q))))

/-- UPDATE_APPLY of step `n` of table `t` (R191, R195): the update part of step n − 1 is applied, every look-up of step
n served, every message held or the part closed. -/
def Dev.updateApply (d : Dev) (t n : Nat) : Dev :=
  let d := if d.morUp && d.gb B.moraine F.moraine_TBL_EN t && (d.morTab t).applied == n then d.morForwardUpds t n else d
  let s := d.ownStep t n
  if !d.morUp || !d.gb B.moraine F.moraine_TBL_EN t || (d.morTab t).applied != n || !s.reqs.isEmpty ||
      !s.fwdUpdSent || !d.updComplete t n s then d
  else
    let cls := s.upds.foldl (fun (a : Dev × List (MorHeld × Bool)) h =>
      let r := a.1.morHere t h
      (r.1, a.2 ++ [(h, match r.2 with
        | .serve _ _ => true
        | _ => false)])) (d, [])
    let mis := (cls.2.filter (fun x => !x.2)).map (·.1)
    let mine := (cls.2.filter (fun x => x.2)).map (·.1)
    let sr := (cls.1).takeSerials 1
    let keys := distinct (mine.map (fun h => h.item.key))
    let order := (pickOrder sr.1 keys.length (List.range keys.length)).filterMap (fun i => keys[i]?)
    let r := order.foldl (fun (a : Dev × List (Nat × MorItem)) k =>
      let cs := mine.filter (fun h => h.item.key == k)
      let x := a.1.morApplyKey t n k cs
      (x.1, a.2 ++ cs.map (fun h => (h.src, { pos := h.item.pos, status := x.2 + 128 * b2n h.fwd })))) (sr.2, [])
    let ans := r.2 ++ mis.map (fun h => (h.src, { pos := h.item.pos, status := 4 + 128 * b2n h.fwd }))
    let e := ((r.1.minc F.moraine_MISROUTE_CNT mis.length).minc F.moraine_STALE_CNT mis.length).minc
      F.moraine_FWD_RECV_CNT (mine.filter (·.fwd)).length
    let e := (e.morAnswers t n true ans).morForwardReqs t n
    let x := e.morTab t
    let e := e.setMorTab t { x with applied := n + 1, steps := x.steps.del n }
    ({ e with mor := { e.mor with prefetch := e.mor.prefetch.filter (fun p => p.table != t || decide (n < p.step)) } }
      ).stubSettle t

/-- STEP_TIMEOUT_OWNER: STEP_TIMEOUT has passed since the first message of a step's update part (R193). -/
def Dev.stepTimeout (d : Dev) (t n : Nat) : Dev :=
  let s := d.ownStep t n
  match s.first with
  | none => d
  | some τ =>
    if d.morUp && !s.closed && !d.updComplete t n s &&
        decide (τ + 1000 * d.g B.moraine F.moraine_STEP_TIMEOUT_US ≤ d.varve) then
      ((d.setOwnStep t n { s with closed := true }).minc F.moraine_STEP_TIMEOUT_CNT).morForwardUpds t n
    else d

/-! ### Calving (R198–R201) -/

/-- CALVE_START: key `key` of table `t` is calved to package `q` (R198–R201). Nothing happens before the update part of a
step has closed, or after a look-up of the key for a later step was served or the FWD_UPD messages of one were sent. -/
def Dev.calveStart (d : Dev) (t key q : Nat) : Dev :=
  let x := d.morTab t
  if !d.morUp || !d.gb B.moraine F.moraine_TBL_EN t || x.applied == 0 ||
      x.steps.any (fun s => decide (x.applied ≤ s.1) && (s.2.served.contains key || s.2.fwdUpdSent)) then d
  else
    let fail := fun (d : Dev) => d.minc F.moraine_CALVE_FAIL_CNT
    let f := d.morFind t key
    match f.2.1 with
    | none => fail f.1
    | some r =>
      let d := f.1
      let room := (d.ovrFor t key).isSome || decide ((d.mor.ovr.filter (fun o => o.2.valid)).length < Mrn.overrides)
      let busy := (d.stubFor t key).isSome || d.calvingOf t key || x.fwdFrom.any (fun a => a.2.2 == key)
      let mine := (d.morOwner t key).1 == d.pkgId || r.epoch != 0
      if busy || !room || !mine || q == d.pkgId || !(d.morPeers t).contains q || Mrn.stubs ≤ d.mor.calving.length then fail d
      else
        let e := (d.morOwner t key).2 + 1
        let s := d.morSend q { kind := 6, table := t, src := 0, orig := 0, step := x.applied - 1, epoch := e, key := key
                               items := [{ pos := 0, row := r.row }], bad := r.bad }
        if s.2 then
          { s.1 with mor := { s.1.mor with calving := s.1.mor.calving ++
              [{ table := t, key := key, owner := q, epoch := e, step := x.applied - 1 }] } }
        else fail s.1

/-- CALVE: the new owner creates the row and answers (R199 step 2). -/
def Dev.calve (d : Dev) : Dev :=
  d.morHandle 6 (fun d m =>
    let t := m.table
    let f := d.morFind t m.key
    let row := padTo (f.1.morRowBytes t) ((m.items.headD { pos := 0 }).row)
    let c : Dev × Bool := match f.2.1 with
      | some r => (f.1.morStore t m.key r row m.bad m.step m.epoch, true)
      | none => f.1.morCreate t m.key f.2.2 row m.bad m.step m.epoch
    let d := if c.2 then
        let x := c.1.morTab t
        let d := c.1.setMorTab t { x with fwdFrom := x.fwdFrom ++ [(m.src, m.step, m.key)] }
        { d with mor := { d.mor with incoming := d.mor.incoming ++ [(t, m.key)] } }
      else c.1
    (d.morSend m.src { kind := 7, table := t, src := 0, orig := 0, step := m.step, key := m.key
                       epoch := if c.2 then m.epoch else 0 }).1)

/-- A new owner awaits forwarding messages of every step after the calving (R199 step 6): those of parts that have been
forwarded or applied meanwhile are sent, empty. -/
def Dev.morCatchUp (d : Dev) (t : Nat) (c : Calving) : Dev :=
  let x := d.morTab t
  let past := (List.range x.applied).filter (fun n => decide (c.step < n))
  let d := past.foldl (fun d n => (d.morForwardOne t n false c.owner []).morForwardOne t n true c.owner []) d
  x.steps.foldl (fun d s =>
    let d := if s.2.fwdSent && decide (c.step < s.1) then d.morForwardOne t s.1 false c.owner [] else d
    if s.2.fwdUpdSent && decide (c.step < s.1) then d.morForwardOne t s.1 true c.owner [] else d) d

/-- CALVE_ACK: the old owner sets its stub, installs the override and tells the peer set, or the calving fails (R199
steps 2 and 3). -/
def Dev.calveAck (d : Dev) : Dev :=
  d.morHandle 7 (fun d m =>
    let t := m.table
    match d.mor.calving.find? (fun c => !c.stub && c.table == t && c.key == m.key && c.owner == m.src) with
    | none => d
    | some c =>
      let d := { d with mor := { d.mor with calving := d.mor.calving.erase c } }
      if m.epoch = 0 then d.minc F.moraine_CALVE_FAIL_CNT
      else
        let f := d.morFind t c.key
        let d := match f.2.1 with
          | some r =>
            let a := f.1.morRecord t r.local_
            f.1.morWrite (a + 8) (natLE 4 (r.ver ||| 4) ++ natLE 4 r.step ++ natLE 4 r.epoch ++ natLE 4 c.epoch ++
              [byte c.owner])
          | none => f.1
        let d := (d.installOvr ⟨c.key, t, c.owner, true, true, c.epoch⟩).1
        let told := (d.morDests t).contains c.owner
        let d := { d with mor := { d.mor with calving := d.mor.calving ++ [{ c with stub := true }] } }
        let d := if told then d else d.morCatchUp t c
        (d.morPeers t).foldl (fun d q =>
          if q = d.pkgId then d
          else (d.morSend q { kind := 8, table := t, src := 0, orig := 0, step := c.step, key := c.key, epoch := c.epoch
                              items := [{ pos := c.owner, key := c.key, epoch := c.epoch }] }).1) d)

/-- DIR_OVR: the override installed and acknowledged (R199 step 4). -/
def Dev.dirOvr (d : Dev) : Dev :=
  d.morHandle 8 (fun d m =>
    let i := m.items.headD { pos := 0 }
    let d := { d with mor := { d.mor with incoming := d.mor.incoming.filter (· != (m.table, m.key)) } }
    let r := d.installOvr ⟨m.key, m.table, i.pos, true, false, m.epoch⟩
    if r.2 then
      (r.1.morSend m.src { kind := 9, table := m.table, src := 0, orig := 0, step := m.step, key := m.key
                           epoch := m.epoch }).1
    else r.1)

/-- DIR_ACK recorded toward the freeing of the stub (R199 step 7). -/
def Dev.dirAck (d : Dev) : Dev :=
  d.morHandle 9 (fun d m =>
    let d := { d with mor := { d.mor with calving := d.mor.calving.map (fun (c : Calving) =>
      if c.stub && c.table == m.table && c.key == m.key && c.epoch == m.epoch then { c with acks := c.acks ++ [m.src] }
      else c) } }
    d.stubSettle m.table)

/-! ### Registers (R183, R201, R205) -/

/-- OVR_READ: entry OVR_IDX loaded into OVR_DATA. -/
def Dev.ovrRead (d : Dev) : Dev :=
  let b := B.moraine
  let e := d.mor.ovr.getD (d.g b F.moraine_OVR_IDX) {}
  (((((d.p b F.moraine_OVR_KEY e.key).p b F.moraine_OVR_TABLE e.table).p b F.moraine_OVR_OWNER e.owner).pb b
    F.moraine_OVR_VALID e.valid).pb b F.moraine_OVR_STUB e.stub).p b F.moraine_OVR_EPOCH e.epoch

/-- OVR_WRITE: OVR_DATA stored into entry OVR_IDX; refused for an entry with STUB and for a key whose calving is in
progress (R183). -/
def Dev.ovrWrite (d : Dev) : Dev :=
  let b := B.moraine
  let i := d.g b F.moraine_OVR_IDX
  let old := d.mor.ovr.getD i {}
  let new : OvrEnt := ⟨d.g b F.moraine_OVR_KEY, d.g b F.moraine_OVR_TABLE, d.g b F.moraine_OVR_OWNER,
    d.gb b F.moraine_OVR_VALID, false, d.g b F.moraine_OVR_EPOCH⟩
  if old.stub || (old.valid && d.calvingNow old.table old.key) || d.calvingNow new.table new.key then
    d.event 0x08 0 0x0505 (dtlWord d.pkgId)
  else d.setOvr i new

/-- HOT_CLR (R201). -/
def Dev.hotClr (d : Dev) : Dev := { d with mor := { d.mor with hot := [] } }

/-- The hot list in descending order of its counts (HOT_SEL, HOT_DATA). -/
def Dev.hotEntry (d : Dev) (i : Nat) : Nat × Nat × Nat :=
  ((d.mor.hot.mergeSort (fun a b => decide (b.2.2 ≤ a.2.2)))[i]?).getD (0, 0, 0)

/-- A rule and an element format that Table 6.1 permits. -/
def combineOk (rule fmt : Nat) : Bool :=
  if rule = 2 then decide (fmt ≤ 9) || fmt == 0xF else decide (rule < 2) && [0, 6, 7, 8, 9].contains fmt

/-- A table's configuration is one the map service enables (R181, R186). -/
def Dev.tableOk (d : Dev) (t : Nat) : Bool :=
  let b := B.moraine
  let l := d.g b F.moraine_INDEX_LOG2 t
  let r := d.g b F.moraine_ROWS_LOCAL t
  combineOk (d.g b F.moraine_COMBINE t) (d.g b F.moraine_ELEM_FMT t) && decide (10 ≤ l) && decide (l ≤ 29) &&
    decide (r ≤ 2 ^ 28) && decide (2 * r ≤ 2 ^ l)

/-- A write of TBL_CFG: TBL_EN sets only over a permitted configuration, and setting it computes DIR_CRC and restarts
the step sequence at 0 (R181, R182, R205, Table 6.11). -/
def Dev.tblCfg (d : Dev) (t v : Nat) : Dev :=
  let b := B.moraine
  let d := ((((((d.p b F.moraine_KEY_KIND (bits v 1 1) t).p b F.moraine_COMBINE (bits v 3 2) t).p b F.moraine_ELEM_FMT
    (bits v 7 4) t).p b F.moraine_ROW_G (bits v 12 8) t).p b F.moraine_PEER_COUNT_M1 (bits v 21 16) t).p b
    F.moraine_INDEX_LOG2 (bits v 26 22) t).pb b F.moraine_TBL_EN false t
  if bit v 0 && d.tableOk t then
    let d := ((d.p b F.moraine_DIR_CRC (d.dirCrc t) t).p b F.moraine_NEXT_STEP 0 t).p b F.moraine_NEXT_PART 0 t
    (d.setMorTab t { rows := (d.morTab t).rows }).pb b F.moraine_TBL_EN true t
  else d

/-- TABLE_DESCRIPTOR_WRITE: the register at offset `o` of table descriptor `t` (R205, Table 6.11). -/
def Dev.tableWrite (d : Dev) (t o v : Nat) : Dev :=
  let b := B.moraine
  let off := d.event 0x08 0 0x0503 (dtlWord t)
  if d.gb b F.moraine_TBL_EN t then
    if o = 0 ∧ !bit v 0 ∧ (d.morTab t).opened.isEmpty then d.tblCfg t v else off
  else if o = 0 then d.tblCfg t v
  else if o = 4 then d.p b F.moraine_ROWS_LOCAL v t
  else if o = 8 then d.p b F.moraine_STORE_VA v t
  else if o = 0x10 then d.p b F.moraine_INDEX_VA v t
  else if o = 0x1C then d.p b F.moraine_CTX_MASK v t
  else if 0x40 ≤ o ∧ o < 0x80 then match peerListFlds[(o - 0x40) / 4]? with
    | some f => d.p b f v t
    | none => d
  else d

/-- Every package of a table's peer set has reported the table's DIR_CRC (R203). -/
def Dev.morAgreed (d : Dev) (t : Nat) : Bool :=
  (d.morPeers t).all (fun q => q == d.pkgId ||
    (d.mor.crcs.getD (64 * t + q) (Config.peerDirCrc q t)) == d.g B.moraine F.moraine_DIR_CRC t)

/-- MOR_CNT_CLR (R205). -/
def Dev.morCntClr (d : Dev) : Dev :=
  d.clearFlds B.moraine [F.moraine_LOOKUP_KEYS_CNT, F.moraine_UPDATE_KEYS_CNT, F.moraine_ROWS_CREATED_CNT,
    F.moraine_ROW_REFUSED_CNT, F.moraine_FWD_SENT_CNT, F.moraine_FWD_RECV_CNT, F.moraine_STALE_CNT,
    F.moraine_LATE_MSG_CNT, F.moraine_DIR_MISMATCH_CNT, F.moraine_MISROUTE_CNT, F.moraine_CALVE_DONE_CNT,
    F.moraine_CALVE_FAIL_CNT, F.moraine_PREFETCH_HIT_CNT, F.moraine_PREFETCH_MISS_CNT, F.moraine_STEP_TIMEOUT_CNT]

/-- MORAINE_READY (R203). -/
def Dev.moraineReady (d : Dev) : Dev :=
  if d.domUp Dom.moraine then d.pb B.moraine F.moraine_READY true else d

end Sys2Proof.Machine
end

