-- ==== Sys2Proof/Machine/Sastrugi.lean ====
section
/-!
DEFINITION. Sastrugi: top-k row mode (R213–R215), merge mode (R216–R218, R221), poison and abort (R219), engines and
counters (R220, R224).
Choices of the model: log entries 22, 51, 52, 67, 201.
-/

namespace Sys2Proof.Machine

namespace Sas

/-- Stream of Sastrugi's accesses (Table 1.4). -/
def sid : Nat := 0x252

end Sas

/-! ### Selection (R213, R216, R220, R221) -/

/-- An entry: global index, key in its original encoding, key as a value. -/
structure Held where
  idx : Nat
  code : Nat
  v : Val
  deriving DecidableEq, Repr

/-- An engine's sorted list with what it has counted. -/
structure Sel where
  held : List Held := []
  ins : Nat := 0
  dup : Nat := 0
  conf : Nat := 0
  nan : Nat := 0
  taken : Nat := 0
  deriving DecidableEq, Repr

/-- An entry ranks above another (R78, R213): larger key, or equal key and lower index. -/
def Held.above (a b : Held) : Bool := Val.lt b.v a.v || (Val.eq a.v b.v && decide (a.idx < b.idx))

/-- An entry placed at its rank in a sorted list. -/
def Held.place (e : Held) : List Held → List Held
  | [] => [e]
  | h :: l => if e.above h then e :: h :: l else h :: e.place l

/-- An entry inserted at its rank; the lowest leaves a list of more than `k` (R220). -/
def Sel.insert (s : Sel) (k : Nat) (e : Held) : Sel := { s with held := (e.place s.held).take k, ins := s.ins + 1 }

/-- An entry that meets no held one: it passes the filter or is left (R220 step 2). -/
def Sel.filter (s : Sel) (k : Nat) (e : Held) : Sel :=
  if decide (s.held.length < k) || (match s.held.getLast? with | some l => e.above l | none => true) then s.insert k e
  else s

/-- One entry of a row taken (R213, R220). -/
def Sel.take (s : Sel) (k : Nat) (e : Held) : Sel :=
  let s := { s with taken := s.taken + 1 }
  if e.v.isNan then { s with nan := s.nan + 1 } else s.filter k e

/-- One entry taken in merge mode: compared with the held entry of its index first (R216, R221). -/
def Sel.merge (s : Sel) (k : Nat) (e : Held) : Sel :=
  let s := { s with taken := s.taken + 1 }
  if e.v.isNan then { s with nan := s.nan + 1 }
  else match s.held.find? (fun h => h.idx == e.idx) with
    | none => s.filter k e
    | some h =>
      if Val.eq h.v e.v then { s with dup := s.dup + 1 }
      else
        let s := { s with conf := s.conf + 1 }
        if Val.lt h.v e.v then ({ s with held := s.held.filter (fun (x : Held) => x.idx != e.idx) } : Sel).insert k e else s

/-- A top-k list record (Table 7.3). -/
def topkRecord (k : Nat) (f : Fmt) (fmt row time flags : Nat) (s : Sel) : Bytes :=
  let keyed := bit flags 0
  let n := s.held.length
  let hdr := record 64 [(0, natLE 4 n), (4, natLE 2 k), (6, [byte (if keyed then fmt else 0xFF)]), (7, [byte flags]),
    (8, natLE 4 row), (0xC, natLE 2 (min s.dup 65535)), (0xE, natLE 2 (min s.conf 65535)),
    (0x10, natLE 4 (min s.nan (2 ^ 32 - 1))), (0x14, natLE 4 time)]
  let ix := (s.held.map (fun (h : Held) => h.idx) ++ List.replicate (k - n) 0xFFFFFFFF).flatMap (natLE 4)
  let ks := packCodes f.bits (s.held.map (fun (h : Held) => h.code) ++ List.replicate (k - n) 0)
  hdr ++ padTo (alignUp ix.length 64) ix ++ (if keyed then padTo (ceilDiv (k * f.bits) 512 * 64) ks else [])

/-- Element code `j` packed from byte `o` of a buffer (R62). -/
def packedCode (f : Fmt) (b : Bytes) (o j : Nat) : Nat :=
  let p := o + j * f.bits / 8
  if f.bits = 4 then fieldN b p 1 / 16 ^ (j % 2) % 16 else fieldN b p (f.bits / 8)

/-- An entry of an index and a key code; whether R67 flushed the key. -/
def heldOf (f : Fmt) (idx code : Nat) : Held × Bool :=
  let x := decodeIn f code 127
  (⟨idx, code, x.1⟩, x.2)

/-- Sastrugi's counters after a record has been written (Table 7.7). -/
def Dev.sasCount (d : Dev) (done : Fld) (k : Nat) (s : Sel) : Dev :=
  let b := B.sastrugi
  let d := (((d.inc b done).incUnit b F.sastrugi_ELEM_READ_CNT s.taken).inc b F.sastrugi_INSERT_CNT 0 s.ins).inc b
    F.sastrugi_NAN_SKIP_CNT 0 s.nan
  let d := (d.inc b F.sastrugi_DUP_DROP_CNT 0 s.dup).inc b F.sastrugi_CONFLICT_CNT 0 s.conf
  if s.held.length < k then d.inc b F.sastrugi_SHORT_ROW_CNT else d

/-! ### Row mode (R213–R215, R219) -/

/-- The initiator of a descriptor's accesses. -/
def Dev.sasWho (d : Dev) (x : Desc) : Initiator := d.who Sas.sid x.ctx

/-- Row `r` of a row-mode TOPK: its record written, what it met, and the refusal that ended it. -/
def Dev.topkRow (d : Dev) (n : Nat) (x : Desc) (r : Nat) : Dev × Result × Option (Nat × Nat) :=
  let f := x.fA
  let k := x.param 0x28 2
  let cols := x.param 0x30 4
  let keyed := bit (x.param 0x2B 1) 0
  let g := ceilDiv (cols * f.bits) 512
  let b := d.padBuf n (x.srcA.base + r * g) (64 * g) (d.sasWho x)
  match b.2.2 with
  | some no => (b.1, {}, some no)
  | none =>
    let es := (List.range cols).map (fun j => heldOf f (x.param 0x34 4 + j) (packedCode f b.2.1.data 0 j))
    let s := es.foldl (fun (s : Sel) e => s.take k e.1) {}
    let rec_ := topkRecord k f x.fmtA r b.1.t32 (b2n keyed) s
    let bad := b.2.1.bad.any id
    let fl := es.foldl (fun (a : AFlags) e => (a.or e.1.v.flags).or { ftz := e.2 }) {}
    let w := b.1.padWrite n (64 * (x.dst.base + r * (Desc.recordBytes k f.bits keyed / 64))) (d.sasWho x) rec_
      (List.replicate (rec_.length / 64) bad)
    let res := mkResult fl b.2.1.seen
    match w.2 with
    | some no => (w.1, res, some no)
    | none => (w.1.sasCount F.sastrugi_ROWS_DONE_CNT k s, res, none)

/-! ### Merge mode (R216–R219) -/

/-- A merge walking its input records. -/
structure Walk where
  sel : Sel := {}
  flags : AFlags := {}
  seen : List Nat := []
  bad : Bool := false
  undersized : Nat := 0
  stop : Option (Option (Nat × Nat)) := none
  /-- granule of SRC_A at which the next record begins -/
  pos : Nat := 0
  /-- a refused access of the scratchpad ends the descriptor (R268) -/
  denied : Option (Nat × Nat) := none
  deriving DecidableEq, Repr

/-- Why a record is invalid (R218), by the reasons of TOPK_LIST_INVALID. `left` is what SRC_A holds from it on. -/
def recordInvalid (f : Fmt) (fmt : Nat) (h : Bytes) (left : Nat) : Option Nat :=
  let k := fieldN h 4 2
  if !bit (fieldN h 7 1) 0 then some 1
  else if fieldN h 6 1 ≠ fmt then some 2
  else if k = 0 ∨ 1024 < k then some 3
  else if left * 64 < Desc.recordBytes k f.bits true then some 4
  else if k < fieldN h 0 4 then some 5
  else none

/-- The entries of a record taken, in slot order. -/
def takeRecord (f : Fmt) (k : Nat) (b : Bytes) (s : Sel) : Sel × AFlags :=
  let kp := fieldN b 4 2
  let ko := 64 + alignUp (4 * kp) 64
  (List.range (fieldN b 0 4)).foldl (fun (a : Sel × AFlags) i =>
    let h := heldOf f (fieldN b (64 + 4 * i) 4) (packedCode f b ko i)
    (a.1.merge k h.1, (a.2.or h.1.v.flags).or { ftz := h.2 })) (s, {})

/-- One record of a merge: the header is read first; a poisoned header stops the walk (R219). -/
def Dev.walkRecord (d : Dev) (n : Nat) (x : Desc) (i : Nat) (w : Walk) : Dev × Walk :=
  if w.stop.isSome then (d, w)
  else if x.srcA.len ≤ w.pos then (d, { w with stop := some (some (i, 4)) })
  else
    let f := x.fA
    let k := x.param 0x28 2
    let h := d.padBuf n (x.srcA.base + w.pos) 64 (d.sasWho x)
    if h.2.2.isSome then (h.1, { w with stop := some none, denied := h.2.2 })
    else if h.2.1.bad.any id then (h.1, { w with stop := some none, bad := true, seen := w.seen ++ h.2.1.seen })
    else match recordInvalid f x.fmtA h.2.1.data (x.srcA.len - w.pos) with
      | some r => (h.1, { w with stop := some (some (i, r)) })
      | none =>
        let kp := fieldN h.2.1.data 4 2
        let L := Desc.recordBytes kp f.bits true
        let b := h.1.padBuf n (x.srcA.base + w.pos + 1) (L - 64) (d.sasWho x)
        if b.2.2.isSome then (b.1, { w with stop := some none, denied := b.2.2 })
        else
          let t := takeRecord f k (h.2.1.data ++ b.2.1.data) w.sel
          (b.1, { w with sel := t.1, flags := w.flags.or t.2, seen := w.seen ++ b.2.1.seen
                         bad := w.bad || b.2.1.bad.any id
                         undersized := w.undersized + b2n (decide (fieldN h.2.1.data 0 4 = kp) && decide (kp < k))
                         pos := w.pos + L / 64 })

/-- Statuses of a merge (Table 7.4). -/
def Walk.met (w : Walk) : List (Nat × Nat) :=
  (match w.stop with
   | some (some (i, r)) => [(0x0603, i + 65536 * r)]
   | _ => []) ++
  (if w.sel.conf = 0 then [] else [(0x0601, min w.sel.conf 65535)]) ++
  (if w.undersized = 0 then [] else [(0x0602, min w.undersized 65535)])

/-- LFLAGS of a merged record (Table 7.3). -/
def Walk.lflags (w : Walk) : Nat := 1 + 2 * b2n (w.undersized != 0) + 4 * b2n w.stop.isSome + 8

/-- A merge-mode TOPK run to its end: its record written and what it met. -/
def Dev.topkMerge (d : Dev) (n : Nat) (x : Desc) : Dev × Result :=
  let r := (List.range (x.param 0x2E 2)).foldl (fun (a : Dev × Walk) i => a.1.walkRecord n x i a.2) (d, {})
  let w := r.2
  let res := mkResult w.flags w.seen w.met
  match w.denied with
  | some no => (r.1, { res with met := res.met ++ [no] })
  | none =>
    let k := x.param 0x28 2
    let rec_ := topkRecord k x.fA x.fmtA 0xFFFFFFFF r.1.t32 w.lflags w.sel
    let p := r.1.padWrite n (64 * x.dst.base) (d.sasWho x) rec_ (List.replicate (rec_.length / 64) w.bad)
    match p.2 with
    | some no => (p.1, { res with met := res.met ++ [no] })
    | none =>
      let b := B.sastrugi
      let d := (p.1.sasCount F.sastrugi_MERGES_DONE_CNT k w.sel).inc b F.sastrugi_UNDERSIZED_CNT 0 w.undersized
      (match w.stop with
       | some (some _) => d.inc b F.sastrugi_LIST_INVALID_CNT
       | _ => d, res)

/-! ### Engines (R220, R224) -/

/-- Rows of a row-mode TOPK; a merge counts as one. -/
def sasRows (x : Desc) : Nat := if x.topkMerge then 1 else x.param 0x2C 2

/-- What the engines execute of entries that have not ended. -/
def Dev.sasLive (d : Dev) : List SasRun :=
  d.sasRuns.filter (fun r => match d.entry r.core r.slot with
    | some e => e.issueNo == r.no && e.st != .queued && !e.done
    | none => false)

/-- Engines that take work: enabled and not busy. -/
def Dev.sasFree (d : Dev) : List Nat :=
  (List.range 4).filter (fun i => bit (d.g B.sastrugi F.sastrugi_ENG_EN) i && !d.sasLive.any (fun r => r.eng == i))

/-- No descriptor that Sastrugi received earlier has a row that has not started. -/
def Dev.sasTurn (d : Dev) (e : QEntry) : Bool :=
  (d.blockPend Dom.sastrugi).all (fun x =>
    decide (e.issueNo ≤ x.2.issueNo) || decide (sasRows x.2.desc ≤ x.2.point) || d.entryAborted x.1 x.2)

/-- The next rows of an entry started on free engines, whichever, in its turn; `point` counts the rows started. -/
def Dev.sasStart (d : Dev) (n slot : Nat) : Dev :=
  match d.entry n slot with
  | none => d
  | some e =>
    if !d.sasTurn e then d
    else
      let s := d.takeSerials 1
      let free := d.sasFree
      let engs := (pickOrder s.1 free.length (List.range free.length)).filterMap (fun i => free[i]?)
      let k := min engs.length (sasRows e.desc - e.point)
      let runs := (engs.take k).zipIdx.map (fun g =>
        ({ eng := g.1, core := n, slot := slot, no := e.issueNo
           row := if e.desc.topkMerge then none else some (e.point + g.2) } : SasRun))
      ({ s.2 with sasRuns := s.2.sasLive ++ runs }).modEntry n slot (fun e => { e with point := e.point + k })

/-- What an engine executes for an entry ends: its row, or its merge, which an ABORT ends with nothing written (R219). -/
def Dev.sasEnd (d : Dev) (n slot : Nat) (r : SasRun) : Dev :=
  let d := { d with sasRuns := d.sasRuns.erase r }
  match d.entry n slot, r.row with
  | none, _ => d
  | some e, some i =>
    let x := d.topkRow n e.desc i
    let d := x.1.modEntry n slot (fun e => { e with res := e.res.join x.2.1 })
    (match x.2.2 with
     | some no => d.denyEntry n slot no (e.res.join x.2.1)
     | none => d)
  | some e, none =>
    if d.entryAborted n e then d
    else
      let x := d.topkMerge n e.desc
      x.1.modEntry n slot (fun e => { e with res := x.2 })

/-! ### Commands -/

/-- TOPK of an issued entry in the mode asked for: what engines execute of it ends, and further rows start on free
engines; once every row has ended, or under an ABORT every row started (R219), so has the entry. -/
def Dev.runTopk (d : Dev) (n slot : Nat) (merge : Bool) : Dev :=
  d.withEntry n slot (· == .topk) (fun d e =>
    if !(d.domUp Dom.sastrugi && d.gb B.sastrugi F.sastrugi_READY) || e.desc.topkMerge != merge then d
    else
      let mine := d.sasLive.filter (fun r => r.core == n && r.slot == slot)
      let d := mine.foldl (fun d r => d.sasEnd n slot r) d
      match d.entry n slot with
      | none => d
      | some e =>
        if e.done then d
        else if d.entryAborted n e then d.denyEntry n slot (0x0206, 0) e.res
        else if sasRows e.desc ≤ e.point then d.finishEntry n slot e.res
        else d.sasStart n slot)

/-- ENG_EN_WRITE: a write that would leave no engine enabled is ignored (R224). -/
def Dev.engEn (d : Dev) (v : Nat) : Dev := if v % 16 = 0 then d else d.p B.sastrugi F.sastrugi_ENG_EN v

/-- SAS_CNT_CLR (R224). -/
def Dev.sasCntClr (d : Dev) : Dev :=
  d.clearFlds B.sastrugi [F.sastrugi_ROWS_DONE_CNT, F.sastrugi_MERGES_DONE_CNT, F.sastrugi_ELEM_READ_CNT,
    F.sastrugi_INSERT_CNT, F.sastrugi_NAN_SKIP_CNT, F.sastrugi_SHORT_ROW_CNT, F.sastrugi_DUP_DROP_CNT,
    F.sastrugi_CONFLICT_CNT, F.sastrugi_LIST_INVALID_CNT, F.sastrugi_UNDERSIZED_CNT]

/-- SASTRUGI_READY (R226). -/
def Dev.sastrugiReady (d : Dev) : Dev :=
  if d.domUp Dom.sastrugi then d.pb B.sastrugi F.sastrugi_READY true else d

end Sys2Proof.Machine
end

