-- ==== Sys2Proof/Machine/Rime.lean ====
section
/-!
DEFINITION. The Rime island: fault causes and pins (R400–R404), checkers (R398, R399), publication and the age monitor
(R389–R397), Whiteout (R394), the status exchange (R405), periodic self-test (R406–R409), its registers (R412–R414).
Choices of the model: log entries 79, 136, 137, 138, 139, 140, 141, 142, 143, 144, 145, 146, 202.
-/

namespace Sys2Proof.Machine

/-! ### Causes and pins (R400–R403) -/

/-- FAULT_CAUSE (Table 14.6). -/
def Dev.faultCause (d : Dev) : Nat :=
  d.g B.rime F.rime_LOCKSTEP + 2 * d.g B.rime F.rime_CAUSE + 128 * d.g B.rime F.rime_RIME_RESET

/-- Rime's firmware runs: its domain serves, RUN is set and its cores agree. -/
def Dev.rimeRuns (d : Dev) : Bool :=
  d.domUp Dom.rime && d.gb B.rime F.rime_RUN && !d.gb B.rime F.rime_LOCKSTEP

/-- FAULT_N and SAFE_REQ_N follow the causes (R400, R402, R403): FAULT_N is asserted until RUN is set; SAFE_REQ_N stays
asserted once it is, and its assertion raises SAFE_REQ. -/
def Dev.rimePins (d : Dev) : Dev :=
  let b := B.rime
  let c := d.faultCause
  let hw := bit c 0 || bit c 7
  let d := d.pb b F.rime_FAULT_OUT (hw || !d.gb b F.rime_RUN || Nat.land c (d.g b F.rime_FMASK) != 0)
  if !d.gb b F.rime_SAFE_OUT && (hw || Nat.land c (d.g b F.rime_SMASK) != 0) then
    (d.pb b F.rime_SAFE_OUT true).event 0x0E 0 0x0816 (dtl [(1, c)]) 0 true
  else d

/-- FAULT_N as the system reads it: asserted by the pull-down while the Rime domain has no power or is in reset, and as
FAULT_OUT tells otherwise (R402, R403, R473). -/
def Dev.faultPin (d : Dev) : Bool := !d.domUp Dom.rime || d.gb B.rime F.rime_FAULT_OUT

/-- SAFE_REQ_N as the system reads it. -/
def Dev.safePin (d : Dev) : Bool := !d.domUp Dom.rime || d.gb B.rime F.rime_SAFE_OUT

/-- A cause sets (Table 14.6). -/
def Dev.rimeCause (d : Dev) (k : Nat) : Dev :=
  let b := B.rime
  (if k = 0 then d.pb b F.rime_LOCKSTEP true
   else if k = 7 then d.pb b F.rime_RIME_RESET true
   else d.p b F.rime_CAUSE (setBits (d.g b F.rime_CAUSE) (k - 1) 1 1)).rimePins

/-- The event codes of Table 14.8. -/
def safetyEvents : List Nat := [0x0810, 0x0811, 0x0812, 0x0813, 0x0814, 0x0815, 0x0816, 0x0817, 0x0818]

/-- The code of the event that cause 0, 1 or 2 raises: R400 has one raised and Table 14.8 gives none, so which of its
event codes it carries is left open (log entry 141). -/
def causeCode (k : Nat) : Nat := safetyEvents.getD (Config.causeStatus k % 9) 0x0810

/-- LOCKSTEP, RIME_CLK or RIME_SRAM sets and raises its event (R400). -/
def Dev.rimeFault (d : Dev) (k : Nat) : Dev :=
  if d.domUp Dom.rime then
    (d.rimeCause k).event 0x0E 0 (causeCode k) (dtl [(1, (d.rimeCause k).faultCause)]) 0 true
  else d

/-- A PERSIST of some stream is latched. -/
def Dev.anyPersist (d : Dev) : Bool := (List.range 16).any (fun s => d.gb B.rime F.rime_PERSIST s)

/-- A write of FAULT_CAUSE (R401): bits 1 to 6 clear, and those whose condition holds set again; `still` tells the
condition of bits 1 and 2. -/
def Dev.faultClear (d : Dev) (v still : Nat) : Dev :=
  let b := B.rime
  let old := d.g b F.rime_CAUSE
  let held := fun (k : Nat) => match k with
    | 1 => bit still 1
    | 2 => bit still 2
    | 3 => d.rime.silent != 0
    | 4 => d.anyPersist
    | 6 => (List.range 32).any (fun c => d.gb b F.rime_OVERDUE c)
    | _ => false
  let new := ((List.range 6).map (fun i => if bit old i && (!bit v (i + 1) || held (i + 1)) then 2 ^ i else 0)).sum
  (d.p b F.rime_CAUSE new).rimePins

/-- A write of SAFE_MASK: bits are added, never taken away (R401). -/
def Dev.safeMask (d : Dev) (v : Nat) : Dev :=
  (d.p B.rime F.rime_SMASK (Nat.lor (d.g B.rime F.rime_SMASK) (v % 128))).rimePins

/-- A write of FAULT_MASK. -/
def Dev.faultMask (d : Dev) (v : Nat) : Dev := (d.p B.rime F.rime_FMASK v).rimePins

/-- RIME_START: the start-up test passes and RUN sets (R402, R414); once in a cold reset (R403). -/
def Dev.rimeStart (d : Dev) : Dev :=
  if d.domUp Dom.rime && !d.gb B.rime F.rime_RUN && !d.gb B.rime F.rime_RIME_RESET && !d.gb B.rime F.rime_LOCKSTEP then
    (d.pb B.rime F.rime_RUN true).rimePins
  else d

/-- RIME_RESTART: the Rime domain runs again after a reset that was no cold reset (R403). Its registers and SRAM are
lost, RIME_RESET is held by the always-on latch and hardware drives both pins. LOCKSTEP clears on cold reset alone
(R401, Table 14.10): log entry 202. -/
def Dev.rimeRestart (d : Dev) : Dev :=
  if bit (d.fence.getD Dom.rime 0) 4 then
    let d := (d.rime.posts.filter (·.rb)).foldl (fun d q =>
      d.modEntry q.post.home q.post.slot (fun e => { e with held := e.held - 1 })) d
    let safe := d.gb B.rime F.rime_SAFE_OUT
    let lock := d.gb B.rime F.rime_LOCKSTEP
    let d := { d.resetRegs B.rime (B.rime + 0x10000) with
      rime := {}, gridRead := none, stReq := none
      fence := Tab.set 0 d.fence Dom.rime (d.fence.getD Dom.rime 0 - 16) }
    let d := (((d.pb B.rime F.rime_RIME_RESET true).pb B.rime F.rime_LOCKSTEP lock).pb B.rime F.rime_SAFE_OUT
      safe).rimePins
    d.event 0x0E 0 0x0818 (dtl [(1, d.faultCause)]) 0 true
  else d

/-! ### Streams -/

/-- One stream's further state. -/
def Dev.stream (d : Dev) (s : Nat) : RStream := d.rime.streams.getD s {}

/-- A stream's further state replaced. -/
def Dev.setStream (d : Dev) (s : Nat) (x : RStream) : Dev :=
  { d with rime := { d.rime with streams := Tab.set {} d.rime.streams s x } }

/-- The enabled streams. -/
def Dev.enabledStreams (d : Dev) : List Nat := (List.range 16).filter (fun s => d.gb B.rime F.rime_STR_EN s)

/-- Cause CHECK for the next publication of every enabled stream whose CHECK_CTX is the context (R398, R399). -/
def Dev.taint (d : Dev) (ctx : Nat) : Dev :=
  (d.enabledStreams.filter (fun s => d.g B.rime F.rime_CHECK_CTX s == ctx)).foldl
    (fun d s => d.setStream s { d.stream s with check := true }) d

/-- Bytes of a Whiteout buffer. -/
def woLen : Nat := 0x10000

/-- STR_EN may set: RUN, the slot and the Whiteout buffers aligned, within 64 MiB and apart, MIS_N within 1 to MIS_M
(R403, R412, Table 14.11). -/
def Dev.streamFits (d : Dev) (s misN misM : Nat) : Bool :=
  let b := B.rime
  let po := d.g b F.rime_PUB_OFF s
  let wo := d.g b F.rime_WO_OFF s
  d.gb b F.rime_RUN && po % 64 == 0 && wo % woLen == 0 && decide (po + 64 ≤ 0x4000000) &&
  decide (wo + 3 * woLen ≤ 0x4000000) && !overlaps po 64 wo (3 * woLen) && decide (1 ≤ misN) && decide (misN ≤ misM)

/-- A write of the word at +0x00 of stream `s` (R412): the rest of the word changes while STR_EN is 0; STR_EN setting
restarts PUB_SEQ. -/
def Dev.streamEnable (d : Dev) (s v : Nat) : Dev :=
  let b := B.rime
  if d.gb b F.rime_STR_EN s then
    if bit v 0 then d else (d.pb b F.rime_STR_EN false s).setStream s {}
  else
    let d := (((((d.pb b F.rime_KIND (bit v 1) s).p b F.rime_CHECK_CTX (bits v 5 2) s).p b F.rime_PUB_CH (bits v 6 6) s).p
      b F.rime_MIS_N (bits v 15 8) s).p b F.rime_MIS_M (bits v 23 16) s)
    if bit v 0 && d.streamFits s (bits v 15 8) (bits v 23 16) then (d.pb b F.rime_STR_EN true s).setStream s {}
    else d

/-- A write of another word of a stream, ignored while it is enabled (R412). -/
def Dev.streamWord (d : Dev) (s : Nat) (fld : Fld) (v : Nat) : Dev :=
  if d.gb B.rime F.rime_STR_EN s then d else d.p B.rime fld v s

/-- A write of CHK_CFG (R412): SAMPLE_SHIFT and PAIR_WIN_US change only while both enables are 0; a PAIR_WIN_US of 0 is
ignored. -/
def Dev.chkCfg (d : Dev) (v : Nat) : Dev :=
  let b := B.rime
  let on := d.gb b F.rime_READBACK_EN || d.gb b F.rime_PAIR_EN
  let d := if on then d
    else
      let d := d.p b F.rime_SAMPLE_SHIFT (v % 16)
      if v / 65536 % 65536 = 0 then d else d.p b F.rime_PAIR_WIN_US (v / 65536)
  (d.pb b F.rime_READBACK_EN (bit v 4)).pb b F.rime_PAIR_EN (bit v 5)

/-- A write of HB_CFG; a value outside 100 to 1,000,000 µs is ignored. -/
def Dev.hbCfg (d : Dev) (v : Nat) : Dev :=
  if 100 ≤ v % 2 ^ 20 ∧ v % 2 ^ 20 ≤ 1000000 then d.p B.rime F.rime_HB_TMO_US v else d

/-- A write of ST_CTRL; an ST_MAX_S outside 60 to 86,400 s is ignored. -/
def Dev.stCtrl (d : Dev) (v : Nat) : Dev :=
  let d := d.pb B.rime F.rime_ST_EN (bit v 0)
  if 60 ≤ v / 256 % 2 ^ 24 ∧ v / 256 % 2 ^ 24 ≤ 86400 then d.p B.rime F.rime_ST_MAX_S (v / 256) else d

/-- A write of a word of safety task window `w`: enabled only over a legal period, changed only while disabled. -/
def Dev.windowWord (d : Dev) (w o v : Nat) : Dev :=
  let b := B.rime
  if o = 0 then
    let p := d.g b F.rime_WIN_PERIOD_US w
    let fits := p != 0 && decide (d.g b F.rime_OFFSET_US w < p) && decide (1 ≤ d.g b F.rime_LEN_US w) &&
      decide (d.g b F.rime_LEN_US w ≤ p)
    d.pb b F.rime_WIN_EN (bit v 0 && (d.gb b F.rime_WIN_EN w || fits)) w
  else if d.gb b F.rime_WIN_EN w then d
  else if o = 4 then d.p b F.rime_WIN_PERIOD_US v w
  else if o = 8 then d.p b F.rime_OFFSET_US v w
  else d.p b F.rime_LEN_US v w

/-- A write of RIME_PEER (R405): supervision of peers begins when the exchange is enabled. -/
def Dev.rimePeerWrite (d : Dev) (v : Nat) : Dev :=
  let on := d.gb B.rime F.rime_RIME_PEER_EN
  let d := (d.pb B.rime F.rime_RIME_PEER_EN (bit v 0)).p B.rime F.rime_RIME_SLOT (v / 256)
  if bit v 0 && !on then { d with rime := { d.rime with peers := [], peerFrom := d.varve, peerTold := 0 } } else d

/-! ### Checkers (R398, R399) -/

/-- A mismatch (R399): cause CHECK for the post's context and CHECK_MISMATCH. -/
def Dev.mismatch (d : Dev) (p : Post) (kind : Nat) : Dev :=
  let c := p.ctxTag % 16
  (d.taint c).event 0x0E 0 0x0810 (dtl [(2, p.ctxTag), (2, p.home), (1, p.ord), (1, Config.checkKind kind)]) c
    (d.ctxSecure c)

/-- Rime's posts replaced. -/
def Dev.setPosts (d : Dev) (l : List RPost) : Dev :=
  { d with rime := { d.rime with posts := l.filter (fun p => p.rb || p.pair) } }

/-- A post meets its pair partner (R399): compared, and both leave the pairs. -/
def Dev.pairPost (d : Dev) (p : Post) (q : RPost) : Dev :=
  let d := d.setPosts (d.rime.posts.map (fun x => if x == q then { x with pair := false } else x))
  let d := d.inc B.rime F.rime_PAIR_CNT
  if q.post.crc ≠ p.crc ∨ clusterOf q.post.home = clusterOf p.home then
    (d.inc B.rime F.rime_PAIR_MISMATCH_CNT).mismatch p 1
  else d

/-- The oldest post of core `n` reaches Rime's check queue (R398, R399): dropped where 1,024 records are held;
otherwise counted, selected for read-back as every 2^SAMPLE_SHIFT-th post of its core, and paired. -/
def Dev.checkPost (d : Dev) (n : Nat) : Dev :=
  let c := d.core n
  match c.posts with
  | [] => d
  | p :: rest =>
    let b := B.rime
    let d := d.setCore n { c with posts := rest, postCnt := c.postCnt + 1 }
    if !d.domUp Dom.rime then d
    else if 1024 ≤ d.rime.posts.length then (d.inc b F.rime_POST_DROP_CNT).taint (p.ctxTag % 16)
    else
      let d := d.inc b F.rime_CHECK_POST_CNT
      let rb := d.gb b F.rime_READBACK_EN && (c.postCnt + 1) % 2 ^ d.g b F.rime_SAMPLE_SHIFT == 0
      let d := if rb then d.modEntry p.home p.slot (fun e => { e with held := e.held + 1 }) else d
      let paired := d.gb b F.rime_PAIR_EN && bit p.ctxTag 15
      match (if paired then d.rime.posts.find? (fun q => q.pair && q.post.ctxTag == p.ctxTag && q.post.ord == p.ord)
             else none) with
      | some q =>
        let d := d.pairPost p q
        d.setPosts (d.rime.posts ++ [⟨p, d.varve, rb, false⟩])
      | none => d.setPosts (d.rime.posts ++ [⟨p, d.varve, rb, paired⟩])

/-- The read-back at position `i` among those waiting. -/
def Dev.readback (d : Dev) (i : Nat) : Option RPost := (d.rime.posts.filter (·.rb))[i]?

/-- A read-back leaves, and the completion it held is released (R399). -/
def Dev.readbackEnd (d : Dev) (q : RPost) : Dev :=
  let d := d.setPosts (d.rime.posts.map (fun x => if x == q then { x with rb := false } else x))
  d.modEntry q.post.home q.post.slot (fun e => { e with held := e.held - 1 })

/-- READBACK_DONE: Rime has read the tile through its region port and compares CRCs (R399). -/
def Dev.readbackDone (d : Dev) (i : Nat) : Dev :=
  match d.readback i with
  | none => d
  | some q =>
    if !d.rimeRuns || !d.clusterUp (clusterOf q.post.home) then d
    else
      let r := d.spRead q.post.home q.post.gran q.post.lenG rimeSelf
      let d := (r.1.inc B.rime F.rime_READBACK_CNT).readbackEnd q
      if Crypto.crc32c (r.2.1.take q.post.len) = q.post.crc then d
      else (d.inc B.rime F.rime_RB_MISMATCH_CNT).mismatch q.post 0

/-- READBACK_TIMEOUT: a read-back has not ended within 20 µs and is skipped (R399). -/
def Dev.readbackTimeout (d : Dev) (i : Nat) : Dev :=
  match d.readback i with
  | none => d
  | some q => if q.since + 20000 ≤ d.varve then (d.inc B.rime F.rime_CHECK_SKIP_CNT).readbackEnd q else d

/-- PAIR_ORPHAN: the oldest post that waits for a partner has waited PAIR_WIN_US (R399). -/
def Dev.pairOrphan (d : Dev) : Dev :=
  match d.rime.posts.find? (·.pair) with
  | none => d
  | some q =>
    if q.since + 1000 * d.g B.rime F.rime_PAIR_WIN_US ≤ d.varve then
      let d := d.setPosts (d.rime.posts.map (fun x => if x == q then { x with pair := false } else x))
      ((d.inc B.rime F.rime_PAIR_MISMATCH_CNT).inc B.rime F.rime_PAIR_ORPHAN_CNT).mismatch q.post 2
    else d

/-! ### Publication (R389–R397) -/

/-- The Varve clock has not been stepped, or the output is older than MAX_AGE_US (R389, R397). -/
def Dev.tooOld (d : Dev) (s ts : Nat) : Bool :=
  !d.gb B.mgmt F.mgmt_STEPPED || decide (ts + 1000 * d.g B.rime F.rime_MAX_AGE_US s < d.varve)

/-- Bytes of staging read through Rime's own port, which the region descriptors do not check (R392), and whether poison
was met. -/
def Dev.rimeRead (d : Dev) (h off n : Nat) : Dev × Bytes × Bool :=
  if !d.domUp Dom.mmp then (d, zeros n, true)
  else
    let r := (List.range (ceilDiv (off % 64 + n) 64)).foldl (fun (a : Dev × Bytes × Bool) i =>
      let w := a.1.stagingLine h (off / 64 * 64 + 64 * i) rimeSelf
      (w.1, a.2.1 ++ w.2.1, a.2.2 || w.2.2)) (d, [], false)
    (r.1, (r.2.1.drop (off % 64)).take n, r.2.2)

/-- Bytes written to staging through Rime's own port. -/
def Dev.rimeWrite (d : Dev) (h off : Nat) (data : Bytes) : Dev :=
  if d.domUp Dom.mmp then d.stagingWrite h off data false rimeSelf else d

/-- The Whiteout output a fallback names (R394): that of the same frame counter, otherwise the newest whose sensor time
is later than T_last. -/
def RStream.pick (x : RStream) (fcnt : Option Nat) : Option (Nat × Wo) :=
  let newest := fun (l : List (Nat × Wo)) => l.find? (fun e => l.all (fun f => decide (f.2.num ≤ e.2.num)))
  match newest (x.bufs.filter (fun e => some e.2.fcnt == fcnt)) with
  | some e => some e
  | none => newest (x.bufs.filter (fun e => match x.tLast with
      | some t => decide (t < e.2.ts)
      | none => true))

/-- CAUSE bits that mean doubt (Table 14.4). -/
def doubtBits : Nat := 0xBF

/-- What a publication names and its final CAUSE bits (R391, R393, R394): `prim` the primary output, none for a
publication by deadline. -/
def Dev.pubChoice (d : Dev) (s cause : Nat) (prim : Option PubOut) : Dev × PubOut × Nat :=
  let x := d.stream s
  let occ := d.gb B.rime F.rime_KIND s
  if occ && Nat.land cause doubtBits != 0 then
    match x.pick (prim.map (·.fcnt)) with
    | some (i, w) =>
      (d, ⟨some (d.g B.rime F.rime_WO_OFF s + i * woLen, woLen), w.fcnt, w.ts, w.guard, some i⟩,
       if d.tooOld s w.ts then Nat.lor cause 8 else cause)
    | none =>
      let f := d.fresh
      let g := f.2.fresh
      (g.2, ⟨none, f.1 % 2 ^ 32, g.1 % 2 ^ 64, false, none⟩, Nat.lor cause 64)
  else match prim with
    | some p => (d, p, cause)
    | none => (d, ⟨none, x.fcnt, x.ts, false, none⟩, cause)

/-- The window of CHECK publications after one more (R399): WIN_COUNT, and PERSIST where the count reaches MIS_N. -/
def Dev.pubWindow (d : Dev) (s : Nat) (check : Bool) : Dev :=
  let b := B.rime
  let x := d.stream s
  let m := d.g b F.rime_MIS_M s
  let h := x.hist ++ [check]
  let h := h.drop (h.length - m)
  let n := (h.filter id).length
  let d := (d.setStream s { x with hist := h }).p b F.rime_WIN_COUNT n s
  if check && decide (d.g b F.rime_MIS_N s ≤ n) && !d.gb b F.rime_PERSIST s then
    ((d.pb b F.rime_PERSIST true s).event 0x0E 0 0x0811
      (dtl [(1, s), (1, d.g b F.rime_MIS_N s), (1, m)]) 0 true).rimeCause 4
  else d

/-- The result tag (Table 14.1, R389). -/
def pubTag (s stat ts done : Nat) (out : Bytes) : Bytes :=
  let t := natLE 4 stat ++ natLE 4 ts ++ natLE 4 done
  t ++ natLE 4 (Crypto.crc32c (natLE 2 s ++ t ++ out))

/-- One publication of stream `s` (R389–R395): the slot is written as a whole; PUB_SEQ and the tag. `prim` is the primary
output with its bytes, which Rime has read once (R392); a Whiteout output is read for its CRC. -/
def Dev.publish (d : Dev) (s cause : Nat) (prim : Option (PubOut × Bytes)) (deadline : Bool) : Dev × Nat × Bytes :=
  let b := B.rime
  let h := d.g b F.rime_PUB_CH s
  let occ := d.gb b F.rime_KIND s
  let cause := Nat.lor cause (b2n (d.stream s).check + 128 * b2n (d.gb b F.rime_PERSIST s))
  let c := d.pubChoice s cause (prim.map (·.1))
  let o := c.2.1
  let cause := c.2.2
  let fb := occ && Nat.land cause doubtBits != 0
  let valid := o.out.isSome
  let late := if valid then c.1.tooOld s o.ts else bit cause 3
  let d := c.1.setStream s { c.1.stream s with check := false }
  let d := d.pubWindow s (bit cause 0)
  let r : Dev × Bytes := match o.out, o.buf, prim with
    | some (off, n), some _, _ => let w := d.rimeRead h off n; (w.1, w.2.1)
    | some _, none, some p => (d, p.2)
    | _, _, _ => (d, [])
  let d := r.1
  let x := d.stream s
  let seq := (x.seq + 1) % 2 ^ 32
  let stat := o.fcnt % 2 ^ 24 + 2 ^ 24 * b2n valid + 2 ^ 25 * b2n (valid && o.deg) +
    2 ^ 26 * b2n (Nat.land cause doubtBits != 0) + 2 ^ 27 * b2n fb + 2 ^ 28 * b2n late
  let tag := pubTag s stat o.ts d.varve r.2
  let off := match o.out with
    | some (a, n) => (a, n)
    | none => (0, 0)
  let slot := record 64 [(0, natLE 4 seq), (4, natLE 2 s), (6, natLE 2 cause), (8, natLE 4 off.1), (0xC,
    natLE 4 off.2),
    (0x10, tag), (0x20, natLE 8 o.ts), (0x28, natLE 8 d.varve), (0x30, natLE 4 o.fcnt),
    (0x34, [byte (d.g b F.rime_WIN_COUNT s)]), (0x3C, natLE 4 seq)]
  let d := d.rimeWrite h (d.g b F.rime_PUB_OFF s) slot
  let d := d.inc b F.rime_PUB_CNT s
  let d := if fb then d.inc b F.rime_FALLBACK_CNT s else d
  let d := if late then d.inc b F.rime_LATE_CNT s else d
  let per := 1000 * d.g b F.rime_STR_PERIOD_US s
  let tl := if valid then some o.ts else x.tLast
  let due := if deadline then x.due.map (· + per)
    else match tl with
      | some t => some (t + per + 1000 * d.g b F.rime_MAX_AGE_US s)
      | none => none
  (d.setStream s { x with seq := seq, tLast := tl, due := due, fcnt := o.fcnt, ts := o.ts, tag := tag
                          names := (x.names ++ [o.buf.getD 3]).drop ((x.names.length + 1) - 2) }, seq, tag)

/-- RIME_DEADLINE: the Varve time has reached a stream's deadline (R395). -/
def Dev.rimeDeadline (d : Dev) (s : Nat) : Dev :=
  if !d.rimeRuns || !d.gb B.rime F.rime_STR_EN s then d
  else match (d.stream s).due with
    | none => d
    | some t =>
      if t ≤ d.varve then
        let late := !d.gb B.rime F.rime_KIND s || !d.gb B.mgmt F.mgmt_STEPPED
        let r := d.publish s (16 + 8 * b2n late) none true
        (r.1.inc B.rime F.rime_DEADLINE_CNT s).event 0x0E 0 0x0812 (dtl [(1, s), (4, r.2.1)]) 0 true
      else d

/-- The offset of the first bad field of a publish request (R392); none where it is accepted. -/
def Dev.pubBad (d : Dev) (q : Bytes) : Option Nat :=
  let s := fieldN q 0 2
  let off := fieldN q 0x10 4
  let n := fieldN q 0x14 4
  if 16 ≤ s ∨ !d.gb B.rime F.rime_STR_EN s then some 0
  else if 16 ≤ fieldN q 2 2 then some 2
  else if n = 0 ∨ 0x4000000 < n then some 0x14
  else if 0x4000000 < off + n then some 0x10
  else (findAt (fun (b : Byte) => b != 0) ((q.drop 0x1C).take 36)).map (fun x => 0x1C + x.1)

/-- A response (R392). -/
def Dev.pubRespond (d : Dev) (q : Bytes) (status detail seq : Nat) (tag : Bytes) : Dev :=
  let r := (q.drop 0x18).take 4 ++ natLE 2 status ++ zeros 2 ++ natLE 4 seq ++ zeros 4 ++ padTo 16 tag
  { d with rime := { d.rime with rsps := d.rime.rsps ++ [(r, detail)] } }

/-- A pair post of the context is pending (R399). -/
def Dev.pairsPending (d : Dev) (ctx : Nat) : Bool := d.rime.posts.any (fun p => p.pair && p.post.ctxTag % 16 == ctx)

/-- Cause LATE of a request: its age at publication, or no stepped clock (Table 14.4). -/
def Dev.pubCause (d : Dev) (s : Nat) (q : Bytes) (poison : Bool) : Nat :=
  let f := fieldN q 2 2
  2 * b2n (bit f 0) + 4 * b2n (bit f 2 || poison) + 8 * b2n (d.tooOld s (fieldN q 8 8)) + 32 * b2n (bit f 3) +
  256 * b2n (bit f 1)

/-- PUB_REQ: Rime takes the oldest request (R392): refused, stale, or published. It waits for the pending pair posts of
its stream, at most PAIR_WIN_US (R399). A deadline that has come is taken first (R396). -/
def Dev.pubReq (d : Dev) : Dev :=
  if !d.rimeRuns then d
  else match d.rime.reqs with
  | [] => d
  | (q, since) :: rest =>
    let s := fieldN q 0 2
    let d1 := { d with rime := { d.rime with reqs := rest } }
    match d.pubBad q with
    | some o => d1.pubRespond q 0x0802 o 0 []
    | none =>
      if d.pairsPending (d.g B.rime F.rime_CHECK_CTX s) && decide (d.varve < since + 1000 * d.g B.rime F.rime_PAIR_WIN_US)
      then d
      else
        let d := d1.rimeDeadline s
        let ts := fieldN q 8 8
        if d.gb B.rime F.rime_KIND s && (match (d.stream s).tLast with
            | some t => decide (ts ≤ t)
            | none => false) then
          (d.inc B.rime F.rime_STALE_CNT s).pubRespond q 0x0801 s 0 []
        else
          let off := fieldN q 0x10 4
          let n := fieldN q 0x14 4
          let r := d.rimeRead (d.g B.rime F.rime_PUB_CH s) off n
          let p := r.1.publish s (r.1.pubCause s q r.2.2)
            (some (⟨some (off, n), fieldN q 4 4, ts, bit (fieldN q 2 2) 1, none⟩, r.2.1)) false
          p.1.pubRespond q 0 0 p.2.1 p.2.2

/-- A 64-byte write to PUB_REQ: dropped while 16 requests are pending (R392). -/
def Dev.pubWrite (d : Dev) (q : Bytes) : Dev :=
  if d.rime.reqs.length < 16 then { d with rime := { d.rime with reqs := d.rime.reqs ++ [(q, d.varve)] } } else d

/-- PUB_RSP as read: the oldest response, zeros without one. -/
def Dev.pubRsp (d : Dev) : Bytes := match d.rime.rsps with
  | r :: _ => r.1
  | [] => zeros 32

/-- A write of PUB_RSP_POP (R412). -/
def Dev.pubRspPop (d : Dev) (v : Nat) : Dev :=
  match d.rime.rsps with
  | r :: rs => if fieldN r.1 0 4 = v then { d with rime := { d.rime with rsps := rs } } else d
  | [] => d

/-! ### Whiteout (R394) -/

/-- WHITEOUT_START: Rime takes the newest count-grid buffer. -/
def Dev.whiteoutStart (d : Dev) : Dev :=
  if d.rimeRuns && d.rime.woWait && !d.gb B.rime F.rime_WO_BUSY && d.gb B.firn F.firn_GRID_VALID then
    let i := d.g B.firn F.firn_GRID_NEWEST
    let g := d.grids.getD i {}
    { (d.pb B.rime F.rime_WO_BUSY true) with
      gridRead := some i
      rime := { d.rime with woWait := false, woRun := some ⟨d.rime.woNum, g.fcnt, g.ts, g.guard⟩ } }
  else d

/-- A buffer of stream `s` that neither of its two latest publications names; which, where more than one is left, is
the implementation's choice. -/
def Dev.woPick (d : Dev) (s : Nat) : Dev × Nat :=
  let c := (List.range 3).filter (fun i => !(d.stream s).names.contains i)
  let f := d.fresh
  (f.2, c.getD (f.1 % c.length) 0)

/-- An output written for one OCCUPANCY stream. -/
def Dev.woStore (d : Dev) (s : Nat) (w : Wo) : Dev :=
  let p := d.woPick s
  let d := p.1.rimeWrite (p.1.g B.rime F.rime_PUB_CH s) (p.1.g B.rime F.rime_WO_OFF s + p.2 * woLen)
    ((List.range woLen).map (Config.whiteoutByte w.num))
  d.setStream s { d.stream s with bufs := Tab.put (d.stream s).bufs p.2 w }

/-- WHITEOUT_DONE: the output is written for every enabled OCCUPANCY stream. -/
def Dev.whiteoutDone (d : Dev) : Dev :=
  match d.rime.woRun with
  | none => d
  | some w =>
    if !d.rimeRuns then d
    else
      let d := { (d.pb B.rime F.rime_WO_BUSY false).inc B.rime F.rime_WO_RUN_CNT with
        gridRead := none, rime := { d.rime with woRun := none, woNum := w.num + 1 } }
      (d.enabledStreams.filter (fun s => d.gb B.rime F.rime_KIND s)).foldl (fun d s => d.woStore s w) d

/-! ### Heartbeat (R404) -/

/-- A write of HB_KICK: heeded from the four management cores alone, while RUN is set. -/
def Dev.hbKick (d : Dev) (sid : Nat) : Dev :=
  if d.rimeRuns && decide (0x270 ≤ sid) && decide (sid ≤ 0x273) then
    let l := if d.rime.kicks.isEmpty then List.replicate 4 d.varve else d.rime.kicks
    let k := sid - 0x270
    { d with rime := { d.rime with kicks := l.set k d.varve, silent := setBits d.rime.silent k 1 0 } }
  else d

/-- HB_LOST: management cores whose timers have passed HB_TMO_US are silent; the cause sets and the event names every
silent core. -/
def Dev.hbLost (d : Dev) : Dev :=
  if !d.rimeRuns then d
  else
    let new := (d.rime.kicks.zipIdx.filter (fun k => !bit d.rime.silent k.2 &&
      decide (k.1 + 1000 * d.g B.rime F.rime_HB_TMO_US < d.varve))).map (·.2)
    if new.isEmpty then d
    else
      let m := new.foldl (fun m k => setBits m k 1 1) d.rime.silent
      let d := { d with rime := { d.rime with silent := m } }.inc B.rime F.rime_HB_MISS_CNT 0 new.length
      (d.event 0x0E 0 0x0813 (dtl [(1, m)]) 0 true).rimeCause 3

/-! ### Status exchange (R405) -/

/-- RIME_STAT as read. -/
def Dev.rimeStat (d : Dev) : Nat :=
  d.g B.rime F.rime_RUN + 2 * d.g B.rime F.rime_FAULT_OUT + 4 * d.g B.rime F.rime_SAFE_OUT +
  8 * d.g B.rime F.rime_WO_BUSY + 16 * d.rime.reqs.length

/-- RIME_PEER_SEND: the status record to every other package of RIME_SLOT's peer set. -/
def Dev.rimePeerSend (d : Dev) : Dev :=
  if !d.rimeRuns || !d.gb B.rime F.rime_RIME_PEER_EN then d
  else
    let slot := d.g B.rime F.rime_RIME_SLOT
    let r := padTo 64 (Config.rimeRecord d.pkgId d.rimeStat d.faultCause d.varve)
    ((members (d.slotPeers slot)).filter (· != d.pkgId)).foldl (fun d q =>
      (d.sendMsg { dst := q, src := d.pkgId, kind := 0x0C, slot := slot, addr := 0xC20010000 + d.pkgId * 0x40,
                   payload := r } 0).1) d

/-- A RIME_STATUS packet that has passed R341: stored as the latest record of its peer, or discarded. -/
def Dev.rimeStatusRecv (d : Dev) (k : Pkt) : Dev :=
  if d.rimeRuns && d.gb B.rime F.rime_RIME_PEER_EN && k.slot == d.g B.rime F.rime_RIME_SLOT &&
      k.addr == 0xC20010000 + k.src * 0x40 && k.payload.length == 64 then
    { d with rime := { d.rime with peers := d.rime.peers.put k.src (k.payload, d.varve)
                                   peerTold := setBits d.rime.peerTold k.src 1 0 } }
  else d.inc B.link0 F.link0_WIN_DENY_CNT

/-- RIME_PEER_SILENT: a peer has delivered no record for 50 ms. -/
def Dev.rimePeerSilent (d : Dev) (q : Nat) : Dev :=
  let last := match d.rime.peers.get? q with
    | some r => r.2
    | none => d.rime.peerFrom
  if d.rimeRuns && d.gb B.rime F.rime_RIME_PEER_EN && decide (q < 64) && q != d.pkgId &&
      bit (d.slotPeers (d.g B.rime F.rime_RIME_SLOT)) q && !bit d.rime.peerTold q && decide (last + 50000000 ≤ d.varve)
  then
    let d := { d with rime := { d.rime with peerTold := setBits d.rime.peerTold q 1 1 } }
    (d.p B.rime F.rime_SILENT (setBits (d.g B.rime F.rime_SILENT) q 1 1)).event 0x0E 0 0x0817 (dtl [(1, q)]) 0 true
  else d

/-! ### Periodic self-test (R406–R409) -/

/-- Worst-case length of a slice, ns. -/
def sliceNs (s : Nat) : Nat := if s < 8 then 180000 else 420000

/-- The end of an enabled window's occurrence that meets `[t, t + n)`, the latest over the windows: the first
occurrence, of any integer number, that ends after `t` begins before `t + n` (R406). -/
def Dev.windowEnd (d : Dev) (t n : Nat) : Option Nat :=
  ((List.range 4).filterMap (fun w =>
    let p : Int := (1000 * d.g B.rime F.rime_WIN_PERIOD_US w : Nat)
    let o : Int := (1000 * d.g B.rime F.rime_OFFSET_US w : Nat)
    let l : Int := (1000 * d.g B.rime F.rime_LEN_US w : Nat)
    if !d.gb B.rime F.rime_WIN_EN w || p == 0 then none
    else
      let start := (((t : Int) - o - l) / p + 1) * p + o
      if start < (t : Int) + (n : Int) then some (start + l).toNat else none)).max?

/-- A core of the cluster executes an entry, of its own or stolen; an entry of the cluster executes elsewhere; a
transfer or window access into its scratchpads is registered; or an entry is queued that no DRAIN holds back (R406). -/
def Dev.clusterIdle (d : Dev) (c : Nat) : Bool :=
  let drain := d.draining c
  !d.cores.any (fun x =>
    (clusterOf x.1 == c && (x.2.q.any (fun e => e.st != .queued || d.gb B.mgmt F.mgmt_SAFETY e.desc.ctx || !drain) ||
      x.2.sb != [])) ||
    x.2.q.any (fun e => e.st != .queued && clusterOf e.exec == c))

/-- A slice may run on cluster `c`: it serves, or it is fenced for its clock or voltage alone, both are good again, and
a RELEASE request asks for the test that ends the fence (R409, R450). -/
def Dev.testable (d : Dev) (c : Nat) : Bool :=
  d.clusterUp c ||
  (d.domOn (Dom.cluster c) && decide (d.fence.getD (Dom.cluster c) 0 < 4) &&
    bit (d.g B.pcc F.pcc_ARITH_LOCK) (c / 4) && d.gb B.pcc F.pcc_VWIN_OK (c / 4) &&
    (match d.stReq with
     | some r => r.release && r.cluster == c
     | none => false))

/-- The next slice of cluster `c` is deferred until a window ends that has not ended yet (R406). -/
def Dev.deferredTo (d : Dev) (c s : Nat) : Bool := match d.rime.deferred.get? c with
  | some (t, e) => t == s && decide (d.varve < e)
  | none => false

/-- SELF_TEST_SLICE_START on cluster `c` (R406): a pending request's cluster comes before the periodic order (R409). -/
def Dev.sliceStart (d : Dev) (c : Nat) : Dev :=
  let b := B.rime
  let s := d.g b F.rime_NEXT_SLICE c
  let first := match d.stReq with
    | some r => r.cluster == c || !(d.clusterIdle r.cluster && d.testable r.cluster)
    | none => true
  if !d.rimeRuns || !d.gb b F.rime_ST_EN || d.gb b F.rime_SLICE_BUSY || !decide (c < 32) || !d.testable c ||
      d.gb B.pcc F.pcc_MEAS_BUSY (c / 4) || !first || !d.clusterIdle c || d.deferredTo c s then d
  else match d.windowEnd d.varve (sliceNs s) with
    | some e => { d with rime := { d.rime with deferred := d.rime.deferred.put c (s, e) } }.inc b F.rime_ST_DEFER_CNT
    | none =>
      let d := { d with rime := { d.rime with deferred := d.rime.deferred.del c } }
      ((((d.pb b F.rime_SLICE_BUSY true).p b F.rime_SLICE_CLUSTER c).p b F.rime_SLICE_NUM s).inc b F.rime_ST_SLICE_CNT)

/-- A slice that a RELEASE request found running on cluster `c`: it is none of the request's (R409). -/
def Dev.beforeReq (d : Dev) (c : Nat) : Bool := match d.stReq with
  | some r => r.cluster == c && r.late
  | none => false

/-- The request on a cluster ends, unless the slice that ended came before it. -/
def Dev.stReqEnd (d : Dev) (c : Nat) : Dev :=
  match d.stReq with
  | some r =>
    if r.cluster ≠ c then d
    else if r.late then { d with stReq := some { r with late := false } }
    else { d with stReq := none }.pb B.rime F.rime_REQ_PENDING false
  | none => d

/-- The cores of a cluster. -/
def coresOf (c : Nat) : List Nat := (List.range 16).map (fun i => 16 * c + i)

/-- SELF_TEST_SLICE_END (R408): a failure fences the cluster; the last of 24 slices passed in order ends a full test,
and one that a RELEASE request asked for ends the cluster's fence for clock or voltage (R450). -/
def Dev.sliceEnd (d : Dev) (ok : Bool) : Dev :=
  let b := B.rime
  let c := d.g b F.rime_SLICE_CLUSTER
  let s := d.g b F.rime_SLICE_NUM
  if !d.rimeRuns || !d.gb b F.rime_SLICE_BUSY then d
  else
    let d := d.pb b F.rime_SLICE_BUSY false
    if !ok then
      let d := (d.p b F.rime_NEXT_SLICE 0 c).pb b F.rime_FAIL true c
      let d := ((coresOf c).foldl (fun d n => d.fenceCore n) d).stReqEnd c
      (d.event 0x0E 0 0x0814 (dtl [(1, c), (1, s)]) 0 true).rimeCause 5
    else if s + 1 < 24 then
      if d.beforeReq c then d.stReqEnd c else d.p b F.rime_NEXT_SLICE (s + 1) c
    else
      let d := (coresOf c).foldl (fun d n => d.pb (B.core n) F.core_ST_PASS true) d
      let d := match d.stReq with
        | some r => if r.release ∧ r.cluster = c ∧ ¬ r.late then
            { d with fence := Tab.set 0 d.fence (Dom.cluster c) (d.fence.getD (Dom.cluster c) 0 / 4 * 4) } else d
        | none => d
      let d := ((((d.p b F.rime_NEXT_SLICE 0 c).pb b F.rime_PASS true c).pb b F.rime_FAIL false c).pb b F.rime_OVERDUE
        false c).p b F.rime_LAST_FULL_S (d.varve / 1000000000) c
      { d with rime := { d.rime with fullAt := d.rime.fullAt.put c d.varve } }.stReqEnd c

/-- ST_OVERDUE: the last full test of a cluster ended more than ST_MAX_S ago (R408). -/
def Dev.stOverdue (d : Dev) (c : Nat) : Dev :=
  let b := B.rime
  if d.rimeRuns && decide (c < 32) && !d.gb b F.rime_OVERDUE c &&
      decide (d.rime.fullAt.getD c 0 + 1000000000 * d.g b F.rime_ST_MAX_S < d.varve) then
    ((d.pb b F.rime_OVERDUE true c).event 0x0E 0 0x0815 (dtl [(1, c), (4, d.g b F.rime_LAST_FULL_S c)]) 0
      true).rimeCause 6
  else d

/-- A write of ST_REQ (R409): a GO is ignored while a request is pending; RELEASE starts a full test from L0. -/
def Dev.stReqWrite (d : Dev) (v : Nat) : Dev :=
  let b := B.rime
  let d := ((d.p b F.rime_REQ_CLUSTER v).pb b F.rime_DRAIN (bit v 5)).pb b F.rime_RELEASE (bit v 6)
  if bit v 7 && !d.gb b F.rime_REQ_PENDING then
    let runs := d.gb b F.rime_SLICE_BUSY && d.g b F.rime_SLICE_CLUSTER == v % 32
    let d := { d with stReq := some ⟨v % 32, bit v 5, bit v 6, bit v 6 && runs⟩ }.pb b F.rime_REQ_PENDING true
    if bit v 6 then d.p b F.rime_NEXT_SLICE 0 (v % 32) else d
  else d

/-- RIME_CNT_CLR (R412). -/
def Dev.rimeCntClr (d : Dev) : Dev :=
  d.clearFlds B.rime [F.rime_CHECK_POST_CNT, F.rime_READBACK_CNT, F.rime_RB_MISMATCH_CNT, F.rime_PAIR_CNT,
    F.rime_PAIR_MISMATCH_CNT, F.rime_PAIR_ORPHAN_CNT, F.rime_POST_DROP_CNT, F.rime_CHECK_SKIP_CNT, F.rime_HB_MISS_CNT,
    F.rime_ST_SLICE_CNT, F.rime_ST_DEFER_CNT, F.rime_WO_RUN_CNT, F.rime_WO_SKIP_CNT]

end Sys2Proof.Machine
end

