-- ==== Sys2Proof/Machine/Sec.lean ====
section
/-!
DEFINITION. The security engine: fuse commands (R417, R435), context keys (R430), KEKs and management keys (R431,
R432), job-key slots (R433, R434), identity leaves (R424–R426), quotes (R427), the DRBG (R429).
Choices of the model: log entries 75, 147, 148, 149, 150, 212, 214, 217.
-/

namespace Sys2Proof.Machine

/-- An event of the security engine. -/
def Dev.secEvent (d : Dev) (status : Nat) (detail : Bytes) : Dev := d.event 0x0D 0 status detail 0 true

/-! ### Derived keys (R429, Table 15.7) -/

/-- The unique device secret (R417). -/
def uds : Bytes := (List.range 32).map Config.deviceSecret

/-- The ASCII bytes of a label. -/
def ascii (s : String) : Bytes := s.toList.map (fun c => byte c.toNat)

/-- The identity seed. -/
def identitySeed : Bytes := Crypto.kdf uds (ascii "AF7-ID") 1
/-- The KEM seed d, z. -/
def kemSeed : Bytes := Crypto.kdf uds (ascii "AF7-KEM") 2
/-- The flash-state key. -/
def flashKey : Bytes := Crypto.kdf uds (ascii "AF7-FS") 1

/-- The 1,568-byte ML-KEM encapsulation key (R431). -/
def kemPublic : Bytes := padTo 1568 (Config.mlkemPublic kemSeed)

/-- The 60-byte identity public key (R424). -/
def identityKey : Bytes := padTo 60 (Config.identityPublic identitySeed)

/-! ### Fuse commands (R417, R435) -/

/-- The result of a SEC_CMD or CK_CMD. -/
def Dev.secResult (d : Dev) (v : Nat) : Dev := d.p B.sec F.sec_SEC_RESULT v

/-- SVN_ADVANCE: the argument lies above SVN_MIN and at or below the SVN of the running firmware, within the 64 fuse
bits. -/
def svnAdvance (d : Dev) (o : Otp) (a : Nat) : Dev × Otp :=
  if !d.domUp Dom.security then (d, o)
  else if o.svnMin < a ∧ a ≤ d.sec.fwSvn ∧ a ≤ 64 then (d.secResult 0, { o with svnMin := a })
  else (d.secResult 0x0905, o)

/-- REVOKE_ROOT, refused for the root of the running firmware. -/
def revokeRoot (d : Dev) (o : Otp) (i : Nat) : Dev × Otp :=
  if !d.domUp Dom.security then (d, o)
  else if 4 ≤ i ∨ i = d.sec.fwRoot then (d.secResult 0x0905, o)
  else (d.secResult 0, { o with rootRevoke := Nat.lor o.rootRevoke (2 ^ i) })

/-- PROVISION_LOCK, accepted with at least one KEK slot and one management key VALID. -/
def provisionLock (d : Dev) (o : Otp) : Dev × Otp :=
  if !d.domUp Dom.security then (d, o)
  else if o.lifecycle = 0 ∧ d.sec.keks ≠ [] ∧ d.sec.mkeys ≠ [] then (d.secResult 0, { o with lifecycle := 1 })
  else (d.secResult 0x0905, o)

/-- RETIRE. -/
def retire (d : Dev) (o : Otp) : Dev × Otp :=
  if !d.domUp Dom.security then (d, o) else (d.secResult 0, { o with lifecycle := max o.lifecycle 2 })

/-- A write of SEC_CMD (Table 15.9): ignored without its key; an operation the table does not name does nothing. -/
def secCommand (d : Dev) (o : Otp) (w : Nat) : Dev × Otp :=
  if bits w 31 16 ≠ 0xA5C3 then (d, o)
  else match bits w 3 0 with
    | 1 => svnAdvance d o (bits w 10 4)
    | 2 => revokeRoot d o (bits w 10 4)
    | 3 => provisionLock d o
    | 4 => retire d o
    | _ => (d, o)

/-! ### The random bit generator and context keys (R429, R430) -/

/-- A random word of the DRBG. -/
def Dev.draw32 (d : Dev) : Nat × Dev :=
  (leNat ((List.range 4).map (fun i => Config.drbg (d.serial * 4 + i))), { d with serial := d.serial + 1 })

/-- New keys for a context: no key number is used twice. -/
def Dev.drawKeys (d : Dev) (c : Nat) : Dev :=
  { d with keyDraws := d.keyDraws + 1, ctxKey := Tab.set 0 d.ctxKey c (d.keyDraws + 1) }

/-- CK_GO for a context (R430). -/
def Dev.ckGo (d : Dev) (c : Nat) : Dev :=
  if !d.domUp Dom.security then d
  else if d.ctxState c ≠ 0 then d.secResult 0x0905
  else if !d.gb B.sec F.sec_DRBG_OK then d.secResult 0x0909
  else ((d.drawKeys c).p B.sec F.sec_KEY_GEN (d.g B.sec F.sec_KEY_GEN c + 1) c).secResult 0

/-- SEC_ENTROPY: a health test fails (R429). -/
def Dev.secEntropy (d : Dev) (test : Nat) : Dev :=
  if d.domUp Dom.security then
    ((d.pb B.sec F.sec_DRBG_OK false).inc B.sec F.sec_ENTROPY_FAIL_CNT).secEvent 0x0909 (dtl [(1, test)])
  else d

/-- ENTROPY_SOURCE_PASS (R429). -/
def Dev.entropyPass (d : Dev) : Dev := if d.domUp Dom.security then d.pb B.sec F.sec_DRBG_OK true else d

/-! ### KEKs and management keys (R431, R432) -/

/-- A dictionary entry as it is held, or its default. -/
def Dev.persD (d : Dev) (idx sub : Nat) (dflt : Bytes) : Bytes := d.pers.getD (idx * 256 + sub) dflt

/-- A dictionary entry set, in canonical form against its default. -/
def Dev.setPers (d : Dev) (idx sub : Nat) (dflt v : Bytes) : Dev :=
  { d with pers := Tab.set dflt d.pers (idx * 256 + sub) v }

/-- The KEM ciphertext of slot `k`. -/
def Dev.kekCipher (d : Dev) (k : Nat) : Bytes :=
  d.persD (0x8010 + k) 1 (zeros 784) ++ d.persD (0x8010 + k) 2 (zeros 784)

/-- The check value of a KEK: the first 8 bytes of the encryption of 16 zero bytes (R431). -/
def kekCheck (key : Bytes) : Bytes := (Crypto.aesEnc key (zeros 16)).take 8

/-- KEK_COMMIT: the slot's ciphertext is decapsulated and its KEK derived (R431). -/
def Dev.kekCommit (d : Dev) (k : Nat) : Dev :=
  if !d.domUp Dom.security ∨ 4 ≤ k then d
  else
    let key := Crypto.kdf (Config.mlkemDecap kemSeed (d.kekCipher k)) (ascii "AF7-KEK") 1
    { d with sec := { d.sec with keks := d.sec.keks.put k key } }

/-- KEK_ERASE: the slot is EMPTY and its ciphertext zero. -/
def Dev.kekErase (d : Dev) (k : Nat) : Dev :=
  if !d.domUp Dom.security ∨ 4 ≤ k then d
  else
    let d := (d.setPers (0x8010 + k) 1 (zeros 784) (zeros 784)).setPers (0x8010 + k) 2 (zeros 784) (zeros 784)
    { d with sec := { d.sec with keks := d.sec.keks.del k } }

/-- A failed unwrap is counted. -/
def Dev.unwrapFail (d : Dev) : Dev := d.inc B.sec F.sec_UNWRAP_FAIL_CNT

/-- The wrapped management key `m` unwrapped under its KEK; a failure leaves the slot EMPTY (R432). -/
def Dev.mkeyUnwrap (d : Dev) (m : Nat) : Dev :=
  let k := leNat (d.persD (0x8020 + m) 2 [0])
  let w := d.persD (0x8020 + m) 1 (zeros 40)
  match (d.sec.keks.get? k).bind (fun key => Crypto.kwUnwrap key w) with
  | some key => { d with sec := { d.sec with mkeys := d.sec.mkeys.put m key } }
  | none =>
    { (d.unwrapFail.secEvent 0x0904 (dtl [(1, m), (1, k)])) with sec := { d.sec with mkeys := d.sec.mkeys.del m } }

/-- MANAGEMENT_KEY_UNWRAP: the KEK index of key `m` is written and the key unwrapped (R432). -/
def Dev.mkeyIndex (d : Dev) (m v : Nat) : Dev :=
  if !d.domUp Dom.security ∨ 8 ≤ m ∨ 4 ≤ v then d else (d.setPers (0x8020 + m) 2 [0] [byte v]).mkeyUnwrap m

/-- At boot every slot that holds a ciphertext is decapsulated, and every management key that is provisioned is
unwrapped (R421, R431, R432). -/
def Dev.keysAtBoot (d : Dev) : Dev :=
  let d := (List.range 4).foldl (fun d k => if d.kekCipher k = zeros 1568 then d else d.kekCommit k) d
  (List.range 8).foldl (fun d m =>
    if d.persD (0x8020 + m) 1 (zeros 40) = zeros 40 then d else d.mkeyUnwrap m) d

/-! ### The identity state record (R425, Table 15.5) -/

/-- The bytes of a record. -/
def idRecord (gen next : Nat) (hwm : List Nat) : Bytes :=
  let b := record 56 [(0, natLE 4 0x53544449), (4, natLE 4 gen), (8, natLE 4 next), (16, hwm.flatMap (natLE 4))]
  b ++ (Crypto.cmac flashKey b).take 8

/-- A copy is valid: MAGIC matches and TAG verifies. -/
def idValid (b : Bytes) : Bool :=
  b.length == 64 && fieldN b 0 4 == 0x53544449 && (Crypto.cmac flashKey (b.take 56)).take 8 == b.drop 56

/-- The current copy: the valid one with the higher GEN. -/
def Flash.idCurrent (f : Flash) : Option (Nat × Bytes) :=
  let a := (f.ids.get? 0).filter idValid
  let b := (f.ids.get? 1).filter idValid
  match a, b with
  | some x, some y => if fieldN x 4 4 < fieldN y 4 4 then some (1, y) else some (0, x)
  | some x, none => some (0, x)
  | none, some y => some (1, y)
  | none, none => none

/-- JOB_HWM of the current record, one for each KEK slot. -/
def Flash.hwm (f : Flash) : List Nat :=
  match f.idCurrent with
  | some c => (List.range 4).map (fun k => fieldN c.2 (16 + 4 * k) 4)
  | none => [0, 0, 0, 0]

/-- NEXT_FREE of the current record. -/
def Flash.nextFree (f : Flash) : Nat :=
  match f.idCurrent with
  | some c => fieldN c.2 8 4
  | none => 0

/-- The copy that the next write of the identity state goes to: the older one. -/
def Dev.idSlot (d : Dev) : Nat := match d.flash.idCurrent with
  | some x => 1 - x.1
  | none => 0

/-- The record written over the older copy; an interrupted or failed write leaves the current copy in force. -/
def Dev.idWrite (d : Dev) (next : Nat) (hwm : List Nat) (ok : Bool) : Dev :=
  let c := d.flash.idCurrent
  let slot := d.idSlot
  let gen := match c with
    | some x => fieldN x.2 4 4 + 1
    | none => 1
  if ok then
    ({ d with flash := { d.flash with ids := d.flash.ids.put slot (idRecord gen next hwm) } }).p B.sec
      F.sec_ID_NEXT_FREE next
  else { d with flash := { d.flash with ids := d.flash.ids.del slot } }

/-- First leaf that is never handed out: 2³⁰ signatures (R424). -/
def leafEnd : Nat := 2 ^ 30

/-- The leaf N a reservation starts at (R425, step 1); the flag says that no copy was valid. -/
def idFirst (d : Dev) (o : Otp) : Nat × Bool :=
  match d.flash.idCurrent with
  | some c => (max (fieldN c.2 8 4) (o.idEpoch * 2 ^ 22), false)
  | none => ((o.idEpoch + 1) * 2 ^ 22, true)

/-- ID_READY: a reserved block holds unused leaves and its lower tree is held (Table 15.9). -/
def Dev.idReady (d : Dev) : Dev :=
  let n := d.g B.sec F.sec_ID_NEXT_LEAF
  d.pb B.sec F.sec_ID_READY (decide (n < d.sec.blockEnd) && decide (d.sec.tree = some (n / 2 ^ 15)))

/-- A reservation of 1,024 leaves (R425). `ok` says that the flash write is read back right. -/
def idReserve (d : Dev) (o : Otp) (ok : Bool) : Dev × Otp :=
  let f := idFirst d o
  let n := f.1
  let ep := max o.idEpoch (min 255 (n / 2 ^ 22))
  let d := if f.2 then d.secEvent 0x0906 (dtl [(1, min 255 (n / 2 ^ 22))]) else d
  if leafEnd ≤ n then
    ((({ d with sec := { d.sec with exhausted := true, blockEnd := 0 } }).secEvent 0x0907 (zeros 16)).idReady, o)
  else
    let hwm := d.flash.hwm
    let copy := d.idSlot
    let d := d.idWrite (n + 1024) hwm ok
    if !ok then (d.secEvent 0x090B (dtl [(1, copy)]), { o with idEpoch := ep })
    else
      let d := d.p B.sec F.sec_ID_NEXT_LEAF n
      let t := n / 2 ^ 15
      let s := { d.sec with blockEnd := n + 1024, treeGen := if d.sec.tree = some t then none else some t
                            tree := if d.sec.tree = some t then some t else none }
      (({ d with sec := s }).idReady, { o with idEpoch := ep })

/-- IDENTITY_RESERVE: firmware reserves a block where none is held or the current one is used up. -/
def identityReserve (d : Dev) (o : Otp) (ok : Bool) : Dev × Otp :=
  if !d.domUp Dom.security || d.sec.exhausted || decide (d.g B.sec F.sec_ID_NEXT_LEAF < d.sec.blockEnd)
      || decide (d.g B.sec F.sec_BOOT_STEP < 6) then (d, o)
  else idReserve d o ok

/-- LOWER_TREE_DONE (R426). -/
def Dev.lowerTreeDone (d : Dev) : Dev :=
  match d.sec.treeGen with
  | some t => if d.domUp Dom.security then
      ({ d with sec := { d.sec with tree := some t, treeGen := none } }).idReady else d
  | none => d

/-! ### Quotes (R427) -/

/-- A NONCE write; the answer is a dictionary code: 0 accepted, 9 KR_BUSY, 8 KR_STATE. `minMs` is QUOTE_MIN_MS. -/
def Dev.nonceWrite (d : Dev) (nonce : Bytes) : Dev × Nat :=
  let minMs := leNat (d.persD 0x1050 6 (natLE 2 1000))
  if !d.domUp Dom.security || d.sec.exhausted then (d, 8)
  else if !d.gb B.sec F.sec_ID_READY || d.sec.quoteRun.isSome ||
      (match d.sec.nonceAt with
       | some t => decide (d.varve < t + minMs * 1000000)
       | none => false) then (d, 9)
  else
    let n := padTo 32 nonce
    ({ d with sec := { d.sec with quoteRun := some n, nonce := n, nonceAt := some d.varve } }, 0)

/-- The 256 bytes a quote signs (Table 15.6). -/
def quoteBody (d : Dev) (o : Otp) (nonce : Bytes) (seq leaf : Nat) : Bytes :=
  record 256 [(0, natLE 4 0x544F5551), (4, [0x01]), (5, [byte o.lifecycle]), (6, [byte d.pkgId]),
    (7, [byte o.svnMin]), (8, natLE 4 d.sec.fwSvn), (0xC, natLE 4 d.sec.bootId), (0x10, natLE 4 seq),
    (0x14, natLE 4 leaf), (0x18, natLE 8 d.varve), (0x20, nonce),
    (0x40, (List.range 32).flatMap (fun i => natLE 4 (d.g B.sec F.sec_MEAS i))),
    (0xC0, Crypto.sha256 kemPublic), (0xE0, natLE 4 Config.romRevision), (0xE4, natLE 4 d.sec.fwVersion)]

/-- QUOTE_COMPLETE: the quote is signed with the next leaf and its number advances (R427). -/
def quoteComplete (d : Dev) (o : Otp) : Dev :=
  match d.sec.quoteRun with
  | none => d
  | some nonce =>
    if !d.domUp Dom.security || !d.gb B.sec F.sec_ID_READY then d
    else
      let leaf := d.g B.sec F.sec_ID_NEXT_LEAF
      let seq := add32 d.sec.quoteSeq 1
      let body := quoteBody d o nonce seq leaf
      let sig := padTo 3284 (Config.identitySign identitySeed leaf body)
      let d := (d.p B.sec F.sec_ID_NEXT_LEAF (leaf + 1)).inc B.sec F.sec_ID_SIGNED
      ({ d with sec := { d.sec with quoteRun := none, quoteSeq := seq, quote := padTo 4096 (body ++ sig) } }).idReady

/-! ### Job-key slots (R433, R434) -/

/-- The result of a slot command. -/
def Dev.jkResult (d : Dev) (v : Nat) : Dev := d.p B.sec F.sec_JK_STATUS v

/-- LOAD of a blob into slot `s` under the five checks of R433; `ok` says that the record's write is read back
right. -/
def Dev.jkLoad (d : Dev) (s : Nat) (blob : Bytes) (ok : Bool) : Dev :=
  if !d.domUp Dom.security ∨ 256 ≤ s then d
  else if d.slotState s = 1 then d.jkResult 0x0905
  else
    let k := fieldN blob 0 1
    match (d.sec.keks.get? k).bind (fun key => Crypto.kwUnwrap key ((blob.drop 8).take 56)) with
    | none => d.unwrapFail.jkResult 0x0904
    | some p =>
      let job := fieldN p 32 4
      let peers := fieldN p 40 8
      if fieldN p 36 1 ≠ d.pkgId ∨ !bit peers d.pkgId then d.jkResult 0x0904
      else if job ≤ d.flash.hwm.getD k 0 then d.jkResult 0x090A
      else
        let d := d.idWrite d.flash.nextFree (d.flash.hwm.set k job) ok
        if !ok then d.jkResult 0x090B
        else
          let d := ((d.p B.sec F.sec_JK_STATE 1 s).p B.sec F.sec_JK_PEERS peers s).jkResult 0
          { d with jobKeys := d.jobKeys.put s (p.take 32), nonceCtr := d.nonceCtr.del s,
                   replays := Tab.clear d.replays (s * 64) (s * 64 + 64) }

/-- ERASE of slot `s`. -/
def Dev.jkErase (d : Dev) (s : Nat) : Dev :=
  if !d.domUp Dom.security ∨ 256 ≤ s then d
  else
    let d := ((d.p B.sec F.sec_JK_STATE 0 s).p B.sec F.sec_JK_PEERS 0 s).jkResult 0
    { d with jobKeys := d.jobKeys.del s }

/-- FAIL of slot `s`: a LOADED slot enters FAILED. -/
def Dev.jkFail (d : Dev) (s : Nat) : Dev :=
  if !d.domUp Dom.security ∨ 256 ≤ s then d
  else if d.slotState s = 1 then (d.p B.sec F.sec_JK_STATE 2 s).jkResult 0
  else d.jkResult 0x0905

/-- SEC_CNT_CLR (R436). -/
def Dev.secCntClr (d : Dev) : Dev :=
  if d.domUp Dom.security then
    d.clearFlds B.sec [F.sec_SEC_WORLD_CNT, F.sec_UNWRAP_FAIL_CNT, F.sec_ENTROPY_FAIL_CNT, F.sec_SLOT_CMD_REJ_CNT]
  else d

end Sys2Proof.Machine
end

