-- ==== Sys2Proof/Machine/Coll.lean ====
section
/-!
DEFINITION. Collectives (R222, R347–R351): requests of Table 12.6, the binomial tree, combining, retransmission,
timeouts and aborts.
Choices of the model: log entries 100, 101, 102, 103, 104, 105.
-/

namespace Sys2Proof.Machine

/-! ### Fields of a request (Table 12.6) -/

namespace CollReq
def op (x : Bytes) : Nat := fieldN x 0 1
def flags (x : Bytes) : Nat := fieldN x 1 1
def slot (x : Bytes) : Nat := fieldN x 2 1
def ctx (x : Bytes) : Nat := fieldN x 3 1 % 16
def id (x : Bytes) : Nat := fieldN x 4 4
def src (x : Bytes) : Nat := fieldN x 8 8
def dst (x : Bytes) : Nat := fieldN x 0x10 8
def len (x : Bytes) : Nat := fieldN x 0x18 4
def fmt (x : Bytes) : Nat := fieldN x 0x1C 1
def red (x : Bytes) : Nat := fieldN x 0x1D 1
def k (x : Bytes) : Nat := fieldN x 0x1E 2
def statusVa (x : Bytes) : Nat := fieldN x 0x20 8
def sig (x : Bytes) : Nat := fieldN x 0x28 2
def sigIncr (x : Bytes) : Nat := fieldN x 0x2C 4
def core (x : Bytes) : Nat := fieldN x 0x30 2
def workBase (x : Bytes) : Nat := fieldN x 0x32 2
def workLen (x : Bytes) : Nat := fieldN x 0x34 2
/-- TMO_MS in ns; 0 means 100 ms. -/
def tmo (x : Bytes) : Nat := (if fieldN x 0x36 2 = 0 then 100 else fieldN x 0x36 2) * 1000000

/-- Identity of a collective within the package: slot and COLL_ID. -/
def key (x : Bytes) : Nat := slot x * 2 ^ 32 + id x

/-- The result is delivered at rank 0 only: ROOT_ONLY of a REDUCE or a TOPK_MERGE. -/
def rootOnly (x : Bytes) : Bool := (op x == 2 || op x == 3) && bit (flags x) 0

/-- Sums of a REDUCE, whose partial values are wider than the elements (R349). -/
def sums (x : Bytes) : Bool := op x == 2 && red x == 0

/-- The element format of a REDUCE. -/
def elem (x : Bytes) : Fmt := (Fmt.ofCode (fmt x)).getD .fp32

/-- Bytes a granule of the vector takes in a message: partial sums of BF16 travel as FP32, and those of INT32 as two
planes of 16-bit halves, so that each is converted or saturated once, at delivery (R349). -/
def wide (x : Bytes) : Nat := if sums x && (fmt x == 8 || fmt x == 6) then 128 else 64

/-- The formats of a TOPK_MERGE key (R212). -/
def keyFmt (x : Bytes) : Bool :=
  match Fmt.ofCode (fmt x) with
  | some f => !f.isMx
  | none => false

/-- Bits of the key format. -/
def keyBits (x : Bytes) : Nat := (elem x).bits

/-- The first field of a request that breaks Table 12.6, by its offset. -/
def bad (x : Bytes) : Option Nat :=
  let o := op x
  if o = 0 ∨ 4 < o then some 0
  else if flags x / 2 ≠ 0 then some 1
  else if 16 ≤ fieldN x 3 1 then some 3
  else if 2 ^ 48 ≤ src x ∨ (o = 1 ∧ src x ≠ 0) then some 8
  else if 2 ^ 48 ≤ dst x then some 0x10
  else if len x % 64 ≠ 0 ∨ (o = 3 ∧ len x ≠ Desc.recordBytes (k x) (keyBits x) true) then some 0x18
  else if (o = 2 ∧ fmt x ≠ 6 ∧ fmt x ≠ 8 ∧ fmt x ≠ 9) ∨ (o = 3 ∧ !keyFmt x) then some 0x1C
  else if o = 2 ∧ 2 < red x then some 0x1D
  else if (o = 3 ∧ (k x = 0 ∨ 1024 < k x)) ∨ (o ≠ 3 ∧ k x ≠ 0) then some 0x1E
  else if 2 ^ 48 ≤ statusVa x then some 0x20
  else if bit (sig x) 14 then some 0x28
  else if fieldN x 0x2A 2 ≠ 0 then some 0x2A
  else if bit (sig x) 15 ∧ sigIncr x = 0 then some 0x2C
  else if 512 ≤ core x then some 0x30
  else if workLen x < 3 * (len x / 64) ∨ 16384 < workBase x + workLen x then some 0x34
  else if 10000 < fieldN x 0x36 2 then some 0x36
  else if fieldN x 0x38 8 ≠ 0 then some 0x38
  else none
end CollReq

/-! ### Ranks (R348) -/

/-- Stream and translation cache of a collective's accesses: those of the management cluster. -/
def collSid : Nat := 0x270
def collCache : Nat := 10

/-- The packages of a slot's peer set in order of rank. -/
def Dev.collMembers (d : Dev) (slot : Nat) : List Nat := members (d.slotPeers slot)

/-- Rank of a package: its position in the peer set. -/
def Dev.collRank (d : Dev) (slot q : Nat) : Nat := (d.collMembers slot).idxOf q

/-- The children of a rank in the binomial tree over `n` ranks. -/
def collKids (n i : Nat) : List Nat := (List.range n).filter (fun j => j != 0 && Nat.land j (j - 1) == i)

/-- The collective of an identity. -/
def Dev.coll (d : Dev) (id : Nat) : Option Coll := (d.colls.find? (fun c => c.1 == id)).map (·.2)

/-- A collective replaced. -/
def Dev.setColl (d : Dev) (id : Nat) (c : Coll) : Dev :=
  { d with colls := d.colls.map (fun x => if x.1 == id then (id, c) else x) }

/-! ### Messages (R348, R350) -/

/-- Granules of a message a packet carries. -/
def collPiece : Nat := 15

/-- A message of this package under a slot: its header and data, sealed afresh (R350). -/
def Dev.collMsg (d : Dev) (dst slot vc pmap : Nat) (payload : Bytes) : Dev :=
  (d.sendMsg { dst := dst, src := d.pkgId, kind := 8, slot := slot, addr := 0, pmap := pmap, payload := payload } vc).1

/-- The packet of a message piece put on its route; a piece that finds no route waits for its retransmission. -/
def Dev.collPut (d : Dev) (m : CollTx) : Dev := d.collMsg m.dst m.slot m.vc m.pmap m.payload

/-- The header a message piece begins with: direction, rank, piece, COLL_ID, number of pieces. -/
def collHead (dir rank chunk id count : Nat) : Bytes :=
  [byte dir, byte rank] ++ natLE 2 chunk ++ natLE 4 id ++ natLE 4 count ++ zeros 4

/-- A poison bit for each granule, as a number. -/
def poisonMap (bad : List Bool) : Nat := bad.foldr (fun b m => b2n b + 2 * m) 0

/-- A message sent to a rank: its pieces are sent and kept until each is acknowledged. -/
def Dev.collSend (d : Dev) (x : Bytes) (dir rank : Nat) (data : Bytes) (bad : List Bool) : Dev :=
  let slot := CollReq.slot x
  let dst := (d.collMembers slot).getD rank 0
  let vc := if CollReq.op x = 1 ∨ CollReq.op x = 3 then 1 else 3
  let cs := if data.isEmpty then [([], [])] else (chunks (collPiece * CollReq.wide x) data).zip (chunks collPiece bad)
  cs.zipIdx.foldl (fun d c =>
    let m : CollTx :=
      { coll := CollReq.key x, dir := dir, chunk := c.2, dst := dst, slot := slot, vc := vc, since := d.varve
        pmap := poisonMap c.1.2
        payload := collHead dir (d.collRank slot d.pkgId) c.2 (CollReq.id x) cs.length ++ c.1.1 }
    { d with collTx := d.collTx ++ [m] }.collPut m) d

/-- A whole message held from a rank: its data and poisoned granules. -/
def Dev.collHeld (d : Dev) (id dir rank gran : Nat) : Option (Bytes × List Bool) :=
  let ps := d.collRx.filter (fun r => r.coll == id && r.dir == dir && r.rank == rank)
  match ps with
  | [] => none
  | p :: _ =>
    if ps.length < p.count then none
    else
      let l := (List.range p.count).filterMap (fun i => ps.find? (fun r => r.chunk == i))
      some (l.flatMap (·.data), l.flatMap (fun r => (List.range (r.data.length / gran)).map (fun g => bit r.pmap g)))

/-! ### Values in messages (R349) -/

/-- The granules of a value at one of the places a wide granule has: 64 bytes of every `w`. -/
def collPart (w c : Nat) (b : Bytes) : Bytes := (chunks w b).flatMap (fun g => (g.drop (64 * c)).take 64)

/-- The parts of a value put together granule by granule. -/
def collJoin (n : Nat) (ps : List Bytes) : Bytes :=
  (List.range n).flatMap (fun g => ps.flatMap (fun p => (p.drop (64 * g)).take 64))

/-- The local contribution as a message carries it: the elements of a sum widened granule by granule. -/
def collWiden (x : Bytes) (data : Bytes) : Bytes :=
  if !CollReq.sums x then data
  else if CollReq.fmt x = 8 then
    (chunks 64 data).flatMap (fun g =>
      (chunks 4 g).flatMap (fun c => natLE 4 (leNat c % 65536)) ++
      (chunks 4 g).flatMap (fun c => natLE 4 (unsint 32 (sint 32 (leNat c) / 65536))))
  else if CollReq.fmt x = 6 then (chunks 2 data).flatMap (fun c => natLE 4 (leNat c * 65536))
  else data

/-- The combined value converted for delivery: INT32 saturated, BF16 converted (R68, R75, R349). -/
def collNarrow (x : Bytes) (data : Bytes) : Bytes :=
  if !CollReq.sums x then data
  else if CollReq.fmt x = 8 then
    (chunks 128 data).flatMap (fun g => (List.range 16).flatMap (fun i =>
      natLE 4 (encodeOut .int32 (Val.ofInt (sint 32 (fieldN g (4 * i) 4) + 65536 * sint 32 (fieldN g (64 + 4 * i) 4)))).1))
  else if CollReq.fmt x = 6 then
    (chunks 4 data).flatMap (fun c => natLE 2 (encodeOut .bf16 (decodeRaw .fp32 (leNat c))).1)
  else data

/-! ### Combine descriptors (R222, R349) -/

/-- The ELEMENTWISE of a REDUCE step: LEN bytes of A and of B combined behind them, sums of wide parts in FP32 or
INT32. -/
def collReduceDesc (x : Bytes) : Desc :=
  let g := CollReq.len x / 64
  let f := if CollReq.sums x && CollReq.fmt x == 6 then 9 else CollReq.fmt x
  let bits := ((Fmt.ofCode f).getD .fp32).bits
  record 64 [(0, [0x20]), (1, [if CollReq.red x = 0 then 0 else byte (CollReq.red x + 2)]), (2, [byte (f * 17)]),
    (3, [byte f]), (4, natLE 2 (CollReq.ctx x)), (8, natLE 2 (CollReq.workBase x)), (0xA, natLE 2 g),
    (0xC, natLE 2 (CollReq.workBase x + g)), (0xE, natLE 2 g), (0x10, natLE 2 (CollReq.workBase x + 2 * g)),
    (0x12, natLE 2 g), (0x28, natLE 4 (CollReq.len x * 8 / bits)), (0x30, natLE 4 0x3F800000)]

/-- The merge-mode TOPK of a merge step: `n` records in `len` granules of the work area, the output behind them. -/
def collMergeDesc (x : Bytes) (n len : Nat) : Desc :=
  let g := CollReq.len x / 64
  record 64 [(0, [0x30]), (2, [byte (CollReq.fmt x)]), (4, natLE 2 (CollReq.ctx x)), (8, natLE 2 (CollReq.workBase x)),
    (0xA, natLE 2 len), (0x10, natLE 2 (CollReq.workBase x + 2 * g)), (0x12, natLE 2 g),
    (0x28, natLE 2 (CollReq.k x)), (0x2A, [1, 1]), (0x2E, natLE 2 n)]

/-- Granules of a record by its own K (R214, R216), at most LEN: a longer one is cut and is invalid under R218. -/
def collRecLen (x r : Bytes) : Nat :=
  min (CollReq.len x) (Desc.recordBytes (fieldN r 4 2) (CollReq.keyBits x) true) / 64

/-- Counts that the record of a merge inherits from those of its inputs that merges of this collective made: sums, and
UNDERSIZED and INCOMPLETE ORed (R222). -/
def collInherit (r : Bytes) (ms : List Bytes) : Bytes :=
  let sum := fun (o n : Nat) => min (ms.foldl (fun a i => a + fieldN i o n) (fieldN r o n)) (2 ^ (8 * n) - 1)
  let fl := ms.foldl (fun a i => Nat.lor a (Nat.land (fieldN i 7 1) 6)) (fieldN r 7 1)
  patch (patch (patch (patch r 7 [byte fl]) 0xC (natLE 2 (sum 0xC 2))) 0xE (natLE 2 (sum 0xE 2))) 0x10
    (natLE 4 (sum 0x10 4))

/-- Combine steps a rank makes of its own value and those of `kids` children: for REDUCE a descriptor for each part of
each child's value; for TOPK_MERGE a merge for each child, and one at a root that has none. -/
def collSteps (x : Bytes) (root : Bool) (kids : Nat) : Nat :=
  match CollReq.op x with
  | 2 => if CollReq.len x = 0 then 0 else kids * (CollReq.wide x / 64)
  | 3 => if kids = 0 ∧ root then 1 else kids
  | _ => 0

/-- The descriptor of the step of a collective that comes next, and the buffers it reads, each at its granule of the
work area; `ups` are the children's values. A record follows the one before it (R216); SRC_A ends with LEN bytes of the
last, so that a record longer than LEN is invalid. -/
def Coll.stepIn (c : Coll) (ups : List (Bytes × List Bool)) : Desc × List (Nat × Bytes × List Bool) :=
  let x := c.req
  let g := CollReq.len x / 64
  let acc := (c.acc.orElse (fun _ => c.mine)).getD ([], [])
  if CollReq.op x = 3 then
    let l := collRecLen x acc.1
    match ups[c.step]? with
    | some u =>
      if CollReq.len x < Desc.recordBytes (fieldN acc.1 4 2) (CollReq.keyBits x) true then
        (collMergeDesc x 2 g, [(0, acc)])
      else (collMergeDesc x 2 (l + g), [(0, acc), (l, u)])
    | none => (collMergeDesc x 1 g, [(0, acc)])
  else
    let w := CollReq.wide x / 64
    let part := fun (v : Bytes × List Bool) => (collPart (64 * w) (c.step % w) v.1, v.2)
    (collReduceDesc x, [(0, part acc), (g, part (ups.getD (c.step / w) ([], [])))])

/-- A step has ended with the output `o`; `made` are the inputs that merges of the collective made. -/
def Coll.stepOut (c : Coll) (o : Bytes × List Bool) (made : List Bytes) : Coll :=
  let x := c.req
  let g := CollReq.len x / 64
  let c := { c with job := none, step := c.step + 1 }
  if CollReq.op x = 3 then { c with acc := some (collInherit o.1 made, o.2) }
  else
    let ps := c.parts ++ [o]
    if ps.length < CollReq.wide x / 64 then { c with parts := ps }
    else { c with parts := [], acc := some (collJoin g (ps.map (·.1)),
                                             (List.range g).map (fun i => ps.any (fun p => p.2.getD i false))) }

/-! ### Ending (R351) -/

/-- The status record of a collective (R351). -/
def collRecord (status detail time rank peers : Nat) : Bytes :=
  natLE 2 status ++ natLE 2 0 ++ natLE 4 detail ++ natLE 4 time ++ [byte rank, byte peers] ++ natLE 2 0

/-- The status record is written and the object signalled; the outcome is counted, and a completion with a top-k status
raises an event (R223). -/
def Dev.collReport (d : Dev) (x : Bytes) (status detail : Nat) : Dev :=
  let c := CollReq.ctx x
  let slot := CollReq.slot x
  let r := collRecord status detail d.t32 (d.collRank slot d.pkgId) (d.collMembers slot).length
  let w := d.vaWrite collCache c collSid (CollReq.statusVa x) r []
  let d := if bit (CollReq.sig x) 15 then w.1.signalChecked (CollReq.sig x % 2 ^ 14) collSid c (d.ctxSecure c)
      (CollReq.sigIncr x)
    else w.1
  let d := if 0x0601 ≤ status ∧ status ≤ 0x0603 then d.event 0x09 0 status (dtlWord detail) c (d.ctxSecure c) else d
  d.inc B.link0 (if status = 0 then F.link0_COLL_DONE_CNT else F.link0_COLL_FAIL_CNT)

/-- A collective leaves, complete; its context may settle (R282). -/
def Dev.collDrop (d : Dev) (id : Nat) (failed : Bool) : Dev :=
  let ctx := match d.coll id with
    | some c => c.ctx
    | none => 0
  ({ d with colls := d.colls.filter (fun c => c.1 != id)
            collRx := d.collRx.filter (fun r => r.coll != id)
            collTx := if failed then d.collTx.filter (fun m => m.coll != id) else d.collTx
            collDone := d.collDone ++ [id] } : Dev).settle ctx

/-- A collective completes with a failure. One whose contribution a suspended context holds back completes with it when
the context resumes (R273). -/
def Dev.collFail (d : Dev) (id status detail : Nat) : Dev :=
  match d.coll id with
  | some c =>
    let s := d.ctxState c.ctx
    if c.started && c.mine.isNone && (s == 2 || s == 3) then
      d.setColl id { c with ended := some (c.ended.getD (status, detail)) }
    else (d.collReport c.req status detail).collDrop id true
  | none => d

/-- Every collective under a slot that has FAILED whose result is not complete completes with PEER_UNREACHABLE, naming
the package (R351). -/
def Dev.collLost (d : Dev) (slot q : Nat) : Dev :=
  (d.colls.filter (fun c => c.1 / 2 ^ 32 == slot && c.2.result.isNone)).foldl (fun d c => d.collFail c.1 0x0701 q) d

/-! ### Progress -/

/-- The local contribution is read where the context may act (R273); a translation fault of a page that is not
present leaves it waiting and suspends the context. -/
def Dev.collContribute (d : Dev) (id : Nat) : Dev :=
  match d.coll id with
  | none => d
  | some c =>
    let x := c.req
    let ctx := CollReq.ctx x
    if !c.started || c.mine.isSome || c.ended.isSome || c.parked || !d.ctxMayStart ctx then d
    else if CollReq.op x = 1 then d.setColl id { c with mine := some ([], []) }
    else
      let n := if CollReq.op x = 4 then CollReq.len x * (d.collMembers (CollReq.slot x)).length else CollReq.len x
      let r := d.vaRead collCache ctx collSid (CollReq.src x) n
      match r.2.2.2 with
      | some f =>
        if r.1.mayPark ctx f.status then
          ((r.1.setColl id { c with parked := true }).parkEvent ctx f.va 0 collSid false).ctxSettle ctx
        else r.1.collFail id f.status f.detail
      | none =>
        let bad := if CollReq.src x % 64 = 0 then r.2.2.1 else List.replicate (n / 64) (r.2.2.1.any (· == true))
        r.1.setColl id { c with mine := some (collWiden x r.2.1, bad) }

/-- A status of a combine descriptor with which its output still stands: poison and the warnings (R103, R223). -/
def collGoesOn (status : Nat) : Bool :=
  [0x0000, 0x0213, 0x0216, 0x0601, 0x0602, 0x0603].contains status

/-- The combine descriptor on CORE has ended and its record is the oldest there: firmware takes the record and the
output, or the collective fails with a status that leaves none. -/
def Dev.collJobEnd (d : Dev) (id : Nat) (ups : List (Bytes × List Bool)) : Dev :=
  match d.coll id with
  | none => d
  | some c => match c.job, (d.core (CollReq.core c.req)).cpl with
    | some slot, r :: _ =>
      if r.slot ≠ slot then d
      else
        let x := c.req
        let n := CollReq.core x
        let g := CollReq.len x / 64
        let st := fieldN r.bytes 0 2
        let d := d.cplPop n slot
        if !collGoesOn st then (d.setColl id { c with job := none }).collFail id st (fieldN r.bytes 12 4)
        else
          let b := d.padRead n (CollReq.workBase x + 2 * g) g firmware
          match b.2.2.2 with
          | some no => (b.1.setColl id { c with job := none }).collFail id no.1 no.2
          | none =>
            let me := b.1.collRank (CollReq.slot x) b.1.pkgId
            let kids := collKids (b.1.collMembers (CollReq.slot x)).length me
            let kid := match ups[c.step]?, kids[c.step]? with
              | some u, some j => if (collKids (b.1.collMembers (CollReq.slot x)).length j).isEmpty then [] else [u.1]
              | _, _ => []
            let made := (c.acc.map (·.1)).toList ++ kid
            let met := if st = 0x0601 ∨ st = 0x0602 ∨ st = 0x0603 then [(st, fieldN r.bytes 12 4)] else []
            b.1.setColl id { c.stepOut (b.2.1, b.2.2.1) made with met := c.met ++ met }
    | _, _ => d

/-- The next combine descriptor is written to CORE's queue once the core takes it, its inputs in the work area (R349). -/
def Dev.collJobStart (d : Dev) (id : Nat) (ups : List (Bytes × List Bool)) : Dev :=
  match d.coll id with
  | none => d
  | some c =>
    let x := c.req
    let n := CollReq.core x
    let s := c.stepIn ups
    if c.job.isSome || (d.submitStatus n 0 s.1).isSome then d
    else
      let w := s.2.foldl (fun (a : Dev × Option (Nat × Nat)) v =>
        let p := a.1.padWrite n (64 * (CollReq.workBase x + v.1)) firmware v.2.1 v.2.2
        (p.1, a.2.orElse (fun _ => p.2))) (d, none)
      match w.2 with
      | some no => w.1.collFail id no.1 no.2
      | none =>
        let d := w.1.enqueueDesc n s.1
        d.setColl id { c with job := (d.core n).q.getLast?.map (·.slot) }

/-- The values of a rank and of its children combined in order of rank: what has ended is taken, and the next descriptor
starts; the value once every step is done. -/
def Dev.collCombine (d : Dev) (id : Nat) (root : Bool) (ups : List (Bytes × List Bool)) :
    Dev × Option (Bytes × List Bool) :=
  let d := d.collJobEnd id ups
  match d.coll id with
  | none => (d, none)
  | some c =>
    if c.ended.isSome then (d, none)
    else if collSteps c.req root ups.length ≤ c.step then (d, c.acc.orElse (fun _ => c.mine))
    else (d.collJobStart id ups, none)

/-- A collective that has its contribution goes as far as what it holds allows: up the tree, down the tree, or block by
block. -/
def Dev.collMove (d : Dev) (id : Nat) (c : Coll) (mine : Bytes × List Bool) : Dev :=
  let x := c.req
  let slot := CollReq.slot x
  let n := (d.collMembers slot).length
  let me := d.collRank slot d.pkgId
  let kids := collKids n me
  let down := fun (d : Dev) (v : Bytes × List Bool) => kids.foldl (fun d j => d.collSend x 1 j v.1 v.2) d
  if CollReq.op x = 4 then
    let g := CollReq.len x / 64
    let block := fun (j : Nat) => ((mine.1.drop (j * CollReq.len x)).take (CollReq.len x),
      (mine.2.drop (j * g)).take g)
    let others := (List.range n).filter (· != me)
    let d := if c.sent then d
      else (others.foldl (fun d j => d.collSend x 2 j (block j).1 (block j).2) d).setColl id { c with sent := true }
    let got := (List.range n).map (fun j => if j = me then some (block me) else d.collHeld id 2 j 64)
    if got.all (·.isSome) then
      d.setColl id { c with sent := true, result := some (got.flatMap (fun b => (b.getD ([], [])).1),
                                                          got.flatMap (fun b => (b.getD ([], [])).2)) }
    else d
  else if !c.sent then
    let ups := kids.map (fun j => d.collHeld id 0 j (CollReq.wide x))
    if !ups.all (·.isSome) then d
    else
      let r := d.collCombine id (me == 0) (ups.filterMap (fun u => u))
      match r.2, r.1.coll id with
      | some v, some c =>
        let c := { c with sent := true }
        if me = 0 then
          let d := r.1.setColl id { c with result := some (collNarrow x v.1, v.2) }
          if CollReq.rootOnly x then d else down d v
        else (r.1.setColl id c).collSend x 0 (Nat.land me (me - 1)) v.1 v.2
      | _, _ => r.1
  else if CollReq.rootOnly x then
    (if d.collTx.any (fun m => m.coll == id && m.dir == 0) then d
     else d.setColl id { c with result := some ([], []) })
  else match d.collHeld id 1 (Nat.land me (me - 1)) (CollReq.wide x) with
    | none => d
    | some v => down (d.setColl id { c with result := some (collNarrow x v.1, v.2) }) v

/-- A collective goes on: what it still owes is done, or an ABORT of its context ends it (R272, R280). -/
def Dev.collStep (d : Dev) (id : Nat) : Dev :=
  let d := d.collContribute id
  match d.coll id with
  | none => d
  | some c =>
    if c.result.isSome then d
    else if d.ctxState c.ctx = 4 ∧ !d.ctxDrain c.ctx then d.collFail id 0x0206 0
    else match c.ended, c.mine with
      | none, some m => d.collMove id c m
      | _, _ => d

/-- Requests that wait start while fewer than eight are in flight (R347); one whose slot has FAILED meanwhile is
refused. -/
def Dev.collNext (d : Dev) : Nat → Dev
  | 0 => d
  | n + 1 =>
    match d.colls.find? (fun c => !c.2.started) with
    | none => d
    | some (id, c) =>
      if 8 ≤ (d.colls.filter (·.2.started)).length then d
      else if d.slotState (CollReq.slot c.req) ≠ 1 then (d.collFail id 0x0706 0xFE).collNext n
      else ((d.setColl id { c with started := true }).collStep id).collNext n

/-- Room made by a completion is used. -/
def Dev.collRoom (d : Dev) : Dev := d.collNext d.colls.length

/-- A request of this package is taken: it completes at once where an abort of it is remembered (R351) or its context
takes no submission (R262), and otherwise waits or starts. -/
def Dev.collTake (d : Dev) (x : Bytes) : Dev :=
  let id := CollReq.key x
  let c : Coll := { req := x, since := d.varve }
  let d : Dev := { d with colls := d.colls ++ [(id, c)], collDone := d.collDone.filter (· != id) }
  match d.collAborts.find? (fun a => a.1 == id) with
  | some a => ({ d with collAborts := d.collAborts.erase a } : Dev).collFail id 0x0705 a.2
  | none =>
    if d.ctxState c.ctx = 0 ∨ d.ctxState c.ctx = 4 then d.collFail id 0x0205 0 else d.collRoom

/-- A request written to COLL_SUBMIT (R347): refused with COLL_INVALID, or taken. -/
def Dev.collSubmit (d : Dev) (x : Bytes) : Dev :=
  if !d.domUp (Dom.port 0) ∨ x.length ≠ 64 then d
  else
    let refuse := fun (d : Dev) (o : Nat) => d.collReport x 0x0706 o
    match CollReq.bad x with
    | some o => refuse d o
    | none =>
      if d.colls.any (fun c => c.1 == CollReq.key x) then refuse d 0xFF
      else if d.slotState (CollReq.slot x) ≠ 1 then refuse d 0xFE
      else d.collTake x

/-- BARRIER, REDUCE, COLL_TOPK_MERGE and ALL_TO_ALL: a request of that OP. A request of no OP of the table comes with
BARRIER. -/
def Dev.collRequest (d : Dev) (op : Nat) (x : Bytes) : Dev :=
  let o := CollReq.op x
  if o = op ∨ (op = 1 ∧ (o = 0 ∨ 4 < o)) then d.collSubmit x else d

/-- The context has resumed: contributions that waited are made, and a collective that failed meanwhile completes with
its status (R273). -/
def Dev.collResume (d : Dev) (ctx : Nat) : Dev :=
  (d.colls.filter (fun c => c.2.ctx == ctx && c.2.mine.isNone)).foldl (fun d c =>
    match c.2.ended with
    | some e => (d.collFail c.1 e.1 e.2).collRoom
    | none => d.collStep c.1) d

/-- COLL_COMPLETE (R351): the collective goes on, and once its result is held it is stored, the status record written
and the object signalled. -/
def Dev.collComplete (d : Dev) (id : Nat) : Dev :=
  let d := d.collStep id
  match d.coll id with
  | none => d.collRoom
  | some c => match c.result with
    | none => d
    | some v =>
      let x := c.req
      let w := if v.1.isEmpty then (d, none) else d.vaWrite collCache (CollReq.ctx x) collSid (CollReq.dst x) v.1 v.2
      match w.2 with
      | some f => ((w.1.collReport x f.status f.detail).collDrop id false).collRoom
      | none =>
        let n := (v.2.filter (fun b => b)).length
        let s := Result.final { met := c.met, pois := n, poisFirst := v.2.idxOf true }
        ((w.1.collReport x s.1 s.2).collDrop id false).collRoom

/-! ### Messages received (R350, R351) -/

/-- An acknowledgement of a piece. -/
def Dev.collAck (d : Dev) (k : Pkt) : Dev :=
  let p := k.payload
  d.collMsg k.src k.slot 1 0 (collHead (fieldN p 0 1 + 8) (fieldN p 1 1) (fieldN p 2 2) (fieldN p 4 4) (fieldN p 8 4))

/-- A COLL packet that has passed R341: an acknowledgement, an abort, or a piece, of which the first copy is kept. -/
def Dev.collArrive (d : Dev) (k : Pkt) : Dev :=
  let p := k.payload
  let dir := fieldN p 0 1
  let rank := fieldN p 1 1
  let chunk := fieldN p 2 2
  let id := k.slot * 2 ^ 32 + fieldN p 4 4
  if p.length < 16 then d
  else if 8 ≤ dir then
    { d with collTx := d.collTx.filter (fun m =>
        !(m.coll == id && m.dir == dir - 8 && m.chunk == chunk && m.dst == k.src)) }.collStep id
  else if dir = 6 then
    match d.coll id with
    | some c => if c.result.isSome then d else (d.collFail id 0x0705 rank).collRoom
    | none =>
      if d.collDone.contains id then d
      else
        let l := d.collAborts.filter (fun a => a.1 != id) ++ [(id, rank)]
        { d with collAborts := l.drop (l.length - 64) }
  else if 2 < dir then d
  else
    let d := d.collAck k
    if d.collDone.contains id || d.collRx.any (fun r => r.coll == id && r.dir == dir && r.rank == rank && r.chunk == chunk)
    then d
    else
      let r : CollRx := { coll := id, dir := dir, rank := rank, chunk := chunk, count := fieldN p 8 4
                          data := p.drop 16, pmap := k.pmap }
      { d with collRx := d.collRx ++ [r] }.collStep id

/-- COLL_RETRANSMIT of message piece `i`: unacknowledged for 1 ms, at most three times (R350). -/
def Dev.collRetransmit (d : Dev) (i : Nat) : Dev :=
  match d.collTx[i]? with
  | none => d
  | some m =>
    if m.resends < 3 ∧ m.since + 1000000 ≤ d.varve then
      let m := { m with resends := m.resends + 1, since := d.varve }
      ({ d with collTx := d.collTx.set i m }.inc B.link0 F.link0_COLL_RETX_CNT).collPut m
    else d

/-- COLL_TIMEOUT (R351): TMO_MS after its submission a collective completes and every other member is sent
COLL_ABORT. -/
def Dev.collTimeout (d : Dev) (id : Nat) : Dev :=
  match d.coll id with
  | none => d
  | some c =>
    let x := c.req
    if c.result.isSome ∨ c.ended.isSome ∨ d.varve < c.since + CollReq.tmo x then d
    else
      let slot := CollReq.slot x
      let me := d.collRank slot d.pkgId
      let d := ((d.collMembers slot).filter (· != d.pkgId)).foldl (fun d q =>
        d.collMsg q slot 1 0 (collHead 6 me 0 (CollReq.id x) 1)) d
      (d.collFail id 0x0704 (CollReq.id x)).collRoom

/-- SYS_CNT_CLR (Table 12.9). -/
def Dev.sysCntClr (d : Dev) : Dev :=
  if d.domUp (Dom.port 0) then
    d.clearFlds B.link0 [F.link0_GCM_FAIL_CNT, F.link0_REPLAY_REJ_CNT, F.link0_REMOTE_TMO_CNT, F.link0_LATE_RESP_CNT,
      F.link0_WIN_DENY_CNT, F.link0_COLL_DONE_CNT, F.link0_COLL_FAIL_CNT, F.link0_COLL_RETX_CNT]
  else d

end Sys2Proof.Machine
end

