-- ==== Sys2Proof/Machine/Links.lean ====
section
/-!
DEFINITION. Biruf link ports: port states (R330, R333, R334), flits and retry (R331, R332), forwarding and escapes (R337,
R338), packet checks (R341), inbound windows (R111, R344), remote accesses (R345), loss of a peer (R346).
Choices of the model: log entries 50, 87, 89, 90, 92, 93, 94, 95, 96, 97, 150, 197, 198, 208, 209, 214.
-/

namespace Sys2Proof.Machine

/-! ### A remote access ends (R345) -/

/-- A link status met by the operation a remote access belongs to (R345). -/
def Dev.opMet (d : Dev) (o : OpRef) (status detail : Nat) : Dev :=
  match o with
  | .alone | .ended _ => d
  | .core n slot => d.modEntry n slot (fun e => { e with res := { e.res with met := e.res.met ++ [(status, detail)] } })
  | .ring f n => d.modRun f n (fun r => { r with met := r.met ++ [(status, detail)] })
  | .host q id _ => d.modHCmd q id (fun c => { c with met := c.met ++ [(status, detail)] })

/-- The tag of a remote access retires (R47). -/
def Dev.remoteRetire (d : Dev) (r : RemoteOp) : Dev :=
  { d with remoteOps := d.remoteOps.filter (fun o => !(o.port == r.port && o.tag == r.tag)) }

/-- A remote read has returned a granule for a write that finds no link tag free: it waits for one (R48). -/
def Dev.remoteWaits (d : Dev) (r : RemoteOp) : Bool :=
  match r.dest with
  | .store sid ctx _ pa =>
    (match ((d.remoteRetire r).fePut (sid - 0x200) ctx pa none (zeros r.size) false r.op).2 with
     | .wait => true
     | .gone .. => false)
  | _ => false

/-- Where the data of a remote read goes: a write of its engine, which may itself be remote, a GATHER row, a SUBMIT
window, or the requester. -/
def Dev.remoteDeliver (d : Dev) (r : RemoteOp) (x : Rsp) : Dev :=
  let d := match r.op with
    | .ring f n => if x.poison then d.modRun f n (fun r => { r with poison := true }) else d
    | .host q id _ => if x.poison then d.modHCmd q id (fun c => { c with poison := true }) else d
    | _ => d
  match r.dest with
  | .response => { d with resp := some x }
  | .store sid ctx secure pa =>
    let w := d.fePut (sid - 0x200) ctx pa none x.data x.poison r.op
    (match w.2 with
     | .gone s k _ => if s = 0 then w.1 else w.1.opMet r.op s k
     | .wait => { d with stalled := d.stalled ++ [(.port r.port,
         { sid := sid, ctx := ctx, secure := secure, pa := pa, wr := true, size := r.size, data := x.data
           poison := x.poison, inner := true })] })
  | .pad n off who =>
    let w := d.gatherPut n off (who.sid - 0x200) who x.data x.poison
    (match w.2 with
     | some e => w.1.opMet r.op e.1 e.2
     | none => w.1)
  | .submit n => match r.op with
    | .ring f e => d.ringDeliver f e n x.data x.poison
    | _ => d
  | .none => d

/-! ### Messages of this package (R46–R49, R293) -/

/-- A message of this package that cannot be delivered: a signal fails its job (R45, R293), a Moraine message its
exchange. -/
def Dev.lostMsg (d : Dev) (k : Pkt) : Dev :=
  if k.kind = 5 then d.signalLost k.addr k.dst k.slot 0 false
  else if k.kind = 7 then d.morLost k.dst
  else d

/-- Messages that wait for a link tag of port `p` take those that are free, in order (R48). -/
def Dev.resumeMsgs (d : Dev) (p : Nat) : Dev :=
  let mine := d.unsent.filter (fun m => m.port == p)
  mine.foldl (fun d m =>
    let r := d.sendMsg m.pkt m.vc m.fwd
    if r.2 then r.1 else r.1.lostMsg m.pkt) { d with unsent := d.unsent.filter (fun m => m.port != p) }

/-! ### A remote access ends -/

/-- A remote access completes: its tag retires, its status is noted and its data delivered. -/
def Dev.remoteEnd (d : Dev) (r : RemoteOp) (x : Rsp) : Dev :=
  let d := d.remoteRetire r
  let d := if x.status = 0 then d else d.opMet r.op x.status x.detail
  ((d.remoteDeliver r x).resumeMsgs r.port).disableSettle

/-- A remote access completes without an answer: a read returns poisoned zeros, a write counts as not made. -/
def Dev.remoteFail (d : Dev) (r : RemoteOp) (status : Nat) : Dev :=
  d.remoteEnd r ⟨if r.wr then [] else zeros r.size, !r.wr, status, r.peer⟩

/-- The access in flight that an answer of a peer names. -/
def Dev.remoteFor (d : Dev) (peer tag : Nat) : Option RemoteOp :=
  d.remoteOps.find? (fun r => r.peer == peer && wireTag r.port r.tag == tag)

/-- An answer that names no access in flight is dropped and counted (R345). -/
def Dev.lateResp (d : Dev) : Dev := d.inc B.link0 F.link0_LATE_RESP_CNT

/-- What a slot that has FAILED ends: accesses and collectives in flight under it (R346, R351). -/
def Dev.slotLost (d : Dev) (slot q : Nat) : Dev :=
  let d := (d.remoteOps.filter (fun r => r.slot == slot)).foldl (fun d r => d.remoteFail r 0x0701) d
  (d.collLost slot q).collRoom

/-- FAIL of a job-key slot with what it ends (R434, R346). -/
def Dev.slotFail (d : Dev) (s q : Nat) : Dev :=
  let was := d.slotState s
  let d := d.jkFail s
  if was = 1 ∧ d.slotState s = 2 then d.slotLost s q else d

/-- The jobs that lost signals fail (R45, R293): their slots enter FAILED. `n` bounds their number. -/
def Dev.jobsEnd (d : Dev) : Nat → Dev
  | 0 => d
  | n + 1 =>
    match d.jobsLost with
    | [] => d
    | (s, q) :: rest => (({ d with jobsLost := rest } : Dev).slotFail s q).jobsEnd n

/-- ERASE of a job-key slot with what it ends: its references behave as for a FAILED slot (R434). -/
def Dev.slotErase (d : Dev) (s : Nat) : Dev :=
  (if d.domUp Dom.security && d.slotState s == 1 then d.slotLost s d.pkgId else d).jkErase s

/-- The slot command an operation code names: 0 LOAD, 1 ERASE, 2 FAIL; 3 is ignored (Table 15.9). -/
def Dev.jkRun (d : Dev) (op s : Nat) (blob : Bytes) : Dev :=
  match op with
  | 0 => d.jkLoad s blob true
  | 1 => d.slotErase s
  | 2 => d.slotFail s d.pkgId
  | _ => d

/-- A write of the word at 0x060 of the security engine. -/
def Dev.jkCommand (d : Dev) (w : Nat) : Dev :=
  let d := (d.p B.sec F.sec_JK_SLOT (bits w 7 0)).p B.sec F.sec_JK_OP (bits w 9 8)
  if bit w 31 then d.jkRun (bits w 9 8) (bits w 7 0) d.sec.jkData else d

/-! ### Reach (R346) -/

/-- The coordinate of a package in dimension `i`. -/
def Dev.at_ (d : Dev) (q i : Nat) : Nat := d.coord q i % d.dim i

/-- The neighbour of package `q` over port `p` (R336). -/
def Dev.neighbour (d : Dev) (q p : Nat) : Nat :=
  let D := d.dim (p / 2)
  let c := fun (i : Nat) => if i = p / 2 then (d.at_ q i + (if p % 2 = 0 then 1 else D - 1)) % D else d.at_ q i
  c 0 + d.dim 0 * (c 1 + d.dim 1 * c 2)

/-- The ports toward a destination from package `q`, in the order X, Y, Z (R337). -/
def Dev.portsToward (d : Dev) (q dst : Nat) : List Nat :=
  (List.range 3).filterMap (fun i =>
    let D := d.dim i
    let o := (d.at_ dst i + D - d.at_ q i) % D
    if o = 0 then none else if o ≤ D - o then some (2 * i) else some (2 * i + 1))

/-- UP ports of a package as firmware knows them: its own by their STATE, those of others by their notices. -/
def Dev.upPorts (d : Dev) (q : Nat) : Nat :=
  if q = d.pkgId then ((List.range 6).map (fun p => if d.portUp p then 2 ^ p else 0)).sum else d.linkMap.getD q 63

/-- Packets from package `q` reach a destination under R337 and R338; `n` bounds the hops. -/
def Dev.pathTo (d : Dev) (dst : Nat) : Nat → Bool → Nat → Bool
  | 0, _, q => q == dst
  | n + 1, esc, q =>
    match d.portsToward q dst with
    | [] => true
    | p :: rest =>
      let up := d.upPorts q
      if bit up p then d.pathTo dst n esc (d.neighbour q p)
      else if esc then false
      else match ((p :: rest).filter (bit up)).min? with
        | some e => d.pathTo dst n true (d.neighbour q e)
        | none => false

/-- Packages of the torus. -/
def Dev.packages (d : Dev) : Nat := d.dim 0 * d.dim 1 * d.dim 2

/-- A peer that packets no longer reach: its slots FAIL, windows of FAILED slots close, what was in flight ends, and
the peer is named (R346). -/
def Dev.reachLoss (d : Dev) (q : Nat) : Dev :=
  let d := (List.range 256).foldl (fun d s =>
    if d.slotState s = 1 ∧ bit (d.slotPeers s) q then d.slotFail s q else d) d
  let d := (List.range 64).foldl (fun d k =>
    if d.slotState (d.g B.link0 F.link0_OUT_SLOT k) = 2 then d.pb B.link0 F.link0_OUT_EN false k else d) d
  let d := (List.range 32).foldl (fun d w =>
    if d.slotState (d.g B.link0 F.link0_DW_SLOT w) = 2 then d.pb B.link0 F.link0_DW_EN false w else d) d
  (d.event 0x06 0xFF 0x0701 (dtl [(1, q)]) 0 true).morLost q

/-- Management firmware runs: its domain serves and the boot chain has started its cores and not halted them. -/
def Dev.mgmtRuns (d : Dev) : Bool := d.domUp Dom.mgmt && !d.gb B.sec F.sec_BOOT_CAUSE

/-- Firmware brings REACH up to date, and acts on every bit that falls. -/
def Dev.reachUpdate (d : Dev) : Dev :=
  let old := d.g B.link0 F.link0_REACH
  let new := ((List.range d.packages).map (fun q => if d.pathTo q 12 false d.pkgId then 2 ^ q else 0)).sum
  let d := d.p B.link0 F.link0_REACH new
  ((List.range 64).filter (fun q => bit old q && !bit new q)).foldl (fun d q => d.reachLoss q) d

/-- One of the package's ports has entered or left UP: LINK_STATE goes to every package in its dimension rings and REACH
follows. -/
def Dev.linkNotice (d : Dev) : Dev :=
  if !d.mgmtRuns || !d.gb B.link0 F.link0_TOPO_EN then d
  else
    let ring := (List.range d.packages).filter (fun q =>
      ((List.range 3).filter (fun i => d.at_ q i != d.at_ d.pkgId i)).length == 1)
    let d := ring.foldl (fun d q =>
      (d.sendMsg { dst := q, src := d.pkgId, kind := 0x0B, clear := true, payload := [byte (d.upPorts d.pkgId)] } 1).1) d
    d.reachUpdate

/-! ### Port states (R330, R333, R334) -/

/-- The flits of a packet that comes in at port `i`, VC and class, and leaves by port `o` change. -/
def Dev.modFwd (d : Dev) (i vc cls o : Nat) (f : TxWait → TxWait) : Dev :=
  let mine := fun (w : TxWait) => w.from_ == some i && w.vc == vc && w.inCls == cls && w.more
  (d.setPort o { d.port o with txq := (d.port o).txq.map (fun w => if mine w then f w else w) }).pump o

/-- A packet that is being forwarded was cut short at its input: it ends with BAD_END (R333). -/
def TxWait.cut (w : TxWait) : TxWait :=
  { w with more := false, bad := true, data := if w.data.isEmpty then [([], 0)] else w.data }

/-- The packets being received at a port that goes down end here (R333): those being forwarded end downstream with
BAD_END, those for others leave so, those for this package are discarded and counted. -/
def Dev.cutShort (d : Dev) (p : Nat) : Dev :=
  let x := d.port p
  let d := d.setPort p { x with partialRx := [], fwd := [] }
  let d := x.fwd.foldl (fun d e => if e.2 < 6 then d.modFwd p (e.1 / 3) (e.1 % 3) e.2 TxWait.cut else d) d
  x.partialRx.foldl (fun d e =>
    let b := e.2.flatMap (·.1)
    if b.isEmpty then d
    else if fieldN b 0 1 = d.pkgId then d.inc (B.link p) F.link_BAD_END_CNT
    else
      let k : Pkt := { dst := fieldN b 0 1, src := fieldN b 1 1, kind := fieldN b 2 1, escaped := bit (fieldN b 3 1) 1 }
      d.setPort p { d.port p with arrived := (d.port p).arrived ++ [⟨k, e.1 / 3, e.1 % 3, e.2, true⟩] }) d

/-- Packets being forwarded to an output that holds them no longer: what is still to come in of them is dropped. -/
def Dev.fwdDropped (d : Dev) (w : TxWait) : Dev :=
  match w.from_ with
  | some i => if w.more then
      d.setPort i { d.port i with fwd := (d.port i).fwd.put (w.vc * 3 + w.inCls) 6 } else d
  | none => d

/-- A port enters FAILED, ISOLATED or DISABLED: its replay buffer is discarded, what was being sent or waited for an
acknowledgement is lost, and LINK_DOWN raised unless it was DRAINING. -/
def Dev.portDown (d : Dev) (p st : Nat) : Dev :=
  let was := d.portState p
  let d := (d.p (B.link p) F.link_STATE st).cutShort p
  let x := d.port p
  let cut := x.txq.filter (·.started)
  let d := d.setPort p { txq := x.txq.filter (fun w => !w.started), arrived := x.arrived }
  let d := cut.foldl (fun d w => if w.from_.isSome then d.fwdDropped w else d.lostMsg w.pkt) d
  let d := x.msgs.foldl (fun d m => d.lostMsg m.pkt) d
  let d := if was = 7 ∧ st = 0 then d else d.event 0x06 p 0x0710 (dtl [(1, p), (1, st)])
  if was = 3 then d.linkNotice else d

/-- An UP port enters RETRAIN. -/
def Dev.portRetrain (d : Dev) (p : Nat) : Dev :=
  if d.portState p = 3 then
    let d := ((d.p (B.link p) F.link_STATE 4).inc (B.link p) F.link_RETRAIN_CNT)
    (d.setPort p { d.port p with since := d.varve }).linkNotice
  else d

/-- A port enters UP: what waits for it is sent. -/
def Dev.portEnterUp (d : Dev) (p : Nat) : Dev :=
  (d.p (B.link p) F.link_STATE 3).linkNotice.pump p

/-- A write of PORT_EN (Table 12.3). -/
def Dev.portEn (d : Dev) (p : Nat) (en : Bool) : Dev :=
  if !d.domUp (Dom.port p) ∨ 6 ≤ p then d
  else
    let st := d.portState p
    let d := d.pb (B.link p) F.link_PORT_EN en
    if en then (if st = 0 then d.p (B.link p) F.link_STATE 1 else d)
    else if st = 0 then d
    else if st = 3 then
      ((d.p (B.link p) F.link_STATE 7).setPort p { d.port p with since := d.varve }).linkNotice
    else d.portDown p 0

/-- A write of the word at 0x008 of a port (Table 12.8). -/
def Dev.portCtrl (d : Dev) (p v : Nat) : Dev :=
  if !d.domUp (Dom.port p) ∨ 6 ≤ p then d
  else
    let d := (d.pb (B.link p) F.link_ALLOW_W8 (bit v 1)).pb (B.link p) F.link_RATE_56 (bit v 2)
    let d := d.portEn p (bit v 0)
    if bit v 3 then d.portRetrain p else d

/-- RETRAIN written. -/
def Dev.retrainWrite (d : Dev)
  (p : Nat) : Dev := if d.domUp (Dom.port p) && decide (p < 6) then d.portRetrain p else d

/-- LANE_LOCK_LOSS. -/
def Dev.laneLockLoss (d : Dev)
  (p : Nat) : Dev := if d.domUp (Dom.port p) && decide (p < 6) then d.portRetrain p else d

/-- 10 ms in RETRAIN, in ns. -/
def retrainNs : Nat := 10000000

/-- The flits of the replay buffer sent again. -/
def Dev.resend (d : Dev) (p : Nat) : Dev :=
  { d with linkOut := d.linkOut ++ (d.port p).replay.map (fun f => (p, f)) }

/-- What this end sends in CHECK: its package ID, its coordinates and the dimensions (R334). -/
def Dev.identity (d : Dev) : List Nat :=
  [d.pkgId, d.at_ d.pkgId 0, d.at_ d.pkgId 1, d.at_ d.pkgId 2, d.g B.link0 F.link0_DIM_X, d.g B.link0 F.link0_DIM_Y,
   d.g B.link0 F.link0_DIM_Z]

/-- LANES_TRAINED (R330, R333): to a width the port accepts; RATE_56 is read in TRAINING alone (Table 12.8). In CHECK
this end sends its identity (R334). -/
def Dev.lanesTrained (d : Dev) (p width : Nat) : Dev :=
  let b := B.link p
  if !d.domUp (Dom.port p) || 6 ≤ p || !(width == 16 || (width == 8 && d.gb b F.link_ALLOW_W8)) then d
  else match d.portState p with
    | 1 =>
      if d.gb B.link0 F.link0_TOPO_EN then
        let d := ((d.pb b F.link_WIDTH8 (width == 8)).pb b F.link_RATE_HALF (d.gb b F.link_RATE_56)).p b F.link_STATE 2
        { d with identOut := d.identOut ++ [(p, d.identity)] }
      else d
    | 4 =>
      if d.varve ≤ (d.port p).since + retrainNs then
        let d := d.pb b F.link_WIDTH8 (width == 8)
        ((d.setPort p { d.port p with retrainFails := 0, replayRuns := 0 }).resend p).portEnterUp p
      else d
    | _ => d

/-- PARTNER_IDENTITY in CHECK (R334): package ID, coordinates and dimensions of the partner. -/
def Dev.partnerIdentity (d : Dev) (p id x y z dx dy dz : Nat) : Dev :=
  let b := B.link p
  if !d.domUp (Dom.port p) || 6 ≤ p || d.portState p != 2 then d
  else
    let d := (d.pb b F.link_NBR_VALID true).p b F.link_NBR_PKG id
    let n := d.neighbour d.pkgId p
    let ok := dx == d.g B.link0 F.link0_DIM_X && dy == d.g B.link0 F.link0_DIM_Y && dz == d.g B.link0 F.link0_DIM_Z &&
      id != d.pkgId && x == d.at_ n 0 && y == d.at_ n 1 && z == d.at_ n 2
    if ok then d.portEnterUp p
    else (d.event 0x06 p 0x0711 (dtl [(1, p), (1, id), (1, dx), (1, dy), (1, dz)])).portDown p 5

/-- RETRAIN_TIMEOUT (R333): the third failure in a row is final. -/
def Dev.retrainTimeout (d : Dev) (p : Nat) : Dev :=
  let x := d.port p
  if !d.domUp (Dom.port p) || d.portState p != 4 || decide (d.varve < x.since + retrainNs) then d
  else if 3 ≤ x.retrainFails + 1 then d.portDown p 6
  else (d.p (B.link p) F.link_STATE 1).setPort p { x with retrainFails := x.retrainFails + 1 }

/-- DRAIN_END (R333): every flit acknowledged, or 1 ms. -/
def Dev.drainEnd (d : Dev) (p : Nat) : Dev :=
  let x := d.port p
  if d.domUp (Dom.port p) && d.portState p == 7 && (x.replay.isEmpty || decide (x.since + 1000000 ≤ d.varve)) then
    d.portDown p 0
  else d

/-! ### Flits (R331, R332) -/

/-- A flit read from its 256 bytes (Table 12.2). -/
def Flit.parse (b : Bytes) : Flit :=
  { ftype := fieldN b 0 1, flags := fieldN b 1 1, vc := fieldN b 2 1 % 4, seq := fieldN b 4 2 % 4096
    ack := fieldN b 6 2 % 4096, credits := fieldN b 8 4, payload := (b.drop 16).take (fieldN b 0xC 1) }

/-- The 256 bytes of a flit. -/
def Flit.bytes (f : Flit) : Bytes :=
  padTo 256 ([byte f.ftype, byte f.flags, byte f.vc, 0] ++ natLE 2 f.seq ++ natLE 2 f.ack ++ natLE 4 f.credits ++
    [byte f.payload.length, 0, 0, 0] ++ f.payload)

/-- The sectors of a flit as they decode, with upsets by sector: the bytes, the symbols corrected, and the sectors that
hold the poison marker, a bit each (R235, R236); none where a sector is uncorrectable. -/
def flitDecode (b : Bytes) (errs : List (Nat × ErrPat)) : Option (Bytes × Nat × Nat) :=
  errs.foldl (fun a e => match a with
    | none => none
    | some (b, n, m) =>
      let put := fun (x : ErrPat) => patch b (32 * e.1) (Ecc.apply x ((b.drop (32 * e.1)).take 32))
      match Ecc.decode e.2 with
      | .ok => some (put e.2, n, m)
      | .corrected _ _ => some (put (Ecc.residue e.2), n + 1, m)
      | .marker => some (b, n, setBits m e.1 1 1)
      | .bad => none) (some (b, 0, 0))

/-- A SEQ that an ACK_SEQ covers. -/
def covered (ack seq : Nat) : Bool := decide ((ack + 4096 - seq) % 4096 < 2048)

/-- Flits that an ACK_SEQ covers leave the replay buffer, and with them the messages they ended. -/
def Dev.flitAck (d : Dev) (p ack : Nat) : Dev :=
  let x := d.port p
  let l := x.replay.dropWhile (fun f => covered ack f.seq)
  if l.length = x.replay.length then d
  else d.setPort p { x with replay := l, replayRuns := 0, msgs := x.msgs.filter (fun m => !covered ack m.seq) }

/-- Credits of the CREDITS field return (R335). -/
def Dev.flitCredits (d : Dev) (p c : Nat) : Dev :=
  (List.range 4).foldl (fun d v =>
    let x := d.port p
    d.setPort p { x with sent := Tab.set [] x.sent v ((x.sent.getD v []).drop (c / 256 ^ v % 256)) }) d

/-- A NAK with the SEQ expected next: the transmitter replays from it; the eighth replay without progress retrains the
port (R332). -/
def Dev.flitNak (d : Dev) (p seq : Nat) : Dev :=
  let d := d.flitAck p ((seq + 4095) % 4096)
  let x := d.port p
  let runs := if x.replaySeq = seq then x.replayRuns + 1 else 1
  let d := d.setPort p { x with replaySeq := seq, replayRuns := runs }
  let d := (d.inc (B.link p) F.link_REPLAY_CNT).resend p
  if 8 ≤ runs then (d.setPort p { d.port p with replayRuns := 0 }).portRetrain p else d

/-- The NAK of a port that is UP or DRAINING. -/
def Dev.nak (d : Dev) (p seq : Nat) : Dev :=
  if d.domUp (Dom.port p) && decide (p < 6) && (d.portState p == 3 || d.portState p == 7) then
    (d.flitNak p (seq % 4096)).pump p
  else d

/-- An IDLE flit with the receiver's ACK_SEQ, or its NAK, and the buffers it has freed (R331, R332). -/
def Dev.sendIdle (d : Dev) (p : Nat) (nak : Bool) : Dev :=
  let x := d.port p
  let f : Flit := { ftype := 0, flags := if nak then 8 else 0, vc := 0, seq := 0, credits := x.credField
                    ack := if nak then x.rxSeq else (x.rxSeq + 4095) % 4096, payload := [] }
  { d.setPort p { x with freed := [] } with linkOut := d.linkOut ++ [(p, f)] }

/-- A packet has come in whole at port `p`, or cut short (R333, R337): it waits to be handled, forwarded or, where it
was cut short and is for this package, is discarded and counted. -/
def Dev.packetIn (d : Dev) (p vc cls : Nat) (l : List (Bytes × Nat)) (bad : Bool) : Dev :=
  let b := l.flatMap (·.1)
  let put := fun (d : Dev) (k : Pkt) =>
    d.setPort p { d.port p with arrived := (d.port p).arrived ++ [⟨k, vc, cls, l, bad⟩] }
  if bad then
    if fieldN b 0 1 = d.pkgId then d.inc (B.link p) F.link_BAD_END_CNT
    else put d { dst := fieldN b 0 1, src := fieldN b 1 1, kind := fieldN b 2 1, escaped := bit (fieldN b 3 1) 1 }
  else match Pkt.parse b with
    | some k => put d k
    | none => d

/-- A DATA flit accepted: it follows its packet to the output that forwards it, or joins what has come in of it; the
packet is whole at EOP (R337, R339). -/
def Dev.flitTake (d : Dev) (p : Nat) (f : Flit) : Dev :=
  let x := d.port p
  let cls := if bit f.flags 5 then 2 else if bit f.flags 4 then 1 else 0
  let k := f.vc * 3 + cls
  let sop := bit f.flags 0
  let eop := bit f.flags 1
  let fwd := if sop then x.fwd.del k else x.fwd
  let x := { x with freed := x.freed.put f.vc (x.freed.getD f.vc 0 + 1), fwd := if eop then fwd.del k else fwd }
  let d := (d.incUnit (B.link p) F.link_FLITS_RX_CNT 1).setPort p x
  match fwd.get? k with
  | some o =>
    if o < 6 then d.modFwd p f.vc cls o (fun w => { w with
      data := w.data ++ [(f.payload, f.marks)], more := !eop, bad := w.bad || bit f.flags 2 })
    else d
  | none =>
    let l := (if sop then [] else x.partialRx.getD k []) ++ [(f.payload, f.marks)]
    if eop then (d.setPort p { d.port p with partialRx := x.partialRx.del k }).packetIn p f.vc cls l (bit f.flags 2)
    else d.setPort p { d.port p with partialRx := x.partialRx.put k l }

/-- A flit that is discarded with a NAK: later flits are discarded until the replay arrives (R332). -/
def Dev.flitBad (d : Dev) (p : Nat) : Dev :=
  ((d.inc (B.link p) F.link_UE_FLIT_CNT).setPort p { d.port p with rxDiscard := true }).sendIdle p true

/-- FLIT_RECEIVE at a port that is UP or DRAINING (R331, R332): 256 bytes and the upsets they met, by sector. -/
def Dev.flitReceive (d : Dev) (p : Nat) (raw : Bytes) (errs : List (Nat × ErrPat)) : Dev :=
  if !d.domUp (Dom.port p) || 6 ≤ p || !(d.portState p == 3 || d.portState p == 7) then d
  else match flitDecode (padTo 256 raw) errs with
    | none => (d.flitBad p).pump p
    | some (b, n, m) =>
      let f := { Flit.parse b with marks := m }
      let head := fun (d : Dev) =>
        (if bit f.flags 3 then d.flitNak p f.ack else d.flitAck p f.ack).flitCredits p f.credits
      let d := d.inc (B.link p) F.link_CE_SYM_CNT 0 n
      let d :=
        if f.ftype = 0 then head d
        else if f.seq ≠ (d.port p).rxSeq then (if (d.port p).rxDiscard then d else d.flitBad p)
        else
          let d := head (d.setPort p { d.port p with rxSeq := (f.seq + 1) % 4096, rxDiscard := false })
          (if f.ftype = 1 then d.flitTake p f else d).sendIdle p false
      d.pump p

/-! ### Forwarding (R337, R338) -/

/-- UNREACH in the clear to the source of a packet that was dropped; it carries the header of that packet. -/
def Dev.unreachSend (d : Dev) (k : Pkt) : Dev :=
  d.sendClear { dst := k.src, src := d.pkgId, kind := 0x0A, tag := k.tag, payload := k.header false }

/-- The oldest packet at a port that is for another package: whole, or with its first flits in (R337). The flag tells
that more is to come. -/
def Port.oldestFwd (x : Port) (here : Nat) : Option (RxPkt × Bool) :=
  match x.arrived.find? (fun a => a.pkt.dst != here) with
  | some a => some (a, false)
  | none =>
    (x.partialRx.find? (fun e => !e.2.isEmpty && fieldN (e.2.flatMap (·.1)) 0 1 != here)).bind (fun e =>
      (Pkt.parse (e.2.flatMap (·.1) ++ zeros 2112)).map (fun k => (⟨k, e.1 / 3, e.1 % 3, e.2, false⟩, true)))

/-- PACKET_FORWARD: the oldest packet at a port that is not for this package leaves by its route, by cut-through: what of
it comes in later follows (R337). -/
def Dev.packetForward (d : Dev) (p : Nat) : Dev :=
  let x := d.port p
  match x.oldestFwd d.pkgId with
  | none => d
  | some (a, more) =>
    if !d.domUp (Dom.port p) then d
    else
      let k := a.vc * 3 + a.cls
      let d := d.setPort p { x with arrived := x.arrived.erase a
                                    partialRx := if more then x.partialRx.del k else x.partialRx
                                    fwd := if more then x.fwd.put k 6 else x.fwd }
      let r := d.route { pkt := a.pkt, vc := a.vc, cls := 0, from_ := some p, inCls := a.cls, data := a.data
                         more := more, bad := a.bad }
      match r.2 with
      | some o =>
        let d := r.1.inc (B.link p) F.link_FWD_PKT_CNT
        if more then d.setPort p { d.port p with fwd := (d.port p).fwd.put k o } else d
      | none => if a.bad then r.1 else r.1.unreachSend a.pkt

/-- The access in flight to a peer that an access packet of this package made. -/
def Dev.ownAccess (d : Dev) (k : Pkt) : Option RemoteOp :=
  if k.kind = 1 ∨ k.kind = 2 then d.remoteFor k.dst k.tag else none

/-- A packet of this package that found no route: its access completes with PEER_UNREACHABLE (R338), its message is
lost. -/
def Dev.ownDropped (d : Dev) (k : Pkt) : Dev :=
  match d.ownAccess k with
  | some r => d.remoteFail r 0x0701
  | none => d.lostMsg k

/-- A packet that waits at port `p` for an escape: none of it has been sent, and its port is not UP or it has found no
credit for 2 µs (R338). -/
def Dev.wantsEscape (d : Dev) (p : Nat) (w : TxWait) : Bool :=
  !w.started && (!d.portUp p || decide (w.since + 2000 ≤ d.varve))

/-- ESCAPE_TIMEOUT: the oldest packet that waits for an escape at a port takes one, or is dropped where no port
qualifies; one that has taken its escape is dropped only where its port is not UP (R338). -/
def Dev.escapeTimeout (d : Dev) (p : Nat) : Dev :=
  let x := d.port p
  match x.txq.find? (fun w => d.wantsEscape p w) with
  | none => d
  | some w =>
    let out := d.setPort p { x with txq := x.txq.erase w }
    let drop :=
      let d := (out.routeDrop p w.pkt.dst).fwdDropped w
      if w.from_.isNone then d.ownDropped w.pkt else if w.bad then d else d.unreachSend w.pkt
    if w.pkt.escaped ∨ w.cls = 2 then (if d.portUp p then d else drop)
    else match d.escapePort w.pkt.dst with
      | some e =>
        let d := match w.from_ with
          | some i => if w.more then
              out.setPort i { out.port i with fwd := (out.port i).fwd.put (w.vc * 3 + w.inCls) e } else out
          | none => out
        (d.inc (B.link e) F.link_ESCAPE_CNT).enqueue e
          { w with pkt := { w.pkt with escaped := true }, cls := 2, data := escData w.data }
      | none => drop

/-! ### Packets received (R341) -/

/-- The oldest packet for this package at a port that meets a test, with the port's state without it. -/
def Dev.takePkt (d : Dev) (p : Nat) (want : Pkt → Bool) : Option (RxPkt × Dev) :=
  if !d.domUp (Dom.port p) then none
  else match (d.port p).arrived.find? (fun a => a.pkt.dst == d.pkgId && want a.pkt) with
    | none => none
    | some a => some (a, d.setPort p { d.port p with arrived := (d.port p).arrived.erase a })

/-- The granules of a packet's payload that marked sectors of its flits touch, as POISON_MAP has them: flit `i` carries
bytes 240 × i on of the packet, its sector `s` those from 32 × s − 16 on (R235, R237, R331, R339). -/
def RxPkt.marked (a : RxPkt) : Nat :=
  (a.data.zipIdx.flatMap (fun f => (List.range 8).filterMap (fun s =>
    if bit f.1.2 s then some (240 * f.2 + max 16 (32 * s), 240 * f.2 + 32 * s + 31) else none))).foldl (fun m o =>
      [o.1, o.2].foldl (fun m a => if a < 48 then m else setBits m ((a - 48) / 64) 1 1) m) 0

/-- The checks of R341 on an encrypted packet: its plaintext, or none where it is discarded. -/
def Dev.authPkt (d : Dev) (p : Nat) (k : Pkt) : Dev × Option Pkt :=
  let refuse := fun (d : Dev) (cnt : Fld) (status : Nat) =>
    let d := (d.inc B.link0 cnt).eventLim 0x06 p status (dtl [(1, p), (1, k.src), (1, k.slot)])
    if k.kind = 1 ∨ k.kind = 2 then d.sendClear { dst := k.src, src := d.pkgId, kind := 9, tag := k.tag } else d
  if d.slotState k.slot ≠ 1 ∨ !bit (d.slotPeers k.slot) k.src then (refuse d F.link0_GCM_FAIL_CNT 0x0712, none)
  else match Crypto.gcmDec (d.slotKey k.slot) k.iv (k.header false) k.payload k.mac with
    | none => (refuse d F.link0_GCM_FAIL_CNT 0x0712, none)
    | some pt =>
      let w := d.replays.getD (k.slot * 64 + k.src) {}
      if k.nonce + 1024 ≤ w.top ∨ w.seen.contains k.nonce ∨ k.nonce = 0 then
        (refuse d F.link0_REPLAY_REJ_CNT 0x0713, none)
      else
        let top := max w.top k.nonce
        let w' : Replay := { top := top, seen := (k.nonce :: w.seen).filter (fun c => decide (top < c + 1024)) }
        ({ d with replays := d.replays.put (k.slot * 64 + k.src) w' }, some { k with payload := pt })

/-- The checks of R341 on a packet received, with the poison its flits met (R237). -/
def Dev.authRx (d : Dev) (p : Nat) (a : RxPkt) : Dev × Option Pkt :=
  let r := d.authPkt p a.pkt
  (r.1, r.2.map (fun k => { k with pmap := Nat.lor k.pmap (a.marked % 2 ^ ceilDiv k.payload.length 64) }))

/-- A packet of a kind taken at a port, checked, and handed on. -/
def Dev.receive (d : Dev) (p kind : Nat) (f : Dev → Pkt → Dev) : Dev :=
  match d.takePkt p (fun k => k.kind == kind) with
  | none => d
  | some (a, d) =>
    let r := d.authRx p a
    match r.2 with
    | some k => f r.1 k
    | none => r.1

/-! ### Inbound windows (R111, R342, R344) -/

/-- The lowest-numbered enabled DRAM window that covers an offset. -/
def Dev.dramWindow (d : Dev) (o : Nat) : Option Nat :=
  (List.range 32).find? (fun w => d.gb B.link0 F.link0_DW_EN w &&
    decide (d.g B.link0 F.link0_WB_BASE w * 65536 ≤ o) && decide (o < (d.g B.link0 F.link0_WB_LIMIT w + 1) * 65536))

/-- The window that admits an access of a peer to DRAM. -/
def Dev.dramAdmit (d : Dev) (o src slot : Nat) (wr : Bool) : Option Nat :=
  (d.dramWindow o).filter (fun w =>
    (if wr then d.gb B.link0 F.link0_PERM_W w else d.gb B.link0 F.link0_PERM_R w) &&
    bit (d.g B.link0 F.link0_DW_PEERS w) src && d.g B.link0 F.link0_DW_SLOT w == slot)

/-- An answer to a peer. -/
def Dev.answer (d : Dev) (k : Pkt) (kind rstat pmap : Nat) (payload : Bytes) : Dev :=
  (d.sendPkt { dst := k.src, src := d.pkgId, kind := kind, slot := k.slot, rstat := rstat, tag := k.tag, pmap := pmap
               payload := payload } 3).1

/-- What became of a part of a peer's access: none where it is refused. -/
abbrev PeerPart := Dev × Option Rsp

/-- A part of a peer's access to a scratchpad: admitted by an open window of the core, or refused (R111, R113). -/
def Dev.scratchPart (d : Dev) (p : Nat) (k : Pkt) (q : Req) : PeerPart :=
  let o := q.pa - 0xC00000000
  let n := o / 0x100000
  match d.winFor n (o % 0x100000 / 64) 1 k.src k.slot q.wr with
  | none => (d.winDeny n q.pa (0x240 + p) k.src, none)
  | some w =>
    let r := d.localAccess { q with ctx := d.g (B.core n) F.core_WIN_CONTEXT w
                                    secure := d.gb (B.core n) F.core_WIN_SECURE w
                                    pa := B.scratch n + o % 0x100000, inner := true }
    (r.1, some r.2)

/-- A part of a peer's access to DRAM: admitted by a DRAM window, under a vault tag, or refused (R344). -/
def Dev.dramPart (d : Dev) (p : Nat) (k : Pkt) (q : Req) : PeerPart :=
  match d.dramAdmit q.pa k.src k.slot q.wr with
  | none =>
    ((d.inc B.link0 F.link0_WIN_DENY_CNT).event 0x06 0xFF 0x0214 (dtl [(8, q.pa), (2, 0x240 + p), (1, k.src)]), none)
  | some w =>
    let q := { q with ctx := d.g B.link0 F.link0_DW_CTX w, secure := d.gb B.link0 F.link0_DW_SECURE w }
    let v := (d.vaultOf q.pa).1
    let r := (if d.vaultUp v then d.takeTag (.vault v) q (some w) else d).localAccess q
    (r.1, some r.2)

/-- A part of a peer's access, decided by the area its offset lies in (Table 12.5, R479). -/
def Dev.peerPart (d : Dev) (p : Nat) (k : Pkt) (q : Req) : PeerPart :=
  if q.pa < 0xC00000000 then d.dramPart p k q
  else if q.pa < 0xC20000000 then d.scratchPart p k q
  else (d, none)

/-- Bytes of an access packet: a write's payload, or what a read asks for. -/
def Pkt.accessSize (k : Pkt) : Nat := if k.kind = 1 then k.payload.length else fieldN k.payload 0 4

/-- What the parts of a peer's access have given so far: read data, poisoned granules, whether one was not served. -/
structure PeerSum where
  data : Bytes := []
  pmap : Nat := 0
  bad : Bool := false
  deriving DecidableEq, Repr

/-- A part of a peer's access is done. -/
def PeerSum.add (a : PeerSum) (wr : Bool) (off size : Nat) (r : Option Rsp) : PeerSum :=
  match r with
  | none => { data := a.data ++ zeros size, pmap := setBits a.pmap (off / 64) 1 1, bad := true }
  | some x =>
    { data := a.data ++ (if wr then [] else x.data)
      pmap := if x.poison then setBits a.pmap (off / 64) 1 1 else a.pmap
      bad := a.bad || x.status != 0 || (wr && x.poison) }

/-- A read or write of a peer that has passed R341: its naturally aligned parts are each admitted and made (R342, R344,
R479), and it is answered; a write only once every vault tag of it has retired (R345). -/
def Dev.peerAccess (d : Dev) (p : Nat) (k : Pkt) : Dev :=
  let wr := k.kind == 1
  let size := k.accessSize
  if size = 0 ∨ 2048 < size then (if wr then d.answer k 4 1 0 [] else d.answer k 3 1 1 [])
  else
    let before := d.tags.length
    let r := (natParts size k.addr size).foldl (fun (a : Dev × PeerSum) c =>
      let off := c.1 - k.addr
      let q : Req := { sid := 0x240 + p, ctx := 0, secure := false, pa := c.1, wr := wr, size := c.2
                       data := if wr then (k.payload.drop off).take c.2 else []
                       poison := wr && bit k.pmap (off / 64) }
      let x := a.1.peerPart p k q
      (x.1, a.2.add wr off c.2 x.2)) (d, {})
    let rstat := b2n r.2.bad
    if !wr then r.1.answer k 3 rstat r.2.pmap r.2.data
    else
      let mine := r.1.tags.drop before
      if mine.isEmpty then r.1.answer k 4 rstat 0 []
      else { r.1 with tags := r.1.tags.take before ++
               mine.map (fun t => { t with ack := some ⟨k.src, k.slot, k.tag, rstat⟩ }) }

/-- The access can be served now: scratchpads whose clusters run no self-test slice (R407), DRAM whose vaults hold
nothing and have a tag free for each of its lines. -/
def Dev.peerReady (d : Dev) (k : Pkt) : Bool :=
  let ps := (natParts k.accessSize k.addr k.accessSize).map (·.1)
  (ps.all (fun a =>
    if a < 0xC00000000 then !d.vaultHolds (d.vaultOf a).1
    else !(decide (a < 0xC20000000) && d.gb B.rime F.rime_SLICE_BUSY &&
      d.g B.rime F.rime_SLICE_CLUSTER == clusterOf ((a - 0xC00000000) / 0x100000)))) &&
  (List.range 8).all (fun v =>
    decide (d.tagsUsed (.vault v) + (ps.filter (fun a => decide (a < 0xC00000000) && (d.vaultOf a).1 == v)).length ≤
      Owner.pool (.vault v)))

/-- A peer's access of one kind, within an area, taken at a port once it can be served. -/
def Dev.peerTake (d : Dev) (p : Nat) (want : Pkt → Bool) : Dev :=
  match d.takePkt p want with
  | none => d
  | some (a, t) =>
    let r := t.authRx p a
    match r.2 with
    | some k => if d.peerReady k then r.1.peerAccess p k else d
    | none => r.1

/-- WINDOW_ACCESS: the oldest WR or RD_REQ at a port that names a scratchpad. -/
def Dev.windowAccess (d : Dev) (p : Nat) : Dev :=
  d.peerTake p (fun k => (k.kind == 1 || k.kind == 2) && decide (0xC00000000 ≤ k.addr) && decide (k.addr < 0xC20000000))

/-- RD_REQ: the oldest remote read at a port (R344). -/
def Dev.rdReq (d : Dev) (p : Nat) : Dev := d.peerTake p (fun k => k.kind == 2)

/-- REMOTE_WRITE: the oldest remote write at a port (R344). -/
def Dev.remoteWrite (d : Dev) (p : Nat) : Dev := d.peerTake p (fun k => k.kind == 1)

/-! ### Answers and messages -/

/-- RD_RESP (R345): RSTAT 1 delivers poisoned zeros, RSTAT 2 completes with PEER_UNREACHABLE. -/
def Dev.rdAnswer (d : Dev) (k : Pkt) : Dev :=
  match (d.remoteFor k.src k.tag).filter (fun r => !r.wr) with
  | none => d.lateResp
  | some r =>
    if k.rstat = 2 then d.remoteFail r 0x0701
    else if k.rstat ≠ 0 ∨ k.payload.length ≠ r.size then d.remoteEnd r ⟨zeros r.size, true, 0, 0⟩
    else d.remoteEnd r ⟨k.payload, k.pmap != 0, 0, 0⟩

/-- RD_RESP at a port: an answer whose data goes on to another package waits for a link tag (R48). -/
def Dev.rdResp (d : Dev) (p : Nat) : Dev :=
  match d.takePkt p (fun k => k.kind == 3) with
  | none => d
  | some (a, t) =>
    let r := t.authRx p a
    match r.2 with
    | none => r.1
    | some k =>
      if ((d.remoteFor k.src k.tag).filter (fun r => !r.wr)).any (fun r => d.remoteWaits r) then d else r.1.rdAnswer k

/-- WR_ACK (R345). -/
def Dev.wrAck (d : Dev) (p : Nat) : Dev :=
  d.receive p 4 (fun d k => match (d.remoteFor k.src k.tag).filter (fun r => r.wr) with
    | none => d.lateResp
    | some r => if k.rstat = 2 then d.remoteFail r 0x0701 else d.remoteEnd r ⟨[], false, 0, 0⟩)

/-- SIGNAL: a peer's signal is applied on arrival, checked under R290 (R293). -/
def Dev.signalPkt (d : Dev) (p : Nat) : Dev :=
  d.receive p 5 (fun d k =>
    let s := k.addr % 2 ^ 14
    if !d.domUp (Dom.region (syncHome s)) then d.event 0x0B (syncHome s) 0x0103 (dtl [(2, s), (1, k.src)]) 0 true
    else d.signalPeer s (0x240 + p) 0 true (fieldN k.payload 0 4) k.slot)

/-- MBX: a peer's message is delivered to SEND of the mailbox its offset names (R301, R342). -/
def Dev.mbxPkt (d : Dev) (p : Nat) : Dev :=
  d.receive p 6 (fun d k =>
    let o := k.addr - 0xC20000000
    if 0xC20000000 ≤ k.addr ∧ o < 0x10000 ∧ o % 0x400 = 0x40 ∧ k.payload.length = 64 ∧ d.domUp Dom.mgmt then
      d.mbxSend (o / 0x400) (0x240 + p) 0 false k.payload (some k.slot)
    else d)

/-- MORAINE: a packet of a Moraine message is handed to Moraine (R197). -/
def Dev.morainePkt (d : Dev) (p : Nat) : Dev := d.receive p 7 (fun d k => d.morArrive k)

/-- COLL (R348, R350). -/
def Dev.collPkt (d : Dev) (p : Nat) : Dev := d.receive p 8 (fun d k => (d.collArrive k).collRoom)

/-- COLL_ABORT (R351): the oldest COLL packet of the port, which carries the abort; its message decides. -/
def Dev.collAbortPkt (d : Dev) (p : Nat) : Dev := d.receive p 8 (fun d k => (d.collArrive k).collRoom)

/-- RIME_STATUS (R405). -/
def Dev.rimeStatusPkt (d : Dev) (p : Nat) : Dev := d.receive p 0x0C (fun d k => d.rimeStatusRecv k)

/-- A clear packet of a kind taken at a port. -/
def Dev.receiveClear (d : Dev) (p kind : Nat) (f : Dev → Pkt → Dev) : Dev :=
  match d.takePkt p (fun k => k.kind == kind) with
  | none => d
  | some (a, d) => f d a.pkt

/-- NAK_AUTH (R341). -/
def Dev.nakAuth (d : Dev) (p : Nat) : Dev :=
  d.receiveClear p 9 (fun d k => match d.remoteFor k.src k.tag with
    | some r => d.remoteFail r 0x0703
    | none => d.lateResp)

/-- UNREACH (R338): the packet it reports, by the header it carries, ends as one that found no route here. -/
def Dev.unreach (d : Dev) (p : Nat) : Dev :=
  d.receiveClear p 0x0A (fun d k => match Pkt.parse (k.payload ++ zeros 2064) with
    | none => d.lateResp
    | some h =>
      if h.kind = 1 ∨ h.kind = 2 then
        match d.remoteFor h.dst k.tag with
        | some r => d.remoteFail r 0x0701
        | none => d.lateResp
      else d.lostMsg h)

/-- LINK_STATE (R346): the sender's UP ports; firmware brings REACH up to date. -/
def Dev.linkState (d : Dev) (p : Nat) : Dev :=
  d.receiveClear p 0x0B (fun d k =>
    if !d.mgmtRuns then d
    else { d with linkMap := Tab.set 63 d.linkMap k.src (fieldN k.payload 0 1 % 64) }.reachUpdate)

/-- The WR_ACK of a peer's write whose last tag has retired (R345). -/
def Dev.ackSettle (d : Dev) (a : Option AckDue) : Dev :=
  match a with
  | none => d
  | some a =>
    if d.tags.any (fun t => t.ack == some a) then d
    else (d.sendPkt { dst := a.src, src := d.pkgId, kind := 4, slot := a.slot, rstat := a.rstat, tag := a.tag } 3).1

/-- TAG_RETIRE: an operation completes and its tag retires (R47): a link tag once nothing of its message is left to be
sent or acknowledged. A peer's write is answered, a message that waited is sent, a stub may be freed. -/
def Dev.retireTag (d : Dev) (o : Owner) (id : Nat) : Dev :=
  match d.tags.find? (fun t => t.owner == o && t.id == id) with
  | none => d
  | some t => match o with
    | .port p => if d.msgDone p id then ((d.tagRetire o id).resumeMsgs p).stubsSettle else d
    | _ => (d.tagRetire o id).ackSettle t.ack

/-- REMOTE_TIMEOUT of a link tag that holds no answer after REMOTE_TMO (R345). -/
def Dev.remoteTimeout (d : Dev) (p tag : Nat) : Dev :=
  match d.remoteOps.find? (fun r => r.port == p && r.tag == tag) with
  | none => d
  | some r =>
    if r.since + 1000 * d.g B.link0 F.link0_REMOTE_TMO ≤ d.varve then
      (d.inc B.link0 F.link0_REMOTE_TMO_CNT).remoteFail r 0x0702
    else d

/-- LINK_CNT_CLR (R353). -/
def Dev.linkCntClr (d : Dev) (p : Nat) : Dev :=
  if d.domUp (Dom.port p) && decide (p < 6) then
    d.clearFlds (B.link p) [F.link_FLITS_TX_CNT, F.link_FLITS_RX_CNT, F.link_CE_SYM_CNT, F.link_UE_FLIT_CNT,
      F.link_REPLAY_CNT, F.link_RETRAIN_CNT, F.link_FWD_PKT_CNT, F.link_ESCAPE_CNT, F.link_ROUTE_DROP_CNT,
      F.link_BAD_END_CNT]
  else d

end Sys2Proof.Machine
end

