-- ==== Sys2Proof/Machine/Pcc.lean ====
section
/-!
DEFINITION. Power domains (R444–R447), clocks (R450, R451), temperature (R452), the Creep monitor (R453–R458), rails
(R442, R456, R468) and the registers of the power, clock and Creep block (R462).
Choices of the model: log entries 159, 160, 161, 162, 163, 164, 165, 166, 167, 175, 178, 203, 215, 216.
-/

namespace Sys2Proof.Machine

/-! ### What a domain holds (R447) -/

/-- Registers and memory of a range of addresses at their cold-reset values. -/
def Dev.loseRange (d : Dev) (lo hi : Nat) : Dev :=
  { d.resetRegs lo hi with
    unitRest := Tab.clear d.unitRest (lo * 8) (hi * 8)
    ram := Tab.clear d.ram lo hi
    ramErr := Tab.clear d.ramErr (lo / 32) (hi / 32) }

/-- Everything cluster `c` holds is lost. -/
def Dev.clusterLose (d : Dev) (c : Nat) : Dev :=
  let d := d.loseRange (B.core (16 * c)) (B.core (16 * c + 16))
  let d := d.loseRange (B.cluster c) (B.cluster (c + 1))
  let d := d.loseRange (B.scratch (16 * c)) (B.scratch (16 * c + 16))
  let mine := fun (w : Watch) => match w.who with
    | .core n _ => clusterOf n == c
    | .ring _ => false
  { d with
    cores := Tab.clear d.cores (16 * c) (16 * c + 16)
    watchers := (d.watchers.map (fun x => (x.1, x.2.filter (fun w => !mine w)))).filter (fun x => !x.2.isEmpty) }

/-- Everything the infrastructure of region `r` holds is lost, and what its engines hold elsewhere is given up. -/
def Dev.regionLose (d : Dev) (r : Nat) : Dev :=
  let d := (List.range 8).foldl (fun d i => d.headForget (8 * r + i)) d
  let d := d.loseRange (B.region r) (B.region (r + 1))
  let d := d.loseRange (B.spu r) (B.spu (r + 1))
  let d := d.loseRange (B.fe (8 * r)) (B.fe (8 * r + 8))
  let d := d.loseRange (B.sync (2048 * r)) (B.sync (2048 * r + 2048))
  { d with
    engines := Tab.clear d.engines (8 * r) (8 * r + 8)
    tcaches := d.tcaches.del r
    syncPending := Tab.clear d.syncPending (2048 * r) (2048 * r + 2048)
    watchers := Tab.clear d.watchers (2048 * r) (2048 * r + 2048) }

/-- The interface of vault `v` is off: its registers are lost, its contents kept in self-refresh (R249). -/
def Dev.vaultLose (d : Dev) (v : Nat) : Dev :=
  (d.loseRange (B.vault v) (B.vault (v + 1))).setVlt v { zeroed := (d.vlt v).zeroed, selfRefresh := true }

/-- Everything port `p` holds is lost, with the system registers where they lie in its block. -/
def Dev.portLose (d : Dev) (p : Nat) : Dev :=
  let d := d.loseRange (B.link p) (B.link (p + 1))
  { d with ports := d.ports.del p, linkOut := d.linkOut.filter (fun x => x.1 != p) }

/-- Everything the MMP holds is lost: registers, staging and both channels. -/
def Dev.mmpLose (d : Dev) : Dev :=
  let d := d.loseRange B.mmp (B.mmp + 0x10000)
  let d := d.loseRange (B.staging 0) (B.staging 2)
  { d with chans := [], hq := [], cpPoison := [], ringLost := [] }

/-- Everything domain `k` holds is lost. -/
def Dev.domLose (d : Dev) (k : Nat) : Dev :=
  if k < 32 then d.clusterLose k
  else if k < 40 then d.regionLose (k - 32)
  else if k < 48 then d.vaultLose (k - 40)
  else if k < 54 then d.portLose (k - 48)
  else if k = 54 then d.mmpLose
  else if k = 55 then { (d.loseRange B.firn (B.firn + 0x10000)) with grids := [], gridRead := none }
  else if k = 56 then { (d.loseRange B.moraine (B.moraine + 0x10000)) with mor := {} }
  else if k = 57 then d.loseRange B.sastrugi (B.sastrugi + 0x10000)
  else d

/-- PWR_ON bit `k` set. -/
def Dev.setOn (d : Dev) (k : Nat) (on : Bool) : Dev :=
  d.p B.pcc F.pcc_PWR_ON (setBits (d.g B.pcc F.pcc_PWR_ON) k 1 (b2n on))

/-- Domain `k` is on: its blocks hold their cold-reset values, a vault trains, and both channels of the MMP serve. -/
def Dev.domStart (d : Dev) (k : Nat) : Dev :=
  let d := d.setOn k true
  if 40 ≤ k ∧ k < 48 then d.pb (B.vault (k - 40)) F.vault_TRAINING true
  else if k = 54 then (d.pb B.mmp F.mmp_CH_READY true 0).pb B.mmp F.mmp_CH_READY true 1
  else d

/-- Domain `k` is off. -/
def Dev.domStop (d : Dev) (k : Nat) : Dev := (d.domLose k).setOn k false

/-! ### Rails (R442, R456) -/

/-- Set-point of a region's rail, and the target it moves toward, mV. -/
def Dev.setPoint (d : Dev) (r : Nat) : Nat := d.pcc.setPoint.getD r 650
def Dev.railTo (d : Dev) (r : Nat) : Nat := d.pcc.railTo.getD r 650

/-- ARITH_100 follows its causes: throttle, exhaustion, and a command that raises the voltage and is not acknowledged
(R442, R452, R455). -/
def Dev.arithRate (d : Dev) (r : Nat) : Dev :=
  let slow := d.gb B.pcc F.pcc_THROTTLED r || d.gb B.pcc F.pcc_EXHAUSTED r ||
    (match d.pcc.avs.get? r with
     | some a => decide (d.setPoint r < a.mv)
     | none => false)
  d.pb B.pcc F.pcc_ARITH_100 slow r

/-- An AVSBus command: region `r` to `mv`. A command for the target in force is not sent. -/
def Dev.avsSend (d : Dev) (r mv : Nat) : Dev :=
  if d.railTo r = mv ∧ (d.pcc.avs.get? r).isNone then d
  else ({ d with pcc := { d.pcc with avs := d.pcc.avs.put r { mv := mv, since := d.varve } } }.pb B.pcc
    F.pcc_AVS_PENDING true r).arithRate r

/-- AVS_ACK: the regulator of region `r` acknowledges. -/
def Dev.avsAck (d : Dev) (r : Nat) : Dev :=
  match d.pcc.avs.get? r with
  | none => d
  | some a =>
    ({ d with pcc := { d.pcc with avs := d.pcc.avs.del r, railTo := Tab.set 650 d.pcc.railTo r a.mv } }.pb B.pcc
      F.pcc_AVS_PENDING false r).arithRate r

/-- AVS_RETRY: 100 µs have passed without acknowledgement; the command is repeated, and the first repeat raises
AVS_FAIL. -/
def Dev.avsRetry (d : Dev) (r : Nat) : Dev :=
  match d.pcc.avs.get? r with
  | none => d
  | some a =>
    if d.varve < a.since + 100000 then d
    else
      let d := { d with pcc := { d.pcc with avs := d.pcc.avs.put r ⟨a.mv, a.repeats + 1, d.varve⟩ } }
      let d := d.inc B.pcc F.pcc_AVS_RETRY_CNT
      if a.repeats = 0 then d.event 0x0F r 0x0A13 (dtl [(1, r), (2, a.mv)]) else d

/-- RAIL_RAMP_STEP: the rail of region `r` moves 1 mV toward its target; its window follows (R456). -/
def Dev.rampStep (d : Dev) (r : Nat) : Dev :=
  let v := d.setPoint r
  let w := if v < d.railTo r then v + 1 else if d.railTo r < v then v - 1 else v
  if 8 ≤ r ∨ w = v then d
  else ({ d with pcc := { d.pcc with setPoint := Tab.set 650 d.pcc.setPoint r w } }.p B.pcc F.pcc_VMEAS_MV w r).arithRate r

/-! ### The Creep monitor (R453–R458) -/

/-- A measurement of region `r` is no longer running; the region stays due for the same cause (R457). -/
def Dev.measAbandon (d : Dev) (r : Nat) : Dev :=
  match d.pcc.meas.get? r with
  | none => d
  | some m =>
    let was := match d.pcc.due.get? r with
      | some x => x
      | none => (m.cause, d.g B.pcc F.pcc_POWERED_S)
    (({ d with pcc := { d.pcc with meas := d.pcc.meas.del r, due := d.pcc.due.put r was } }.pb B.pcc F.pcc_MEAS_BUSY
      false r).pb B.pcc F.pcc_MEAS_DUE true r).avsSend r (d.g B.pcc F.pcc_VTGT_MV r)

/-- A measurement of region `r` begins at its target voltage (R453). -/
def Dev.measBegin (d : Dev) (r cause : Nat) : Dev :=
  { (d.pb B.pcc F.pcc_MEAS_BUSY true r) with
    pcc := { d.pcc with
      meas := d.pcc.meas.put r { cause := cause, v := d.g B.pcc F.pcc_VTGT_MV r }
      deferred := d.pcc.deferred.del r } }.avsSend r (d.g B.pcc F.pcc_VTGT_MV r)

/-- The four clusters of a region. -/
def clustersOf (r : Nat) : List Nat := (List.range 4).map (fun i => 4 * r + i)

/-- A cluster of the region is fenced for its clock or voltage. -/
def Dev.regionFenced (d : Dev) (r : Nat) : Bool :=
  (clustersOf r).any (fun c => d.fence.getD (Dom.cluster c) 0 % 4 != 0)

/-- The measurement of region `r` is deferred until a window ends that has not ended yet. -/
def Dev.measDeferred (d : Dev) (r : Nat) : Bool := match d.pcc.deferred.get? r with
  | some e => decide (d.varve < e)
  | none => false

/-- CREEP_MEASURE_START of region `r` (R454, R406): due, ST_EN 1, its clusters idle with no SAFETY entry queued, no slice
on them, and no window that meets the 2,000 µs; a window defers it and counts once. -/
def Dev.creepStart (d : Dev) (r : Nat) : Dev :=
  let slice := d.gb B.rime F.rime_SLICE_BUSY && d.g B.rime F.rime_SLICE_CLUSTER / 4 == r
  match d.pcc.due.get? r with
  | none => d
  | some x =>
    if 8 ≤ r || !d.gb B.rime F.rime_ST_EN || d.measDeferred r || d.gb B.pcc F.pcc_MEAS_BUSY r || slice || d.gb B.pcc F.pcc_THROTTLED r || d.regionFenced r ||
        !(clustersOf r).all d.clusterIdle then d
    else match d.windowEnd d.varve 2000000 with
      | some e => { d with pcc := { d.pcc with deferred := d.pcc.deferred.put r e } }.inc B.pcc F.pcc_CREEP_DEFER_CNT
      | none => d.measBegin r x.1

/-- CREEP_SWEEP_STEP of region `r`: the rail has settled at the step's voltage and every replica passes at 200 MHz, or
one fails. The sweep goes on 5 mV lower, and stops at the first failure or at 0.50 V (R453). -/
def Dev.creepStep (d : Dev) (r : Nat) (pass : Bool) : Dev :=
  match d.pcc.meas.get? r with
  | none => d
  | some m =>
    if m.swept ∨ (d.pcc.avs.get? r).isSome then d
    else
      let d := { d with pcc := { d.pcc with setPoint := Tab.set 650 d.pcc.setPoint r m.v } }.p B.pcc F.pcc_VMEAS_MV m.v r
      if !pass then { d with pcc := { d.pcc with meas := d.pcc.meas.put r { m with swept := true } } }
      else if m.v < 505 then
        { d with pcc := { d.pcc with meas := d.pcc.meas.put r { m with vmin := some m.v, swept := true } } }
      else { d with pcc := { d.pcc with meas := d.pcc.meas.put r { m with v := m.v - 5, vmin := some m.v } } }.avsSend r
        (m.v - 5)

/-- A new target and its headroom (R455). -/
def Dev.setTarget (d : Dev) (r v : Nat) : Dev :=
  (d.p B.pcc F.pcc_VTGT_MV v r).p B.pcc F.pcc_HEADROOM_MV (650 - v) r

/-- LIFE_S now: what the log held when the package powered on, and the seconds since. -/
def Dev.lifeNow (d : Dev) : Nat := d.pcc.lifeBase.getD 0 + d.g B.pcc F.pcc_POWERED_S

/-- The record of a measurement that has ended (Table 16.7). TJ in °C: a temperature between two whole degrees is
recorded as either. -/
def Dev.creepNote (d : Dev) (r cause : Nat) : Dev :=
  let b := B.pcc
  let f := d.fresh
  let deg := fun (i : Nat) =>
    let t := sint 12 (f.2.g b F.pcc_TJ i)
    unsint 8 (if t % 8 = 0 then t / 8 else t / 8 + (if bit f.1 i then 1 else 0))
  { f.2 with pcc := { f.2.pcc with logQ := f.2.pcc.logQ ++
    [⟨cause, r, d.lifeNow, (List.range 8).map (fun i => d.g b F.pcc_VMIN_MV i),
      (List.range 8).map (fun i => d.g b F.pcc_VTGT_MV i), (List.range 8).map deg⟩] } }

/-- CREEP_MEASURE_END of region `r` (R453, R455): the ring oscillators have been read. VMIN_MV is free where no step
passed. -/
def Dev.creepEnd (d : Dev) (r : Nat) : Dev :=
  let b := B.pcc
  match d.pcc.meas.get? r with
  | none => d
  | some m =>
    if !m.swept then d
    else
      let f := d.fresh
      let d := f.2
      let vmin := match m.vmin with
        | some v => v
        | none => f.1 % 1024
      let t := alignUp (vmin + d.g b F.pcc_GUARD_MV) 5
      let d := { d with pcc := { d.pcc with meas := d.pcc.meas.del r, due := d.pcc.due.del r,
                                            drain := setBits d.pcc.drain r 1 0, deferred := d.pcc.deferred.del r } }
      let d := (((d.pb b F.pcc_MEAS_BUSY false r).pb b F.pcc_MEAS_DUE false r).pb b F.pcc_MEAS_OVERDUE false r).p b
        F.pcc_VMIN_MV vmin r
      let d := (d.inc b F.pcc_CREEP_MEAS_CNT).p b F.pcc_LAST_MEAS_S (d.g b F.pcc_POWERED_S) r
      let d := d.setTarget r (if d.gb b F.pcc_CREEP_EN then min t 650 else 650)
      let d := if 650 < t then
          (d.pb b F.pcc_EXHAUSTED true r).event 0x0F r 0x0A31 (dtl [(1, r), (2, vmin)])
        else d.pb b F.pcc_EXHAUSTED false r
      let low := decide (d.g b F.pcc_HEADROOM_MV r < d.g b F.pcc_HEADROOM_THRESH_MV)
      let told := d.gb b F.pcc_HEADROOM_LOW r
      let d := d.pb b F.pcc_HEADROOM_LOW low r
      let d := if low && !told then d.event 0x0F r 0x0A30 (dtl [(1, r), (1, d.g b F.pcc_HEADROOM_MV r)]) else d
      ((d.avsSend r (d.g b F.pcc_VTGT_MV r)).arithRate r).creepNote r m.cause

/-- A region becomes due (R454). -/
def Dev.makeDue (d : Dev) (r cause : Nat) : Dev :=
  { (d.pb B.pcc F.pcc_MEAS_DUE true r) with
    pcc := { d.pcc with due := d.pcc.due.put r (cause, match d.pcc.due.get? r with
      | some x => x.2
      | none => d.g B.pcc F.pcc_POWERED_S) } }

/-- REQ_GO: a write of CREEP_REQ (R454). -/
def Dev.creepReq (d : Dev) (v : Nat) : Dev :=
  let b := B.pcc
  let d := (d.p b F.pcc_REQ_REGION v).pb b F.pcc_REQ_DRAIN (bit v 3)
  if bit v 7 then
    let d := d.makeDue (v % 8) 2
    { d with pcc := { d.pcc with drain := setBits d.pcc.drain (v % 8) 1 (b2n (bit v 3)) } }
  else d

/-- Seconds of INTERVAL_H. -/
def Dev.intervalS (d : Dev) : Nat := 3600 * d.g B.pcc F.pcc_INTERVAL_H

/-- POWERED_SECOND: POWERED_S advances, and regions whose interval has passed become due (R454). -/
def Dev.poweredSecond (d : Dev) : Dev :=
  if d.pcc.poreset then d
  else
    let d := d.incW B.pcc F.pcc_POWERED_S
    (List.range 8).foldl (fun d r =>
      if (d.pcc.due.get? r).isNone && !d.gb B.pcc F.pcc_MEAS_BUSY r &&
          decide (d.g B.pcc F.pcc_LAST_MEAS_S r + d.intervalS ≤ d.g B.pcc F.pcc_POWERED_S) then d.makeDue r 1 else d) d

/-- CREEP_OVERDUE of region `r`: due for a further INTERVAL_H without being measured. -/
def Dev.creepOverdue (d : Dev) (r : Nat) : Dev :=
  match d.pcc.due.get? r with
  | none => d
  | some x =>
    if decide (x.2 + d.intervalS ≤ d.g B.pcc F.pcc_POWERED_S) && !d.gb B.pcc F.pcc_MEAS_OVERDUE r then
      (d.pb B.pcc F.pcc_MEAS_OVERDUE true r).event 0x0F r 0x0A32 (dtl [(1, r), (4, d.g B.pcc F.pcc_LAST_MEAS_S r)])
    else d

/-- MAGIC of a Creep record. -/
def creepMagic : Nat := 0x50454552

/-- A Creep record of 64 bytes (Table 16.7). -/
def CreepLog.bytes (x : CreepLog) (seq : Nat) : Bytes :=
  let b := natLE 4 creepMagic ++ natLE 4 seq ++ natLE 8 x.life ++ (x.vmin.map (natLE 2)).flatten ++
    (x.vtgt.map (natLE 2)).flatten ++ x.tj.map byte ++ [byte (2 ^ x.region), byte x.cause, 0, 0]
  b ++ natLE 4 (Crypto.crc32c b)

/-- A record is valid: its MAGIC matches and its CRC holds (R458). -/
def creepValid (b : Bytes) : Bool :=
  b.length == 64 && fieldN b 0 4 == creepMagic && fieldN b 0x3C 4 == Crypto.crc32c (b.take 0x3C)

/-- The valid records of the Creep log, by slot. -/
def Flash.creepValids (f : Flash) : Tab Bytes := f.creep.filter (fun x => creepValid x.2)

/-- Slot and bytes of the valid record with the highest SEQ. -/
def Flash.creepLatest (f : Flash) : Option (Nat × Bytes) :=
  f.creepValids.find? (fun x => f.creepValids.all (fun y => decide (fieldN y.2 4 4 ≤ fieldN x.2 4 4)))

/-- Slot and SEQ of the record firmware writes next: after the last one it wrote, or after the latest in the log. The
first SEQ of an empty log is free. -/
def Dev.creepSlot (d : Dev) : Dev × Nat × Nat :=
  match d.pcc.logNext with
  | some x => (d, x)
  | none => match d.flash.creepLatest with
    | some x => (d, (x.1 + 1) % 15360, (fieldN x.2 4 4 + 1) % 2 ^ 32)
    | none => let f := d.fresh
              (f.2, 0, f.1 % 2 ^ 32)

/-- CREEP_LOG_WRITE (R458): firmware appends the record of the oldest measurement not logged; the first record of a
sector erases it. A write that fails its read-back leaves no valid record there. -/
def Dev.creepLogWrite (d : Dev) (ok : Bool) : Dev :=
  match d.pcc.logQ with
  | [] => d
  | x :: rest =>
    if !d.mgmtRuns || d.pcc.ioDead then d
    else
      let s := d.creepSlot
      let d := s.1
      let slot := s.2.1
      let log := if slot % 64 = 0 then Tab.clear d.flash.creep slot (slot + 64) else d.flash.creep
      let d := { d with
        pcc := { d.pcc with logQ := rest, logNext := some ((slot + 1) % 15360, (s.2.2 + b2n ok) % 2 ^ 32) }
        flash := { d.flash with creep := if ok then log.put slot (x.bytes s.2.2) else log.del slot } }
      if ok then d
      else { d with pcc := { d.pcc with logFails := d.pcc.logFails + 1 } }.event 0x0F 0xFF 0x0A33 (dtl [(4, s.2.2)])

/-- A write of CREEP_CFG (Table 16.9): a value outside its range is ignored; while CREEP_EN is 0 the target is 650. -/
def Dev.creepCfg (d : Dev) (v : Nat) : Dev :=
  let b := B.pcc
  let put := fun (d : Dev) (fld : Fld) (x lo hi : Nat) => if lo ≤ x ∧ x ≤ hi then d.p b fld x else d
  let d := put d F.pcc_GUARD_MV (v % 256) 10 60
  let d := put d F.pcc_HEADROOM_THRESH_MV (v / 256 % 256) 0 150
  let d := put d F.pcc_INTERVAL_H (v / 65536 % 256) 1 168
  let d := d.pb b F.pcc_CREEP_EN (bit v 24)
  if bit v 24 then d
  else (List.range 8).foldl (fun d r =>
    let d := d.setTarget r 650
    if d.gb b F.pcc_MEAS_BUSY r then d else d.avsSend r 650) d

/-! ### Domains (R445, R446) -/

/-- The switch-on would break the nesting (R37). -/
def Dev.nestingBroken (d : Dev) (k : Nat) : Bool :=
  (decide (k < 32) && !d.domOn (Dom.region (k / 4))) || (decide (32 ≤ k) && decide (k < 40) && !d.domOn Dom.spine)

/-- Why a request is refused (Table 16.4), 0 where it is not. A Creep measurement makes a cluster's request wait
instead (R457). -/
def Dev.pwrReason (d : Dev) (k : Nat) (on : Bool) : Nat :=
  if 58 ≤ k then 4
  else if on then b2n (d.nestingBroken k)
  else if k < 32 then
    if !d.funcOff (0x20 + k) then 2
    else if d.gb B.rime F.rime_SLICE_BUSY && d.g B.rime F.rime_SLICE_CLUSTER == k then 5 else 0
  else if k < 40 then
    let r := k - 32
    if (clustersOf r).any d.domOn then 1
    else if !((List.range 8).all (fun i => d.funcOff (0x40 + 8 * r + i)) && d.funcOff (0x18 + r)) then 2
    else if d.watchers.any (fun x => syncHome x.1 == r && !x.2.isEmpty) then 3 else 0
  else if k < 48 then (if d.tagsUsed (.vault (k - 40)) = 0 then 0 else 3)
  else if k < 54 then (if d.portState (k - 48) = 0 then 0 else 6)
  else if k = 54 then (if (List.range 32).any (fun q => d.gb B.mmp F.mmp_HQ_EN q) then 7 else 0)
  else if d.funcOff (0x10 + k - 55) then 0 else 2

/-- A request ends (R445). -/
def Dev.pwrEnd (d : Dev) (k why : Nat) : Dev :=
  let b := B.pcc
  let d := ((d.p b F.pcc_PWR_STATUS (if why = 0 then 0 else 0x0A20)).p b F.pcc_PWR_RES_DOM k).p b F.pcc_PWR_REASON why
  let d := (d.pb b F.pcc_PWR_BUSY false).pb b F.pcc_PWR_DONE true
  let d := { d with pcc := { d.pcc with trans := none } }
  if why = 0 then d else d.inc b F.pcc_PWR_REFUSE_CNT

/-- The request must wait: a cluster's for a measurement of its region (R457), the switch-off of a link port for the
tags of its operations (R23, R47). -/
def Dev.pwrWaits (d : Dev) (k : Nat) (on : Bool) : Bool :=
  (decide (k < 32) && d.gb B.pcc F.pcc_MEAS_BUSY (k / 4)) ||
  (!on && decide (48 ≤ k) && decide (k < 54) && d.tagsUsed (.port (k - 48)) != 0)

/-- The measurement after reset of a region whose first cluster switches on (R454); a throttled region is due
instead (R457). -/
def Dev.firstMeasure (d : Dev) (k : Nat) : Dev :=
  let r := k / 4
  if 32 ≤ k ∨ bit d.pcc.measured r then d
  else
    let d := { d with pcc := { d.pcc with measured := setBits d.pcc.measured r 1 1 } }
    if d.gb B.pcc F.pcc_THROTTLED r || d.regionFenced r then d.makeDue r 0 else d.measBegin r 0

/-- PWR_GO (R445, R446): ignored while a transition runs; ended at once for a state already held; refused; or begun. A
switch-off takes its blocks down at once, and its transition ends later. -/
def Dev.pwrGo (d : Dev) (k : Nat) (on : Bool) : Dev :=
  let b := B.pcc
  if d.gb b F.pcc_PWR_BUSY then d.inc b F.pcc_PWR_REFUSE_CNT
  else if d.domOn k = on then d.pwrEnd k 0
  else if d.pwrReason k on ≠ 0 then d.pwrEnd k (d.pwrReason k on)
  else
    let wait := d.pwrWaits k on
    let d := { (d.pb b F.pcc_PWR_BUSY true) with pcc := { d.pcc with trans := some (k, on) } }
    if on then (if wait then d else d.firstMeasure k) else if wait then d else d.domStop k

/-- A write of PWR_REQ. -/
def Dev.pwrReq (d : Dev) (v : Nat) : Dev :=
  let d := (d.p B.pcc F.pcc_PWR_DOM v).pb B.pcc F.pcc_PWR_ON_REQ (bit v 6)
  if bit v 31 then d.pwrGo (v % 64) (bit v 6) else d

/-- SWITCH_ON of a domain: PWR_REQ written with PWR_GO and PWR_ON_REQ 1. -/
def Dev.switchOn (d : Dev) (k : Nat) : Dev := d.pwrReq (2 ^ 31 + 2 ^ 6 + k % 64)

/-- SWITCH_OFF of a domain: PWR_REQ written with PWR_GO and PWR_ON_REQ 0. -/
def Dev.switchOff (d : Dev) (k : Nat) : Dev := d.pwrReq (2 ^ 31 + k % 64)

/-- PWR_TRANSITION_DONE (R445): the transition in progress ends, once nothing keeps it waiting (R47, R454, R457). -/
def Dev.pwrDone (d : Dev) : Dev :=
  match d.pcc.trans with
  | none => d
  | some (k, on) =>
    if d.pwrWaits k on then d
    else if d.domOn k = on then d.pwrEnd k 0
    else if d.pwrReason k on ≠ 0 then d.pwrEnd k (d.pwrReason k on)
    else (if on then d.domStart k else d.domStop k).pwrEnd k 0

/-! ### Clocks (R450, R451) -/

/-- Region `r` is fenced (R36): its clusters, for a cause; a measurement is abandoned (R457). -/
def Dev.fenceRegion (d : Dev) (r cause : Nat) : Dev :=
  (clustersOf r).foldl (fun d c => d.fenceDom (Dom.cluster c) cause) (d.measAbandon r)

/-- Domains on the FABRIC clock, and those the fabric, vault and management PLLs stop (R450, Table 16.5). -/
def fabricDoms : List Nat := (List.range 8).map Dom.region ++ [Dom.mmp, Dom.firn, Dom.moraine, Dom.sastrugi,
  Dom.security, Dom.spine]

/-- Domains served no more until cold reset (R41). -/
def Dev.killDoms (d : Dev) (ks : List Nat) : Dev := ks.foldl (fun d k => d.fenceDom k 3) d

/-- The lock field of PLL `n` and the bit in it: 0–7 ARITH, 8 fabric, 9 vault, 10 management, 16 + p port. -/
def pllBit (n : Nat) : Option (Fld × Nat) :=
  if n < 8 then some (F.pcc_ARITH_LOCK, n)
  else if n = 8 then some (F.pcc_FABRIC_LOCK, 0)
  else if n = 9 then some (F.pcc_VAULT_LOCK, 0)
  else if n = 10 then some (F.pcc_MGMT_LOCK, 0)
  else if 16 ≤ n ∧ n < 22 then some (F.pcc_PORT_LOCK, n - 16)
  else none

/-- PLL `n` is locked. -/
def Dev.pllLocked (d : Dev) (n : Nat) : Bool :=
  match pllBit n with
  | some (fld, i) => bit (d.g B.pcc fld) i
  | none => false

/-- PLL_UNLOCK (R450): the lock bit falls, and what the clock feeds is fenced, stopped or retrained. -/
def Dev.pllUnlock (d : Dev) (n : Nat) : Dev :=
  match pllBit n with
  | none => d
  | some (fld, i) =>
    if !bit (d.g B.pcc fld) i then d
    else
      let d := (d.p B.pcc fld (setBits (d.g B.pcc fld) i 1 0)).inc B.pcc F.pcc_PLL_UNLOCK_CNT
      let d := d.event 0x0F (if n < 8 then n else 0xFF) 0x0A10 (dtl [(1, n)])
      if n < 8 then d.fenceRegion n 0
      else if n = 8 then d.killDoms fabricDoms
      else if n = 9 then d.killDoms ((List.range 8).map Dom.vault)
      else if n = 10 then d.killDoms [Dom.mgmt, Dom.boot]
      else d.portRetrain (n - 16)

/-- PLL_LOCK: PLL `n` gains lock, releasing no fence; 11 is the return of REFCLK (R450). Every PLL but the management
PLL is fed by REFCLK. -/
def Dev.pllLock (d : Dev) (n : Nat) : Dev :=
  if d.pcc.poreset then d
  else if n = 11 then d.pb B.pcc F.pcc_REFCLK_OK true
  else match pllBit n with
    | none => d
    | some (fld, i) =>
      if n = 10 ∨ d.gb B.pcc F.pcc_REFCLK_OK then d.p B.pcc fld (setBits (d.g B.pcc fld) i 1 1) else d

/-- REFCLK_LOSS at a measured frequency (R451). -/
def Dev.refclkLoss (d : Dev) (khz : Nat) : Dev :=
  if !d.gb B.pcc F.pcc_REFCLK_OK then d
  else
    let d := (d.pb B.pcc F.pcc_REFCLK_OK false).event 0x0F 0xFF 0x0A11 (dtl [(4, khz)])
    (List.range 10 ++ (List.range 6).map (fun p => 16 + p)).foldl (fun d n => d.pllUnlock n) d

/-! ### Temperature (R452, R4) -/

/-- Grade range in °C, both ends inclusive (Table 0.1). -/
def gradeRange (s : Bool) : Int × Int := if s then (0, 105) else (-40, 125)

/-- Detail of a temperature event of a region: region, TJ in 0.125 °C. -/
def thermDtl (r : Nat) (t : Int) : Bytes := dtl [(1, r), (2, unsint 16 t)]

/-- The thresholds applied to region `r` at temperature `t`, in 0.125 °C. -/
def Dev.thermEval (d : Dev) (r : Nat) : Dev :=
  let b := B.pcc
  let t := sint 12 (d.g b F.pcc_TJ r)
  let warn : Int := 8 * (d.g b F.pcc_WARN_C : Nat)
  let thr : Int := 8 * (d.g b F.pcc_THROTTLE_C : Nat)
  let d := if warn ≤ t then
      if bit d.pcc.warned r then d
      else { d with pcc := { d.pcc with warned := setBits d.pcc.warned r 1 1 } }.event 0x0F r 0x0A01 (thermDtl r t)
    else if t ≤ warn - 40 then { d with pcc := { d.pcc with warned := setBits d.pcc.warned r 1 0 } }
    else d
  let on := d.gb b F.pcc_THROTTLED r
  if d.gb b F.pcc_THROTTLE_EN && decide (thr ≤ t) then
    if on then d
    else ((((d.pb b F.pcc_THROTTLED true r).inc b F.pcc_THROTTLE_CNT).event 0x0F r 0x0A02 (thermDtl r t)).measAbandon
      r).arithRate r
  else if on && (!d.gb b F.pcc_THROTTLE_EN || decide (t ≤ thr - 40)) then (d.pb b F.pcc_THROTTLED false r).arithRate r
  else d

/-- TJ of region `r` sampled: reported, its maximum kept, the thresholds and the grade range applied. THERM_GRADE is
raised when the temperature leaves the range and again only after a return into it: log entry 178. -/
def Dev.thermRegion (d : Dev) (s : Bool) (r raw : Nat) : Dev :=
  let b := B.pcc
  let t := sint 12 raw
  let d := d.p b F.pcc_TJ raw r
  let d := if sint 12 (d.g b F.pcc_TJ_MAX r) < t then d.p b F.pcc_TJ_MAX raw r else d
  let d := d.thermEval r
  let g := gradeRange s
  if 8 * g.1 ≤ t ∧ t ≤ 8 * g.2 then { d with pcc := { d.pcc with outRegion := setBits d.pcc.outRegion r 1 0 } }
  else if bit d.pcc.outRegion r then d
  else { d with pcc := { d.pcc with outRegion := setBits d.pcc.outRegion r 1 1 } }.event 0x0F r 0x0A03 (thermDtl r t)

/-- The temperature and number of the hottest tier of vault `v` sampled (R452, R245). -/
def Dev.thermVault (d : Dev) (s : Bool) (v temp tier : Nat) : Dev :=
  let b := B.pcc
  let t := sint 8 temp
  let d := (d.p b F.pcc_VLT_TEMP temp v).p b F.pcc_HOT_TIER tier v
  let g := gradeRange s
  if g.1 ≤ t ∧ t ≤ g.2 then { d with pcc := { d.pcc with outVault := setBits d.pcc.outVault v 1 0 } }
  else if bit d.pcc.outVault v then d
  else { d with pcc := { d.pcc with outVault := setBits d.pcc.outVault v 1 1 } }.event 0x0F v 0x0A03
    (dtl [(1, v), (1, temp % 256)])

/-- TEMP_SAMPLE: the regions' temperatures in 0.125 °C and the vaults' hottest tiers; `gradeS` is the grade fuse. -/
def Dev.tempSample (d : Dev) (gradeS : Bool) (regions : List Nat) (vaults : List (Nat × Nat)) : Dev :=
  if d.pcc.poreset then d
  else
    let d := ((regions.take 8).zipIdx).foldl (fun (d : Dev) (x : Nat × Nat) => d.thermRegion gradeS x.2 x.1) d
    ((vaults.take 8).zipIdx).foldl (fun (d : Dev) (x : (Nat × Nat) × Nat) => d.thermVault gradeS x.2 x.1.1 x.1.2) d

/-- A write of THERM_CFG: the thresholds apply at once. -/
def Dev.thermCfg (d : Dev) (v : Nat) : Dev :=
  let b := B.pcc
  let d := ((d.p b F.pcc_WARN_C v).p b F.pcc_THROTTLE_C (v / 256)).pb b F.pcc_THROTTLE_EN (bit v 16)
  (List.range 8).foldl (fun d r => d.thermEval r) d

/-! ### Voltage windows and rails (R456, R468) -/

/-- The clusters of region `r` are all fenced for its voltage. -/
def Dev.voltFenced (d : Dev) (r : Nat) : Bool :=
  (clustersOf r).all (fun c => bit (d.fence.getD (Dom.cluster c) 0) 1)

/-- VOLT_WINDOW: the rail of region `r` has stood at `mv` for 1 µs. Outside its window it fences the region, once until it
has been within it or a cluster has left the fence; inside, it is within its window again. -/
def Dev.voltWindow (d : Dev) (r mv : Nat) : Dev :=
  let b := B.pcc
  if 8 ≤ r ∨ d.pcc.poreset then d
  else
    let d := d.p b F.pcc_VMEAS_MV mv r
    let s := d.setPoint r
    if s ≤ mv + 25 ∧ mv ≤ s + 25 then d.pb b F.pcc_VWIN_OK true r
    else if !d.gb b F.pcc_VWIN_OK r && d.voltFenced r then d
    else
      let d := (d.pb b F.pcc_VWIN_OK false r).inc b F.pcc_VWIN_CNT
      (d.event 0x0F r 0x0A12 (dtl [(1, r), (2, mv), (2, d.g b F.pcc_VTGT_MV r)])).fenceRegion r 1

/-- Domains a rail feeds: 0 VDD_FAB, 1 VDD_VLT, 2 VDD_SERDES, 3 VDDA_SERDES (Table 16.1). -/
def railDoms (rail : Nat) : List Nat :=
  match rail with
  | 0 => fabricDoms ++ [Dom.mgmt, Dom.boot]
  | 1 => (List.range 8).map Dom.vault
  | 2 => (List.range 6).map Dom.port
  | 3 => (List.range 6).map Dom.port
  | _ => []

/-- The event codes of Table 16.8. -/
def powerEvents : List Nat :=
  [0x0A01, 0x0A02, 0x0A03, 0x0A10, 0x0A11, 0x0A12, 0x0A13, 0x0A30, 0x0A31, 0x0A32, 0x0A33, 0x0A40, 0x0A41, 0x0A42]

/-- The code of the event that reports a rail out of its range as a fault of the package (R41, R468): the spec names
none, so which of the power codes it carries is left open (log entry 203). -/
def railCode (rail : Nat) : Nat := powerEvents.getD (Config.railStatus rail % 14) 0x0A12

/-- RAIL_OUT_OF_RANGE (R468): 0 VDD_FAB, 1 VDD_VLT, 2 VDD_SERDES, 3 VDDA_SERDES, 4 VDDQ_MMP, 5 VDD_DRAM, 6 VPP_DRAM,
7 VDD_IO. What it feeds serves nothing until cold reset, and the fault is reported as one of the package (R41). The rails are
monitored once PORESET_N is released. -/
def Dev.railOut (d : Dev) (rail : Nat) : Dev :=
  if d.pcc.poreset then d
  else
    let d := (d.killDoms (railDoms rail)).event 0x0F 0xFF (railCode rail) (dtl [(1, rail)])
    match rail with
    | 4 => { d with pcc := { d.pcc with mmpIoDead := true } }
    | 5 => { d with pcc := { d.pcc with dramDead := true } }
    | 6 => { d with pcc := { d.pcc with dramDead := true } }
    | 7 => { d with pcc := { d.pcc with ioDead := true } }
    | _ => d

/-- VDD_SAFE_DIP (R468): the Rime domain is in reset, and the pull-downs assert both pins (`Dev.faultPin`). -/
def Dev.safeDip (d : Dev) : Dev := if d.pcc.poreset then d else d.fenceDom Dom.rime 4

/-- PCC_CNT_CLR (R462). -/
def Dev.pccCntClr (d : Dev) : Dev :=
  d.clearFlds B.pcc [F.pcc_PWR_REFUSE_CNT, F.pcc_PLL_UNLOCK_CNT, F.pcc_VWIN_CNT, F.pcc_THROTTLE_CNT,
    F.pcc_AVS_RETRY_CNT, F.pcc_CREEP_MEAS_CNT, F.pcc_CREEP_DEFER_CNT]

end Sys2Proof.Machine
end

