-- ==== Sys2Proof/Machine/Dict.lean ====
section
/-!
DEFINITION. The Knayn dictionary: entries (R357–R363), access items (R364–R366), the store (R362), and the Varve clock's
registers (R377–R380, R384), which some entries act on.
Choices of the model: log entries 125, 126, 127, 134, 204, 206.
-/

namespace Sys2Proof.Machine

/-! ### The Varve clock (R377–R379) -/

/-- The Varve time, 64 bits and a fraction, moved on by whole units of 2⁻³² ns. -/
def Dev.varveAdd (d : Dev) (units : Int) : Dev :=
  let t := (((d.varve * 2 ^ 32 + d.varveFrac : Nat) : Int) + units) % (2 ^ 96 : Int)
  { d with varve := t.toNat / 2 ^ 32, varveFrac := t.toNat % 2 ^ 32 }

/-- TIME_SOURCE in force: the value of 0x5001:01 at the last reset (R380). -/
def Dev.timeSource (d : Dev) : Nat := leNat (d.dict.inForce.getD (0x5001 * 256 + 1) [1])

/-- The largest RATE_ADJ (R378). -/
def rateLimit : Int := 858993

/-- RATE_ADJ_WRITE: clamped at the limit, with LIMIT_HIT (R378); under TIME_SOURCE 0 it stays at 0 (R380). -/
def Dev.rateWrite (d : Dev) (v : Nat) : Dev :=
  let r := sint 32 v
  if d.timeSource = 0 then d
  else if r < -rateLimit then (d.p B.mgmt F.mgmt_RATE_ADJ (unsint 32 (-rateLimit))).pb B.mgmt F.mgmt_LIMIT_HIT true
  else if rateLimit < r then (d.p B.mgmt F.mgmt_RATE_ADJ (unsint 32 rateLimit)).pb B.mgmt F.mgmt_LIMIT_HIT true
  else d.p B.mgmt F.mgmt_RATE_ADJ v

/-- STEP_GO: the Varve counter stepped by STEP_OFFSET, once between two cold resets (R379); under TIME_SOURCE 0 no step is
taken (R380). -/
def Dev.stepGo (d : Dev) : Dev :=
  let b := B.mgmt
  if d.gb b F.mgmt_STEPPED || d.timeSource == 0 then d
  else
    let before := d.varve
    let d := d.varveAdd (sint 64 (d.g b F.mgmt_STEP_OFFSET) * 2 ^ 32)
    let d := ((d.p b F.mgmt_STEP_BEFORE before).p b F.mgmt_STEP_AFTER d.varve).pb b F.mgmt_STEPPED true
    d.event 0x11 0 0x0A40 (dtl [(8, before), (8, d.varve)])

/-! ### Entries (Tables 13.1–13.3) -/

/-- An entry: type code, access code (0 CONST, 1 RO, 2 RW, 3 WO, 4 RWS), persistence, size. -/
structure DEnt where
  ty : Nat
  acc : Nat
  pers : Bool
  size : Nat
  deriving DecidableEq, Repr

namespace DEnt
def bool (acc : Nat) (pers : Bool := false) : DEnt := ⟨1, acc, pers, 1⟩
def u8 (acc : Nat) (pers : Bool := false) : DEnt := ⟨2, acc, pers, 1⟩
def u16 (acc : Nat) (pers : Bool := false) : DEnt := ⟨3, acc, pers, 2⟩
def u32 (acc : Nat) (pers : Bool := false) : DEnt := ⟨4, acc, pers, 4⟩
def u64 (acc : Nat) : DEnt := ⟨5, acc, false, 8⟩
def i16 (acc : Nat) : DEnt := ⟨7, acc, false, 2⟩
def i32 (acc : Nat) : DEnt := ⟨8, acc, false, 4⟩
def i64 (acc : Nat) : DEnt := ⟨9, acc, false, 8⟩
def domain (n acc : Nat) (pers : Bool := false) : DEnt := ⟨12, acc, pers, n⟩
/-- The serial number, the one VSTRING. -/
def serial : DEnt := ⟨11, 0, false, (Config.serialNumber.take 255).length⟩
end DEnt

/-- Indexes with one row each (Table 13.3 and the chapters it names). -/
def dictFixed (idx : Nat) : Option (List DEnt) :=
  let u32c := DEnt.u32 0
  match idx with
  | 0x1000 => some [u32c, .u8 0, .u8 4 true, .u8 0, .u32 1, .u32 1, .serial]
  | 0x1001 => some (List.replicate 7 u32c)
  | 0x1010 => some (List.replicate 5 u32c)
  | 0x1011 => some (List.replicate 10 u32c)
  | 0x1012 => some (List.replicate 6 u32c)
  | 0x1013 => some (List.replicate 5 u32c)
  | 0x1014 => some (List.replicate 6 u32c)
  | 0x1020 => some [.u8 4 true, .u8 4 true]
  | 0x1030 => some [.u32 2 true, .u32 2 true, .u32 2 true, .u16 2 true, .domain 6 0, .u8 2 true, .bool 4 true]
  | 0x1032 => some [.bool 2 true, .u8 2 true, .u16 2 true, .u32 2 true, .u32 2 true]
  | 0x1033 => some [.bool 2 true, .u8 2 true, .u16 2 true, .u32 2 true, .u32 2 true]
  | 0x1040 => some [.u8 1, .u8 1, .u8 1]
  | 0x1050 => some [.domain 32 2, .domain 1024 1, .domain 1024 1, .domain 1024 1, .domain 1024 1, .u16 4 true, .u32 1]
  | 0x1F00 => some [.u32 3, .u32 3, .u8 1, .u32 1]
  | 0x3000 => some (List.replicate 5 (.u32 4 true))
  | 0x4000 => some [.u8 4 true, .u8 4 true, .bool 4 true]
  | 0x4001 => some [.u8 4 true, .u8 4 true, .u8 4 true, .bool 4 true]
  | 0x4020 => some [.u64 1, .u32 1, .u32 1]
  | 0x5000 => some [.u64 1, .u8 1, .bool 1, .u64 1, .u64 1, .i32 1, .i64 1, .u32 1]
  | 0x5001 => some [.u8 4 true, .u16 4 true, .u16 4 true, .u16 4 true, .i64 3, .i32 3]
  | 0x7001 => some (List.replicate 7 (.u32 1))
  | 0x7002 => some (List.replicate 5 (.u32 1))
  | 0x7003 => some (List.replicate 5 (.u32 1))
  | 0x7004 => some (List.replicate 3 (.u32 1))
  | 0x7005 => some (List.replicate 4 (.u32 1))
  | 0x7006 => some (List.replicate 3 (.u32 1))
  | 0x7010 => some (List.replicate 4 (.u32 1))
  | 0x8000 => some [.domain 60 1, .u32 1, .u8 1, .u8 1]
  | 0x8001 => some (List.replicate 4 (.domain 32 1))
  | 0x8030 => some [.domain 784 1, .domain 784 1]
  | 0x8050 => some [.u8 3, .domain 64 3, .u8 2, .u16 1]
  | _ => none

/-- `idx` lies among the `n` indexes from `base` on. -/
def inRow (idx base n : Nat) : Bool := decide (base ≤ idx) && decide (idx < base + n)

/-- The entries of an index, subindex 1 first; none where the index does not exist. -/
def dictRow (idx : Nat) : Option (List DEnt) :=
  match dictFixed idx with
  | some l => some l
  | none =>
    if inRow idx 0x2500 64 then some [.u32 4 true, .u32 4 true, .u16 4 true, .domain 64 4 true]
    else if inRow idx 0x2600 32 then some [.u32 4 true, .u32 4 true, .u32 4 true]
    else if inRow idx 0x2700 2 then some [.u32 4 true, .u8 4 true, .u16 4 true, .bool 4 true]
    else if inRow idx 0x3010 4 then some [.domain 16 4 true]
    else if inRow idx 0x3100 16 then some [.domain 20 4 true]
    else if inRow idx 0x4010 8 then some [.u16 1, .u16 1, .u16 1, .i16 1, .i16 1, .u32 1, .u8 1]
    else if inRow idx 0x6000 16 then some [.u8 1, .u16 1, .u32 1, .bool 1, .bool 1]
    else if inRow idx 0x6100 16 then some [.u32 1, .u32 1, .u32 1, .u32 1, .u32 1, .domain 16 1]
    else if inRow idx 0x7300 256 then some [.u64 1, .u64 1, .u16 1]
    else if inRow idx 0x8010 4 then some [.domain 784 4 true, .domain 784 4 true, .u8 3, .domain 8 1, .u8 1]
    else if inRow idx 0x8020 8 then some [.domain 40 4 true, .u8 4 true, .u8 1]
    else none

/-- An entry; subindex 0 holds the highest subindex of its index (R357). -/
def dictEnt (idx sub : Nat) : Option DEnt :=
  match dictRow idx with
  | none => none
  | some l => if sub = 0 then some (.u8 0) else l[sub - 1]?

/-- The default of a persistent entry. -/
def dictDflt (o : Otp) (idx sub : Nat) : Bytes :=
  let size := match dictEnt idx sub with
    | some e => e.size
    | none => 0
  let n := fun (v : Nat) => natLE size v
  match idx, sub with
  | 0x1030, 1 => n 0xC0A8640A
  | 0x1030, 2 => n 0xFFFFFF00
  | 0x1030, 4 => n 0xB9A8
  | 0x1030, 7 => n 1
  | 0x1050, 6 => n 1000
  | 0x3000, 1 => n 0x3F
  | 0x3000, 2 => n 7
  | 0x3000, 3 => n 10000
  | 0x3000, 4 => n 3600
  | 0x3000, 5 => n 0x07D00036
  | 0x4000, 1 => n (if o.gradeS then 0x5F else 0x73)
  | 0x4000, 2 => n (if o.gradeS then 0x64 else 0x78)
  | 0x4000, 3 => n 1
  | 0x4001, 1 => n 25
  | 0x4001, 2 => n 20
  | 0x4001, 3 => n 24
  | 0x4001, 4 => n 1
  | 0x5001, 1 => n 1
  | 0x5001, 2 => n 3000
  | _, _ =>
    if idx = 0x1032 ∨ idx = 0x1033 then
      (match sub with
       | 1 => n 1
       | 2 => n 1
       | 3 => n 0x400
       | 4 => n 500000
       | 5 => n 2000000
       | _ => zeros size)
    else if inRow idx 0x2600 32 ∧ sub = 1 then n 0x1080
    else if inRow idx 0x2700 2 then
      (match sub with
       | 1 => n 0x03F00000
       | 2 => n 12
       | 3 => n 0xFFFF
       | _ => zeros size)
    else zeros size

/-- A persistent entry as it stands. -/
def Dev.persV (d : Dev) (o : Otp) (idx sub : Nat) : Bytes := d.persD idx sub (dictDflt o idx sub)

/-- A persistent entry as it stood at the last reset, for those that take effect at the next one (R363, R380). -/
def Dev.inForce (d : Dev) (o : Otp) (idx sub : Nat) : Nat :=
  leNat (d.dict.inForce.getD (idx * 256 + sub) (dictDflt o idx sub))

/-- Words of the QAM and block parameters (R7, R154, R178, R206, R225, R355). -/
def dictParams (idx : Nat) : List Nat :=
  match idx with
  | 0x1001 => [512, 1048576, 8, 16384, 256, 16, 0x00010000]
  | 0x1010 => [4194304, 1048576, 2097152, 8, 16]
  | 0x1011 => [0, 0x10000, 0x200000, 0x2200000, 0x4200000, 0x5200000, 0x5600000, 0x5E00000, 0x6200000, 111149056]
  | 0x1012 => [64, 2048, 65536, 4096, 256, 2]
  | 0x1013 => [1024, 4, 2097152, 256, 1024]
  | 0x1014 => [6, 16, 64, 8, 32, 2048]
  | _ => []

/-- A published recall sum of layer `l`, which `k` picks (0 NEEDED, 1 HIT): what RECALL_CLR has cleared, and the counters of
every region (R145, R147). -/
def Dev.recall (d : Dev) (k l : Nat) : Nat :=
  (d.dict.recallSum.getD (2 * l + k) 0 + ((List.range 8).map (fun r =>
    d.g (B.spu r) (if k = 0 then F.spu_RECALL_NEEDED else F.spu_RECALL_HIT) l)).sum) % 2 ^ 64

/-- The value of an entry that is not persistent. -/
def Dev.dictLive (d : Dev) (o : Otp) (idx sub : Nat) : Bytes :=
  let b := B.pcc
  let r := idx % 16
  let flag := fun (v : Bool) => [byte (b2n v)]
  match idx, sub with
  | 0x1000, 1 => natLE 4 0x7200
  | 0x1000, 2 => [if o.gradeS then 0x53 else 0x56]
  | 0x1000, 4 => [byte Config.siliconRevision]
  | 0x1000, 5 => natLE 4 d.sec.bootId
  | 0x1000, 6 => natLE 4 d.sec.fwVersion
  | 0x1000, 7 => Config.serialNumber.take 255
  | 0x1030, 5 => padTo 6 Config.macAddress
  | 0x1040, 1 => flag d.dict.ethUp
  | 0x1040, 2 => [byte (d.dict.cans.getD 0 {}).state]
  | 0x1040, 3 => [byte (d.dict.cans.getD 1 {}).state]
  | 0x1050, 1 => d.sec.nonce
  | 0x1050, 7 => natLE 4 d.sec.quoteSeq
  | 0x1F00, 3 => [byte d.dict.storeState]
  | 0x1F00, 4 => natLE 4 d.dict.storeGen
  | 0x4020, 1 => natLE 8 d.lifeNow
  | 0x4020, 2 => natLE 4 d.flash.creepValids.length
  | 0x4020, 3 => match d.flash.creepLatest with
      | some x => (x.2.drop 4).take 4
      | none => zeros 4
  | 0x5000, 1 => natLE 8 d.varve
  | 0x5000, 2 => [byte d.dict.syncState]
  | 0x5000, 3 => flag (d.gb B.mgmt F.mgmt_STEPPED)
  | 0x5000, 4 => natLE 8 (d.g B.mgmt F.mgmt_STEP_BEFORE)
  | 0x5000, 5 => natLE 8 (d.g B.mgmt F.mgmt_STEP_AFTER)
  | 0x5000, 6 => natLE 4 (d.g B.mgmt F.mgmt_RATE_ADJ)
  | 0x5000, 7 => natLE 8 d.dict.offset
  | 0x5000, 8 => natLE 4 d.dict.meanDelay
  | 0x8000, 1 => identityKey
  | 0x8000, 2 => natLE 4 (leafEnd - d.g B.sec F.sec_ID_NEXT_LEAF)
  | 0x8000, 3 => [byte o.lifecycle]
  | 0x8000, 4 => [byte o.svnMin]
  | 0x8030, 1 => kemPublic.take 784
  | 0x8030, 2 => kemPublic.drop 784
  | 0x8050, 3 => [byte (d.g B.sec F.sec_JK_OP)]
  | 0x8050, 4 => natLE 2 (d.g B.sec F.sec_JK_STATUS)
  | _, _ =>
    if inRow idx 0x1001 1 || inRow idx 0x1010 5 then natLE 4 ((dictParams idx).getD (sub - 1) 0)
    else if idx = 0x1050 then (d.sec.quote.drop (1024 * (sub - 2))).take 1024
    else if inRow idx 0x4010 8 then
      (match sub with
       | 1 => natLE 2 (d.g b F.pcc_VTGT_MV r)
       | 2 => natLE 2 (d.g b F.pcc_VMIN_MV r)
       | 3 => natLE 2 (d.g b F.pcc_HEADROOM_MV r)
       | 4 => natLE 2 (unsint 16 (sint 12 (d.g b F.pcc_TJ r)))
       | 5 => natLE 2 (unsint 16 (sint 12 (d.g b F.pcc_TJ_MAX r)))
       | 6 => natLE 4 (d.g b F.pcc_LAST_MEAS_S r)
       | _ => [byte (d.g b F.pcc_THROTTLED r + 2 * d.g b F.pcc_EXHAUSTED r + 4 * d.g b F.pcc_HEADROOM_LOW r +
           8 * d.g b F.pcc_MEAS_OVERDUE r)])
    else if inRow idx 0x6000 16 then
      (match sub with
       | 1 => [byte (d.ctxState r)]
       | 2 => natLE 2 (d.ctxRunning r)
       | 3 => natLE 4 (d.g B.mgmt F.mgmt_CTX_FAULT_CNT r)
       | 4 => flag (d.gb B.mgmt F.mgmt_LATENCY r)
       | _ => flag (d.gb B.mgmt F.mgmt_SAFETY r))
    else if inRow idx 0x6100 16 then
      (match sub with
       | 1 => natLE 4 (d.g B.rime F.rime_PUB_CNT r)
       | 2 => natLE 4 (d.g B.rime F.rime_FALLBACK_CNT r)
       | 3 => natLE 4 (d.g B.rime F.rime_LATE_CNT r)
       | 4 => natLE 4 (d.g B.rime F.rime_DEADLINE_CNT r)
       | 5 => natLE 4 (d.g B.rime F.rime_WIN_COUNT r)
       | _ => padTo 16 (d.stream r).tag)
    else if inRow idx 0x7300 256 then
      (let n := d.recall 0 (idx - 0x7300)
       let h := d.recall 1 (idx - 0x7300)
       match sub with
       | 1 => natLE 8 n
       | 2 => natLE 8 h
       | _ => natLE 2 (if n = 0 then 0 else h * 10000 / n))
    else if idx = 0x8001 then (List.range 8).flatMap (fun i => natLE 4 (d.g B.sec F.sec_MEAS (8 * (sub - 1) + i)))
    else if inRow idx 0x8010 4 then
      (match d.sec.keks.get? (idx - 0x8010) with
       | some k => if sub = 4 then kekCheck k else [1]
       | none => if sub = 4 then zeros 8 else [0])
    else if inRow idx 0x8020 8 then flag (d.sec.mkeys.get? (idx - 0x8020)).isSome
    else natLE 4 (d.dcnt idx sub)

/-- The value of an entry (R357). -/
def Dev.dictGet (d : Dev) (o : Otp) (idx sub : Nat) : Bytes :=
  match dictEnt idx sub with
  | none => []
  | some e =>
    if sub = 0 then [byte (((dictRow idx).getD []).length)]
    else if e.pers then padTo e.size (d.persV o idx sub)
    else d.dictLive o idx sub

/-! ### Writes (R360) -/

/-- The value lies in the range its entry describes. -/
def dictInRange (idx sub : Nat) (v : Bytes) : Bool :=
  let n := leNat v
  match idx, sub with
  | 0x1000, 3 => decide (n ≤ 63)
  | 0x1030, 6 => decide (n ≤ 3)
  | 0x1050, 6 => decide (100 ≤ n) && decide (n ≤ 60000)
  | 0x1F00, 1 => n == 0x65766173
  | 0x1F00, 2 => n == 0x64616F6C
  | 0x4001, 1 => decide (10 ≤ n) && decide (n ≤ 60)
  | 0x4001, 2 => decide (n ≤ 150)
  | 0x4001, 3 => decide (1 ≤ n) && decide (n ≤ 168)
  | 0x5001, 1 => decide (n ≤ 2)
  | 0x5001, 2 => decide (100 ≤ n) && decide (n ≤ 60000)
  | 0x5001, 3 => decide (n ≤ 10000)
  | 0x5001, 4 => decide (n ≤ 10000)
  | 0x8050, 3 => decide (n ≤ 2)
  | _, _ =>
    if idx = 0x1032 ∨ idx = 0x1033 then
      (match sub with
       | 2 => decide (1 ≤ n) && decide (n ≤ 63)
       | 3 => n % 0x80 == 0 && decide (n ≤ 0x780)
       | 4 => [125000, 250000, 500000, 1000000].contains n
       | 5 => [1000000, 2000000, 4000000, 5000000, 8000000].contains n
       | _ => true)
    else if inRow idx 0x2700 2 then
      (match sub with
       | 1 => n % 64 == 0
       | 2 => decide (6 ≤ n) && decide (n ≤ 16)
       | _ => true)
    else if inRow idx 0x8010 4 ∧ sub = 3 then n == 1 || n == 2
    else if inRow idx 0x8020 8 ∧ sub = 2 then decide (n ≤ 3)
    else true

/-- THERM_CFG and CREEP_CFG from their persistent entries (R463). -/
def Dev.thermFromDict (d : Dev) (o : Otp) : Dev :=
  let v := fun (i s : Nat) => leNat (d.persV o i s)
  (d.thermCfg (v 0x4000 1 + 256 * v 0x4000 2 + 65536 * v 0x4000 3)).creepCfg
    (v 0x4001 1 + 256 * v 0x4001 2 + 65536 * v 0x4001 3 + 2 ^ 24 * v 0x4001 4)

/-- A copy of the store as firmware writes it, with its CRC-32C (R362). -/
def storeCopy (gen : Nat) (vals : Tab Bytes) : StoreCopy := ⟨gen, vals, Crypto.crc32c (Config.storeImage gen vals)⟩

/-- The CRC of a copy holds. -/
def StoreCopy.valid (c : StoreCopy) : Bool := c.crc == Crypto.crc32c (Config.storeImage c.gen c.vals)

/-- DICT_STORE: a store of every persistent entry begins; KR_BUSY while one runs (R362). -/
def Dev.dictStore (d : Dev) : Dev × Nat :=
  if d.dict.store.isSome then (d, 9)
  else ({ d with dict := { d.dict with store := some d.pers, storeState := 1 } }, 0)

/-- A copy of the store whose CRC holds. -/
def Flash.storeAt (f : Flash) (k : Nat) : Option StoreCopy := (f.stores.get? k).filter StoreCopy.valid

/-- The current copy of the store: among those whose CRC holds the one with the higher generation. -/
def Flash.storeCurrent (f : Flash) : Option (Nat × StoreCopy) :=
  match f.storeAt 0, f.storeAt 1 with
  | some a, some b => if a.gen < b.gen then some (1, b) else some (0, a)
  | some a, none => some (0, a)
  | none, some b => some (1, b)
  | none, none => none

/-- DICT_STORE_DONE: the copy is read back and becomes current, or the store fails and the other stays current. -/
def Dev.dictStoreDone (d : Dev) (ok : Bool) : Dev :=
  match d.dict.store with
  | none => d
  | some vals =>
    if !d.mgmtRuns then d
    else
      let c := d.flash.storeCurrent
      let slot := match c with
        | some x => 1 - x.1
        | none => 0
      let gen := match c with
        | some x => (x.2.gen + 1) % 2 ^ 32
        | none => 1
      if ok && !d.pcc.ioDead then
        { d with flash := { d.flash with stores := d.flash.stores.put slot (storeCopy gen vals) }
                 dict := { d.dict with store := none, storeState := 2, storeGen := gen } }
      else
        { d with flash := { d.flash with stores := d.flash.stores.del slot }
                 dict := { d.dict with store := none, storeState := 3 } }

/-- DICT_RESTORE: every persistent entry takes its default, with the effect of its write (R362). -/
def Dev.dictRestore (d : Dev) (o : Otp) : Dev :=
  let d := { d with pers := [] }.thermFromDict o
  (List.range 8).foldl (fun d m => d.mkeyUnwrap m) d

/-- The external step and rate of TIME_SOURCE 2 (R380). -/
def Dev.extTime (d : Dev) (sub n : Nat) (secure : Bool) : Dev × Nat :=
  if !secure then (d, 4)
  else if d.timeSource ≠ 2 then (d, 8)
  else if sub = 5 then
    if d.gb B.mgmt F.mgmt_STEPPED then (d, 8)
    else
      let d := (d.p B.mgmt F.mgmt_STEP_OFFSET n).stepGo
      ({ d with dict := { d.dict with syncState := 2 } }, 0)
  else (d.rateWrite n, 0)

/-- A value within its range written: its effect, and a result code of Table 13.5. A KEM ciphertext is written only while
its KEK slot is EMPTY (R431). -/
def Dev.dictPut (d : Dev) (o : Otp) (idx sub : Nat) (v : Bytes) (secure : Bool) : Dev × Nat :=
  let n := leNat v
  let kept := d.setPers idx sub (dictDflt o idx sub) v
  match idx, sub with
  | 0x1050, 1 => d.nonceWrite v
  | 0x1F00, 1 => d.dictStore
  | 0x1F00, 2 => (d.dictRestore o, 0)
  | 0x5001, 5 => d.extTime 5 n secure
  | 0x5001, 6 => d.extTime 6 n secure
  | 0x8050, 1 => (d.jkRun (d.g B.sec F.sec_JK_OP) n d.sec.jkData, 0)
  | 0x8050, 2 => ({ d with sec := { d.sec with jkData := padTo 64 v } }, 0)
  | 0x8050, 3 => (d.p B.sec F.sec_JK_OP n, 0)
  | _, _ =>
    if inRow idx 0x8010 4 ∧ sub < 3 ∧ (d.sec.keks.get? (idx - 0x8010)).isSome then (d, 8)
    else if inRow idx 0x8010 4 ∧ sub = 3 then (if n = 1 then d.kekCommit (idx - 0x8010) else d.kekErase (idx - 0x8010), 0)
    else if inRow idx 0x8020 8 ∧ sub = 2 then (d.mkeyIndex (idx - 0x8020) n, 0)
    else if idx = 0x4000 ∨ idx = 0x4001 then (kept.thermFromDict o, 0)
    else (kept, 0)

/-- A write of an entry by a request of a world (R359, R360): its result code. -/
def Dev.dictSet (d : Dev) (o : Otp) (idx sub ty : Nat) (v : Bytes) (secure : Bool) : Dev × Nat :=
  match dictEnt idx sub with
  | none => (d, if (dictRow idx).isNone then 1 else 2)
  | some e =>
    if e.acc = 0 ∨ e.acc = 1 then (d, 3)
    else if e.acc = 4 ∧ !secure then (d, 4)
    else if ty ≠ e.ty then (d, 5)
    else if v.length ≠ e.size then (d, 6)
    else if (e.ty = 1 ∧ 1 < leNat v) ∨ !dictInRange idx sub v then (d, 7)
    else d.dictPut o idx sub v secure

/-! ### Items and messages (R364–R366) -/

/-- An access item of a request: operation, subindex, index, type, RESULT, data. -/
structure Item where
  op : Nat
  sub : Nat
  idx : Nat
  ty : Nat
  result : Nat
  data : Bytes
  deriving DecidableEq, Repr

/-- The items of a message: at most `n` are read, and what follows them. -/
def readItems : Nat → Bytes → Option (List Item × Bytes)
  | 0, b => some ([], b)
  | n + 1, b =>
    let len := fieldN b 6 2
    if b.length < 8 + alignUp len 4 then none
    else
      match readItems n (b.drop (8 + alignUp len 4)) with
      | none => none
      | some r => some (⟨fieldN b 0 1, fieldN b 1 1, fieldN b 2 2, fieldN b 4 1, fieldN b 5 1, (b.drop 8).take len⟩ :: r.1,
                       r.2)

/-- An item of a response. -/
def itemBytes (i : Item) (ty result : Nat) (data : Bytes) : Bytes :=
  [byte i.op, byte i.sub] ++ natLE 2 i.idx ++ [byte ty, byte result] ++ natLE 2 data.length ++
    padTo (alignUp data.length 4) data

/-- One item applied (R364): the response's type, result and data. -/
def Dev.dictItem (d : Dev) (o : Otp) (secure : Bool) (i : Item) : Dev × Nat × Nat × Bytes :=
  let no := fun (r : Nat) => (d, i.ty, r, ([] : Bytes))
  if i.op = 0 ∨ 3 < i.op ∨ i.result ≠ 0 then no 0x0B
  else if inRow i.idx 0x8000 0x1000 && !secure then no 4
  else match dictEnt i.idx i.sub with
    | none => no (if (dictRow i.idx).isNone then 1 else 2)
    | some e =>
      if i.op = 2 then
        let r := d.dictSet o i.idx i.sub i.ty i.data secure
        (r.1, i.ty, r.2, [])
      else if i.op = 1 ∧ e.acc = 3 then no 3
      else if i.ty ≠ 0 ∧ i.ty ≠ e.ty then no 5
      else if i.data ≠ [] then no 6
      else if i.op = 1 then (d, e.ty, 0, d.dictGet o i.idx i.sub)
      else (d, e.ty, 0, [byte e.ty, byte e.acc, byte (b2n e.pers), 0] ++ natLE 2 e.size ++ [0, 0])

/-- The items of one message applied in order, with the response they make; from the item on whose response would pass
the limit of the path, items are not applied (R365, R366). -/
def Dev.dictItems (d : Dev) (o : Otp) (secure : Bool) (limit : Nat) : List Item → Bytes → Bool → Dev × Bytes
  | [], out, _ => (d, out)
  | i :: rest, out, full =>
    let r := d.dictItem o secure i
    let b := itemBytes i r.2.1 r.2.2.1 r.2.2.2
    if full || decide (limit < out.length + b.length) then
      d.dictItems o secure limit rest (out ++ itemBytes i i.ty 6 []) true
    else r.1.dictItems o secure limit rest (out ++ b) false

/-- One message: its items applied in order; a store that it starts takes its snapshot after the last of them, between this
message and the next (R362). -/
def Dev.dictMessage (d : Dev) (o : Otp) (secure : Bool) (limit : Nat) (l : List Item) : Dev × Bytes :=
  let r := d.dictItems o secure limit l [] false
  if d.dict.store.isNone && r.1.dict.store.isSome then
    ({ r.1 with dict := { r.1.dict with store := some r.1.pers } }, r.2)
  else r

/-- The world a request acts in (R435). -/
def dictWorld (o : Otp) (secure : Bool) : Bool := secure || o.lifecycle == 0

/-- The service acts on requests (R386). -/
def Dev.dictReady (d : Dev) : Bool := d.mgmtRuns && d.gb B.dictm F.dictm_DM_READY

end Sys2Proof.Machine
end

