-- ==== Sys2Proof/Machine/Paths.lean ====
section
/-!
DEFINITION. The paths of the dictionary: KOP over Ethernet (R367–R369), CAN FD (R370–R372), the mirror and its snapshot
(R373–R376); and the time service (R380–R383).
Choices of the model: log entries 128, 129, 130, 131, 132, 133, 135, 177, 204, 205, 207.
-/

namespace Sys2Proof.Machine

/-- The dictionary's further state replaced. -/
def Dev.setDict (d : Dev) (f : Dict → Dict) : Dev := { d with dict := f d.dict }

/-- A big-endian field of a frame. -/
def beField (b : Bytes) (o n : Nat) : Nat := beNat ((b.drop o).take n)

/-! ### The time service (R380–R383) -/

/-- The MAC works: its domain serves and VDD_IO feeds its sideband. -/
def Dev.macUp (d : Dev) : Bool := d.mgmtRuns && d.dict.ethUp

/-- Something sent. -/
def Dev.ethSend (d : Dev) (x : EthOut) : Dev := d.setDict (fun c => { c with ethOut := c.ethOut ++ [x] })

/-- The 802.1AS station runs: TIME_SOURCE 1 in force. -/
def Dev.timeRuns (d : Dev) : Bool := d.macUp && d.timeSource == 1

/-- Fixed corrections and uncertainty of the link mode in force: transmit, receive, uncertainty (Table 13.11). -/
def Dev.stampFix (d : Dev) (o : Otp) : Nat × Nat × Nat :=
  match d.inForce o 0x1030 6 with
  | 1 => (104, 152, 8)
  | 2 => (592, 1040, 80)
  | 3 => (5392, 9840, 800)
  | _ => (112, 168, 8)

/-- What the MAC's clock shows at a start-of-frame delimiter: the Varve time in units of 8 ns, with an error within the
uncertainty of the link mode; free. -/
def Dev.stampRaw (d : Dev) (o : Otp) : Int × Dev :=
  let u := (d.stampFix o).2.2
  let f := d.fresh
  ((8 * (d.varve / 8 + f.1 % (2 * (u / 8) + 1)) : Nat) - (u : Int), f.2)

/-- The ingress timestamp of a frame that arrives now (R383). -/
def Dev.stampIn (d : Dev) (o : Otp) : Int × Dev :=
  let e := d.stampRaw o
  let t := e.1 - ((d.stampFix o).2.1 : Nat) - (leNat (d.persV o 0x5001 3) : Nat)
  (t, e.2.setDict (fun c => { c with stampRx := unsint 64 t }))

/-- The egress timestamp of a frame that leaves now. -/
def Dev.stampOut (d : Dev) (o : Otp) : Int × Dev :=
  let e := d.stampRaw o
  let t := e.1 + ((d.stampFix o).1 : Nat) + (leNat (d.persV o 0x5001 4) : Nat)
  (t, e.2.setDict (fun c => { c with stampTx := unsint 64 t }))

/-- The servo's rate: which it asks for is firmware's choice; beyond the limit it holds the limit (R380). -/
def Dev.steer (d : Dev) : Dev :=
  let f := d.fresh
  let want := sint 32 f.1
  let d := f.2
  if want < -rateLimit then
    (d.p B.mgmt F.mgmt_RATE_ADJ (unsint 32 (-rateLimit))).event 0x11 0 0x0A41 (dtl [(4, unsint 32 want)])
  else if rateLimit < want then
    (d.p B.mgmt F.mgmt_RATE_ADJ (unsint 32 rateLimit)).event 0x11 0 0x0A41 (dtl [(4, unsint 32 want)])
  else d.p B.mgmt F.mgmt_RATE_ADJ (unsint 32 want)

/-- An offset measured: a Sync that left the grandmaster at `t` was stamped `s` here. The first is stepped away, later
ones are steered (R380). -/
def Dev.timeOffset (d : Dev) (t : Nat) (s : Int) : Dev :=
  let off : Int := s - ((t + d.dict.meanDelay : Nat) : Int)
  let d := d.setDict (fun c => { c with offset := unsint 64 off, syncWait := none })
  if d.gb B.mgmt F.mgmt_STEPPED then d.steer
  else
    let d := (d.p B.mgmt F.mgmt_STEP_OFFSET (unsint 64 (-off))).stepGo
    d.setDict (fun c => { c with syncState := 2, lastSync := d.varve, pdReq := none, pdResp := none })

/-- Messages of source port `src` are followed: that of the latest Announce heeded, or any while none has been. -/
def Dev.follows (d : Dev) (src : Nat) : Bool := d.dict.announce.isEmpty || beField d.dict.announce 20 10 == src

/-- The port is asCapable (R381). -/
def Dev.asCapable (d : Dev) : Bool := decide (d.dict.meanDelay ≤ 800)

/-- A Sync stamped `t4` here, one-step with the time it carries, or two-step (R381, R382). -/
def Dev.syncAt (d : Dev) (seq src : Nat) (origin : Option Nat) (t4 : Int) : Dev :=
  if !d.timeRuns || !d.asCapable || !d.follows src then d
  else
    let stepped := d.gb B.mgmt F.mgmt_STEPPED
    let d := d.setDict (fun c => { c with
      lastSync := d.varve
      syncState := if stepped then 2 else if c.syncState = 0 then 1 else c.syncState })
    match origin with
    | none => d.setDict (fun c => { c with syncWait := some (seq, unsint 64 t4) })
    | some t => d.timeOffset t t4

/-- A Follow_Up completes the two-step Sync of its sequence number. -/
def Dev.followUp (d : Dev) (seq src origin : Nat) : Dev :=
  match d.dict.syncWait with
  | some (q, t) => if d.timeRuns && d.asCapable && d.follows src && q == seq then d.timeOffset origin (sint 64 t) else d
  | none => d

/-- A Pdelay_Req stamped `t2` here is answered in two steps. -/
def Dev.pdelayReqAt (d : Dev) (o : Otp) (seq : Nat) (t2 : Int) : Dev :=
  if !d.timeRuns then d
  else
    let t3 := d.stampOut o
    t3.2.ethSend (.pdelayResp seq (unsint 64 t2) (unsint 64 t3.1))

/-- A Pdelay_Resp to the request in flight, received by the peer at `t2`, stamped `t4` here. -/
def Dev.pdelayRespAt (d : Dev) (seq t2 : Nat) (t4 : Int) : Dev :=
  match d.dict.pdReq with
  | some (q, _) => if d.timeRuns && q == seq then d.setDict (fun c => { c with pdResp := some (t2, unsint 64 t4) }) else d
  | none => d

/-- A Pdelay_Resp_Follow_Up: the peer's response left it at `t3`; the mean link delay from the four timestamps. -/
def Dev.pdelayFollow (d : Dev) (seq t3 : Nat) : Dev :=
  match d.dict.pdReq, d.dict.pdResp with
  | some (q, t1), some (t2, t4) =>
    if d.timeRuns && q == seq then
      let delay : Int := ((sint 64 t4 - sint 64 t1) - ((t3 : Nat) - (t2 : Nat))) / 2
      d.setDict (fun c => { c with meanDelay := min delay.toNat (2 ^ 32 - 1), pdReq := none, pdResp := none })
    else d
  | _, _ => d

/-- An Announce heeded. -/
def Dev.announceHeed (d : Dev) (b : Bytes) : Dev :=
  if d.timeRuns then d.setDict (fun c => { c with announce := b }) else d

/-- The device's own Pdelay_Req, one second after the one before (R381). -/
def Dev.pdelayDue (d : Dev) (o : Otp) : Dev :=
  if d.timeRuns && (match d.dict.pdLast with
      | some t => decide (t + 1000000000 ≤ d.varve)
      | none => true) then
    let t1 := d.stampOut o
    let q := d.dict.pdSeq
    (t1.2.setDict (fun c => { c with pdReq := some (q, unsint 64 t1.1), pdResp := none, pdLast := some d.varve
                                     pdSeq := (q + 1) % 65536 })).ethSend (.pdelayReq q (unsint 64 t1.1))
  else d

/-- AON_TICK: 40 ns at the rate in force (R377); the time service sends what is due. -/
def Dev.aonTick (d : Dev) (o : Otp) : Dev :=
  if d.pcc.poreset then d
  else (d.varveAdd (40 * (2 ^ 32 + sint 32 (d.g B.mgmt F.mgmt_RATE_ADJ)))).pdelayDue o

/-- A frame of the time service that the MAC has received: counted, and stamped where it is an event message (R383). -/
def Dev.timeFrame (d : Dev) (o : Otp) (event : Bool) (f : Int → Dev → Dev) : Dev :=
  if !d.macUp then d
  else
    let d := d.dinc 0x7005 1
    if event then
      let t := d.stampIn o
      f t.1 t.2
    else f 0 d

/-- SYNC (R381): a Sync of sequence number `seq` from source port `src`; `origin` is the reference time it carries, none
where its Follow_Up is still to come. -/
def Dev.sync (d : Dev) (o : Otp) (seq src : Nat) (origin : Option Nat) : Dev :=
  d.timeFrame o true (fun t d => d.syncAt seq src origin t)

/-- PDELAY_REQ: answered with a two-step response. -/
def Dev.pdelayReq (d : Dev) (o : Otp) (seq : Nat) : Dev := d.timeFrame o true (fun t d => d.pdelayReqAt o seq t)

/-- PDELAY_RESP: the two-step answer to the device's own request `seq`, received by the peer at `t2` and answered at
`t3`. -/
def Dev.pdelayResp (d : Dev) (o : Otp) (seq t2 t3 : Nat) : Dev :=
  (d.timeFrame o true (fun t d => d.pdelayRespAt seq t2 t)).timeFrame o false (fun _ d => d.pdelayFollow seq t3)

/-- ANNOUNCE: heeded. -/
def Dev.announce (d : Dev) (o : Otp) (b : Bytes) : Dev := d.timeFrame o false (fun _ d => d.announceHeed b)

/-- SYNC_LOSS (R382): no Sync for SYNC_LOSS_MS. -/
def Dev.syncLoss (d : Dev) (o : Otp) : Dev :=
  if d.mgmtRuns && d.timeSource == 1 && d.dict.syncState == 2 &&
      decide (d.dict.lastSync + 1000000 * leNat (d.persV o 0x5001 2) ≤ d.varve) then
    (d.setDict (fun c => { c with syncState := 3 })).event 0x11 0 0x0A42 (dtl [(4, d.g B.mgmt F.mgmt_RATE_ADJ)])
  else d

/-- SYNC_STATE that a warm reset leaves: FREE_RUN is the state after cold reset, and LOCKED lasts from the external step
onward (R382). -/
def Dev.syncAfterWarm (d : Dev) : Nat :=
  match d.timeSource with
  | 0 => 0
  | 1 => d.dict.syncState
  | _ => if d.gb B.mgmt F.mgmt_STEPPED then 2 else 0

/-! ### Frames of EtherType 0x88F7, laid out as IEEE Std 1588 lays out its messages -/

/-- A time field of a message: 6 B of seconds, 4 B of ns. -/
def ptpTime (p : Bytes) : Nat := beField p 34 6 * 1000000000 + beField p 40 4

/-- The time a message carries with its correction, which counts 2⁻¹⁶ ns. -/
def ptpOrigin (p : Bytes) : Nat := ((ptpTime p : Int) + sint 64 (beField p 8 8) / 65536).toNat

/-- A received message of the time service: every one of type 0x0 to 0x3 is stamped; those of domain 0 that the station
supports have their effect. -/
def Dev.ptpFrame (d : Dev) (o : Otp) (p : Bytes) : Dev :=
  let ty := beField p 0 1 % 16
  let s := if ty ≤ 3 then d.stampIn o else (0, d)
  let d := s.2
  let seq := beField p 30 2
  let src := beField p 20 10
  if p.length < 44 ∨ beField p 4 1 ≠ 0 then d
  else match ty with
    | 0 => d.syncAt seq src (if bit (beField p 6 1) 1 then none else some (ptpOrigin p)) s.1
    | 2 => d.pdelayReqAt o seq s.1
    | 3 => d.pdelayRespAt seq (ptpTime p) s.1
    | 8 => d.followUp seq src (ptpOrigin p)
    | 10 => d.pdelayFollow seq (ptpOrigin p)
    | 11 => d.announceHeed p
    | _ => d

/-! ### Messages in order of arrival (R365) -/

/-- The datagrams in the receive queue (R367). -/
def Dev.kopQueued (d : Dev) : Nat := d.dict.arrived.countP (fun m => match m with
  | .udp _ => true
  | _ => false)

/-- A message has arrived: it waits behind those that arrived before it. -/
def Dev.arrive (d : Dev) (m : DictMsg) : Dev := d.setDict (fun c => { c with arrived := c.arrived ++ [m] })

/-- The oldest message taken. -/
def Dev.takeMsg (d : Dev) : Dev := d.setDict (fun c => { c with arrived := c.arrived.drop 1 })

/-! ### Management Ethernet (R367) -/

/-- A frame filtered out. -/
def Dev.ethDrop (d : Dev) : Dev := d.dinc 0x7005 2

/-- An IPv4 datagram for the package: an ICMP echo request is answered, a KOP datagram enters the receive queue of 64,
everything else is filtered out. -/
def Dev.ipRecv (d : Dev) (o : Otp) (mac : Nat) (p : Bytes) : Dev :=
  let ihl := 4 * (beField p 0 1 % 16)
  let total := beField p 2 2
  let src := beField p 12 4
  let body := (p.take total).drop ihl
  if beField p 0 1 / 16 ≠ 4 ∨ ihl < 20 ∨ total < ihl + 8 ∨ p.length < total ∨ beField p 6 2 % 2 ^ 14 ≠ 0 ∨
      beField p 16 4 ≠ d.inForce o 0x1030 1 then d.ethDrop
  else if beField p 9 1 = 1 ∧ beField body 0 1 = 8 then d.ethSend (.icmpReply mac src (body.drop 4))
  else if beField p 9 1 = 17 ∧ beField body 2 2 = d.inForce o 0x1030 4 then
    if !d.dictReady then d
    else if 64 ≤ d.kopQueued then d.dinc 0x7001 7
    else
      let n := beField body 4 2
      d.arrive (.udp ⟨mac, src, beField body 0 2, (body.take n).drop 8⟩)
  else d.ethDrop

/-- ETHERNET_FRAME: a frame without its FCS, and whether the FCS was right. ARP for the package is answered once the
service is up (R386); frames of the time service are stamped and take effect. -/
def Dev.ethFrame (d : Dev) (o : Otp) (f : Bytes) (fcs : Bool) : Dev :=
  if !d.macUp then d
  else
    let d := d.dinc 0x7005 1
    if !fcs then d.dinc 0x7005 3
    else
      let tagged := beField f 12 2 == 0x8100
      let o2 := if tagged then 4 else 0
      let ty := beField f (12 + o2) 2
      let mac := beField f 6 6
      let p := f.drop (14 + o2)
      if f.length < 14 + o2 ∨ 1514 + o2 < f.length ∨ (tagged && beField f 14 2 % 4096 != 0) then d.ethDrop
      else if ty = 0x0806 then
        if beField p 0 2 = 1 ∧ beField p 2 2 = 0x0800 ∧ beField p 6 2 = 1 ∧ beField p 24 4 = d.inForce o 0x1030 1 then
          (if d.dictReady then d.ethSend (.arpReply (beField p 8 6) (beField p 14 4)) else d)
        else d.ethDrop
      else if ty = 0x0800 then d.ipRecv o mac p
      else if ty = 0x88F7 then d.ptpFrame o p
      else d.ethDrop

/-- ETHERNET_LINK_CHANGE (R363). -/
def Dev.ethLink (d : Dev) (up : Bool) : Dev :=
  if !d.mgmtRuns then d
  else
    let d := if d.dict.ethUp && !up then d.dinc 0x7005 4 else d
    d.setDict (fun c => { c with ethUp := up })

/-! ### CAN FD (R370–R372) -/

/-- Index of the counters of controller `c`. -/
def canCnt (c : Nat) : Nat := 0x7002 + c

/-- Controller `c`. -/
def Dev.can (d : Dev) (c : Nat) : Can := d.dict.cans.getD c {}

/-- Controller `c` replaced. -/
def Dev.setCan (d : Dev) (c : Nat) (x : Can) : Dev := d.setDict (fun s => { s with cans := Tab.set {} s.cans c x })

/-- Identifier on which controller `c` receives requests. -/
def Dev.canId (d : Dev) (o : Otp) (c : Nat) : Nat := d.inForce o (0x1032 + c) 3 + 2 * d.inForce o (0x1032 + c) 2

/-- The next valid CAN FD data length. -/
def canDlc (n : Nat) : Nat :=
  (([0, 1, 2, 3, 4, 5, 6, 7, 8, 12, 16, 20, 24, 32, 48, 64].find? (fun k => decide (n ≤ k)))).getD 64

/-- The frames of a message: control byte, segment, padding. -/
def canFrames (m : Bytes) : List Bytes :=
  let segs := chunks 63 m
  let n := segs.length
  segs.zipIdx.map (fun (x : Bytes × Nat) =>
    let kind := if n ≤ 1 then 0 else if x.2 = 0 then 1 else if x.2 + 1 = n then 3 else 2
    padTo (canDlc (x.1.length + 1)) (byte (64 * kind + x.2 % 64) :: x.1))

/-- A message sent by controller `c`. -/
def Dev.canSend (d : Dev) (o : Otp) (c : Nat) (m : Bytes) : Dev :=
  let id := d.canId o c + 1
  d.setDict (fun s => { s with canOut := s.canOut ++ (canFrames m).map (fun f => (c, id, f)) })

/-- A partly received request discarded, counted, and answered with KR_LENGTH (R372). Its SEQ8 is free where no first
byte of it has arrived. -/
def Dev.canDiscard (d : Dev) (o : Otp) (c : Nat) : Dev :=
  let f := d.fresh
  let seq := match (d.can c).part with
    | some p => p.data.headD (byte f.1)
    | none => byte f.1
  let d := (f.2.setCan c { f.2.can c with part := none }).dinc (canCnt c) 2
  d.canSend o c [seq, 0, 6, 0]

/-- The items of a CAN FD message, which decide where it ends; none where they do not end within it. -/
def canItems (m : Bytes) : Option (List Item) :=
  let n := fieldN m 1 1
  if n = 0 ∨ 32 < n ∨ m.length < 4 then none else (readItems n (m.drop 4)).map (·.1)

/-- A request of controller `c` served in the non-secure world, and answered. -/
def Dev.canServe (d : Dev) (o : Otp) (c : Nat) (m : Bytes) : Dev :=
  let r := (d.dinc (canCnt c) 1).dictMessage o (dictWorld o false) 2012 ((canItems m).getD [])
  r.1.canSend o c ([m.headD 0, byte (fieldN m 1 1), 0, 0] ++ r.2)

/-- The CAN FD requests at the head of those that have arrived, served one after the other. -/
def Dev.canHeads (d : Dev) (o : Otp) : List DictMsg → Dev
  | .can c m :: rest => (d.takeMsg.canServe o c m).canHeads o rest
  | _ => d

/-- The oldest message has been served: CAN FD requests that follow it are served at once. -/
def Dev.msgServed (d : Dev) (o : Otp) : Dev := d.canHeads o d.dict.arrived

/-- A whole request: it waits for those that arrived before it, or is discarded where its items do not end within it. -/
def Dev.canRequest (d : Dev) (o : Otp) (c : Nat) (m : Bytes) : Dev :=
  if (canItems m).isNone then (d.setCan c { d.can c with part := some ⟨m, 0, d.varve⟩ }).canDiscard o c
  else ((d.setCan c { d.can c with part := none }).arrive (.can c m)).msgServed o

/-- CAN_FRAME: a frame on controller `c`: identifier, FD or classical, data. -/
def Dev.canFrame (d : Dev) (o : Otp) (c id : Nat) (fd : Bool) (data : Bytes) : Dev :=
  let x := d.can c
  if !d.dictReady || 2 ≤ c || 2 ≤ x.state || d.pcc.ioDead || id != d.canId o c then d
  else if !fd then d.dinc (canCnt c) 3
  else match data with
    | [] => d
    | ctl :: seg =>
      let kind := ctl.toNat / 64
      let num := ctl.toNat % 64
      let late := match x.part with
        | some p => decide (p.since + 100000000 < d.varve)
        | none => false
      if kind = 0 ∨ kind = 1 then
        let d := if x.part.isSome then d.canDiscard o c else d
        if num ≠ 0 then d.canDiscard o c
        else if kind = 0 then d.canRequest o c (seg.take 63)
        else d.setCan c { d.can c with part := some ⟨seg.take 63, 1, d.varve⟩ }
      else match x.part with
        | none => d.canDiscard o c
        | some p =>
          let m := p.data ++ seg.take 63
          let room := p.data.length + (if kind = 2 then (seg.take 63).length else 1)
          if num != p.next || late || decide (2016 < room) then d.canDiscard o c
          else if kind = 2 then d.setCan c { x with part := some ⟨m, p.next + 1, d.varve⟩ }
          else d.canRequest o c (m.take 2016)

/-- CAN_SEGMENT_TIMEOUT: more than 100 ms have passed since the latest segment. -/
def Dev.canTimeout (d : Dev) (o : Otp) (c : Nat) : Dev :=
  match (d.can c).part with
  | none => d
  | some p => if d.dictReady && decide (p.since + 100000000 < d.varve) then d.canDiscard o c else d

/-- CAN_ERROR_STATE: bus errors bring controller `c` to error-active, error-passive or bus-off. -/
def Dev.canError (d : Dev) (c st : Nat) : Dev :=
  let x := d.can c
  if 2 ≤ c ∨ 3 ≤ st ∨ x.state = 3 ∨ x.state = 2 ∨ x.state = st ∨ !d.mgmtRuns then d
  else
    let d := d.setCan c { x with state := st, part := if st = 2 then none else x.part }
    if st = 1 then d.dinc (canCnt c) 5 else if st = 2 then d.dinc (canCnt c) 4 else d

/-- CAN_BUS_OFF_RECOVERY: 128 occurrences of 11 recessive bits. -/
def Dev.canRecover (d : Dev) (c : Nat) : Dev :=
  let x := d.can c
  if x.state = 2 ∧ d.mgmtRuns then d.setCan c { x with state := 0 } else d

/-! ### KOP (R368, R369) -/

/-- The header of a KOP response. -/
def kopHeader (flags : Nat) (b : Bytes) (total : Nat) : Bytes :=
  natLE 2 0x4E4B ++ [1, byte flags] ++ (b.drop 4).take 10 ++ natLE 2 total

/-- The items of a message of the form of Table 13.6 whose header agrees with its length; none where it is malformed. -/
def kopItems (b : Bytes) (tag : Nat) : Option (List Item) :=
  let n := fieldN b 0xC 1
  let total := fieldN b 0xE 2
  if fieldN b 0 2 ≠ 0x4E4B ∨ fieldN b 2 1 ≠ 1 ∨ n = 0 ∨ 32 < n ∨ b.length ≠ 16 + total + tag then none
  else match readItems n ((b.drop 16).take total) with
    | some (l, []) => some l
    | _ => none

/-- The items of a datagram applied and answered, under AUTH with the tag of its key. -/
def Dev.kopReply (d : Dev) (o : Otp) (k : KopRx) (items : List Item) (key : Option Bytes) : Dev :=
  let r := d.dictMessage o (dictWorld o key.isSome) 1456 items
  let msg := kopHeader (if key.isSome then 3 else 1) k.data r.2.length ++ r.2
  let tag := match key with
    | some x => (Crypto.cmac x msg).take 8
    | none => []
  (r.1.dinc 0x7001 3).ethSend (.kop k.mac k.ip k.port (msg ++ tag))

/-- A datagram checked and authenticated: served, or dropped and counted. -/
def Dev.kopServe (d : Dev) (o : Otp) (k : KopRx) : Dev :=
  let b := k.data
  let auth := bit (fieldN b 3 1) 1
  match kopItems b (if auth then 8 else 0) with
  | none => d.dinc 0x7001 4
  | some items =>
    if auth then
      let id := fieldN b 0xD 1
      let n := b.length - 8
      match d.sec.mkeys.get? id with
      | none => d.dinc 0x7001 5
      | some key =>
        if (Crypto.cmac key (b.take n)).take 8 ≠ b.drop n ∨ fieldN b 8 4 ≠ d.sec.bootId then d.dinc 0x7001 5
        else
          let seq := fieldN b 4 4
          if (match d.dict.kopSeq.get? id with
              | some s => decide (seq ≤ s)
              | none => false) then d.dinc 0x7001 6
          else (d.setDict (fun c => { c with kopSeq := c.kopSeq.put id seq })).kopReply o k items (some key)
    else if d.inForce o 0x1030 7 = 0 then d.dinc 0x7001 5
    else d.kopReply o k items none

/-- KOP_MESSAGE: the oldest message, where it is a datagram of the receive queue. -/
def Dev.kopMessage (d : Dev) (o : Otp) : Dev :=
  match d.dict.arrived with
  | .udp k :: _ => if d.dictReady then (d.takeMsg.kopServe o k).msgServed o else d
  | _ => d

/-! ### Mirror slots (R373, R374, R376) -/

/-- Slot `k`: 0–7 are slot k mod 4 of channel k / 4, 8–11 the on-die slots. -/
def Dev.mirSlot (d : Dev) (k : Nat) : MirSlot := d.dict.slots.getD k {}

/-- A slot replaced. -/
def Dev.setMirSlot (d : Dev) (k : Nat) (x : MirSlot) : Dev :=
  d.setDict (fun s => { s with slots := Tab.set {} s.slots k x })

/-- REQ_SEQ_WRITE: one higher than RSP_SEQ, with no request being served, submits; another value is ignored; before
DM_READY the latest value is kept (R374, R386). -/
def Dev.reqSeq (d : Dev) (k v : Nat) (secure : Bool) : Dev :=
  let x := d.mirSlot k
  if 12 ≤ k then d
  else if !d.gb B.dictm F.dictm_DM_READY then d.setMirSlot k { x with kept := some (v % 2 ^ 32), secure := secure }
  else if x.busy ∨ v % 2 ^ 32 ≠ (x.rspSeq + 1) % 2 ^ 32 then d
  else ((d.setMirSlot k { x with reqSeq := v % 2 ^ 32, secure := secure, busy := true }).arrive (.slot k)).dinc 0x7004
    (if k < 4 then 1 else if k < 8 then 2 else 3)

/-- Bytes written into a slot's request area. -/
def Dev.mirWrite (d : Dev) (k off : Nat) (b : Bytes) : Dev :=
  let x := d.mirSlot k
  d.setMirSlot k { x with req := patch (padTo 1984 x.req) off b }

/-- MIRROR_RESPONSE: firmware applies the request of a slot, the oldest message, writes the response whole and then
RSP_SEQ. A malformed request is answered with no item. -/
def Dev.mirrorResponse (d : Dev) (o : Otp) (k : Nat) : Dev :=
  let x := d.mirSlot k
  if !d.dictReady || !x.busy || d.dict.arrived.head? != some (.slot k) then d
  else
    let d := d.takeMsg
    let b := padTo 1984 x.req
    let r := match kopItems (b.take (16 + fieldN b 0xE 2)) 0 with
      | some items => d.dictMessage o (dictWorld o x.secure) 1968 items
      | none => (d, [])
    let none_ := (kopItems (b.take (16 + fieldN b 0xE 2)) 0).isNone
    let h := kopHeader 1 b r.2.length
    let h := if none_ then patch h 0xC [0] else h
    (r.1.setMirSlot k { r.1.mirSlot k with rsp := padTo 1984 (h ++ r.2), rspSeq := x.reqSeq, busy := false }).msgServed o

/-- The service is up: values written to REQ_SEQ before are acted on (R386). -/
def Dev.mirrorStart (d : Dev) : Dev :=
  let d := d.pb B.dictm F.dictm_DM_READY true
  (List.range 12).foldl (fun d k =>
    let x := d.mirSlot k
    match x.kept with
    | some v => (d.setMirSlot k { x with kept := none }).reqSeq k v x.secure
    | none => d) d

/-! ### Snapshot (R375) -/

/-- Indexes a snapshot covers, ascending. -/
def snapIdx : List Nat :=
  [0x1000, 0x1001, 0x1010, 0x1011, 0x1012, 0x1013, 0x1014, 0x1020, 0x1030, 0x1032, 0x1033, 0x1040, 0x1050, 0x1F00,
   0x5000, 0x5001] ++ (List.range 16).map (fun c => 0x6000 + c) ++ (List.range 16).map (fun s => 0x6100 + s) ++
  [0x7001, 0x7002, 0x7003, 0x7004, 0x7005, 0x7006, 0x7010] ++ (List.range 256).map (fun l => 0x7300 + l)

/-- The records of one index. -/
def Dev.snapRecs (d : Dev) (o : Otp) (idx : Nat) : List Bytes :=
  (List.range (((dictRow idx).getD []).length + 1)).filterMap (fun sub =>
    match dictEnt idx sub with
    | some e => if e.ty = 11 ∨ e.ty = 12 ∨ e.acc = 3 then none
                else some (natLE 2 idx ++ [byte sub, byte e.ty] ++ zeros 4 ++ padTo 8 (d.dictGet o idx sub))
    | none => none)

/-- SNAPSHOT: every record copied into both channels' snapshot, SNAP_GEN odd and then even. -/
def Dev.snapshot (d : Dev) (o : Otp) : Dev :=
  if !d.dictReady || !d.gb B.dictm F.dictm_SNAP_EN then d
  else
    let l := snapIdx.flatMap (fun i => d.snapRecs o i)
    [0, 1].foldl (fun (d : Dev) (h : Nat) =>
      let g := (d.dict.snaps.getD h {}).gen
      d.setDict (fun s => { s with snaps := s.snaps.put h ⟨(g + 2) % 2 ^ 32, l.take 28672, decide (28672 < l.length)⟩ })) d

/-- A write of the word at 0x008 of the mirror block: a period of 0 is ignored. -/
def Dev.snapCtrl (d : Dev) (v : Nat) : Dev :=
  let d := d.pb B.dictm F.dictm_SNAP_EN (bit v 0)
  if bits v 15 8 = 0 then d else d.p B.dictm F.dictm_SNAP_PERIOD_MS (bits v 15 8)

end Sys2Proof.Machine
end

