-- ==== Sys2Proof/Machine/HostQ.lean ====
section
/-!
DEFINITION. The host queues (R317–R323): doorbells, the firmware's handling of host commands and services, completion
entries, the queue registers (R328) and HIRQ_N (R323).
Choices of the model: log entries 116, 117, 118, 119, 120, 121, 122, 123, 124.
-/

namespace Sys2Proof.Machine

/-! ### Channels -/

/-- One MMP channel's further state. -/
def Dev.chan (d : Dev) (h : Nat) : Chan := d.chans.getD h {}

/-- A channel's further state changed. -/
def Dev.setChan (d : Dev) (h : Nat) (g : Chan → Chan) : Dev := { d with chans := Tab.set {} d.chans h (g (d.chan h)) }

/-- The channel answers host commands: its domain is up, CH_READY is set and VDDQ_MMP has kept its range (R326,
R468). -/
def Dev.chServes (d : Dev) (h : Nat) : Bool :=
  decide (h < 2) && d.domUp Dom.mmp && d.gb B.mmp F.mmp_CH_READY h && !d.pcc.mmpIoDead

/-- The channel serves more than MRR, MRW and the host reset: it is ready and not in HALT. -/
def Dev.chTakes (d : Dev) (h : Nat) : Bool := d.chServes h && !d.gb B.mmp F.mmp_HALT h

/-- A host write reaches the control page: the channel takes bursts, is trained, and is not in self-refresh, power-down or
deep-sleep (R326, Table 11.8). -/
def Dev.chWrites (d : Dev) (h : Nat) : Bool :=
  d.chTakes h && d.gb B.mmp F.mmp_TRAINED h && !d.gb B.mmp F.mmp_IN_SR h

/-- The counters of a channel (Table 11.10). -/
def chCounters : List Fld :=
  [F.mmp_PROTO_ERR_CNT, F.mmp_RL_SHORT_CNT, F.mmp_LECC_CE_CNT, F.mmp_LECC_UE_CNT, F.mmp_DEAD_RD_CNT,
    F.mmp_DEAD_WR_CNT,
   F.mmp_SRAM_CE_CNT, F.mmp_SRAM_UE_CNT, F.mmp_REF_CNT, F.mmp_DB_CNT, F.mmp_DB_REJECT_CNT]

/-- CNT_CLR of a channel (R328). -/
def Dev.mmpCntClr (d : Dev) (h : Nat) : Dev :=
  if h < 2 ∧ d.domUp Dom.mmp then chCounters.foldl (fun d f => d.p B.mmp f 0 h) d else d

/-! ### Doorbells (R319) -/

/-- A doorbell value refused: counted, and HQ_OVERFLOW. -/
def Dev.doorbellReject (d : Dev) (q v : Nat) : Dev :=
  (d.inc B.mmp F.mmp_DB_REJECT_CNT (q / 16)).event 0x14 q 0x0B03 (dtl [(2, q), (4, v)])

/-- SQ_PROD written into the doorbell of queue `q`. -/
def Dev.sqProd (d : Dev) (q v : Nat) : Dev :=
  if 2 ^ d.g B.mmp F.mmp_SQ_LOG2 q < sub32 v (d.g B.mmp F.mmp_SQ_CONS q) then d.doorbellReject q (v % 2 ^ 32)
  else (d.p B.mmp F.mmp_SQ_PROD_SEEN v q).inc B.mmp F.mmp_DB_CNT (q / 16)

/-- CQ_ACK written into the doorbell of queue `q`. -/
def Dev.cqAck (d : Dev) (q v : Nat) : Dev :=
  if sint 32 (sub32 (d.g B.mmp F.mmp_CQ_PROD q) v) < 0 then d.doorbellReject q (v % 2 ^ 32)
  else (d.p B.mmp F.mmp_CQ_ACK_SEEN v q).inc B.mmp F.mmp_DB_CNT (q / 16)

/-- SQ_PROD_WRITE: the host writes a doorbell's SQ_PROD. -/
def Dev.sqProdWrite (d : Dev) (q v : Nat) : Dev :=
  if q < 32 ∧ d.chWrites (q / 16) then d.sqProd q (v % 2 ^ 32) else d

/-- CQ_ACK_WRITE: the host writes a doorbell's CQ_ACK. -/
def Dev.cqAckWrite (d : Dev) (q v : Nat) : Dev :=
  if q < 32 ∧ d.chWrites (q / 16) then d.cqAck q (v % 2 ^ 32) else d

/-- HIRQ_N of channel `h` is asserted (R323). -/
def Dev.hirq (d : Dev) (h : Nat) : Bool :=
  (List.range 16).any (fun i => (d.hqueue (16 * h + i)).irqs.any (fun s =>
    decide (0 < sint 32 (sub32 s (d.g B.mmp F.mmp_CQ_ACK_SEEN (16 * h + i)))))) ||
  (d.gb B.mmp F.mmp_IRQ_EVR h && (d.chan h).evrProd != (d.chan h).evrAck)

/-! ### A host command (Tables 11.5 and 11.6) -/

namespace Hc
def opc (x : Bytes) : Nat := fieldN x 0 1
def irq (x : Bytes) : Bool := bit (fieldN x 1 1) 0
def fence (x : Bytes) : Bool := bit (fieldN x 1 1) 1
def cmdId (x : Bytes) : Nat := fieldN x 2 2
def svc (x : Bytes) : Nat := fieldN x 4 2
def va (x : Bytes) : Nat := fieldN x 8 8
def stg (x : Bytes) : Nat := fieldN x 0x10 4
def len (x : Bytes) : Nat := fieldN x 0x14 4
/-- RUN COUNT and CORE. -/
def count (x : Bytes) : Nat := fieldN x 0x18 2
def core (x : Bytes) : Nat := fieldN x 0x1A 2
/-- PUBLISH STREAM. -/
def stream (x : Bytes) : Nat := fieldN x 0x18 2
/-- FRAME arguments. -/
def wsVa (x : Bytes) : Bytes := (x.drop 0x18).take 8
def edge (x : Bytes) : Nat := fieldN x 0x20 1
def sampling (x : Bytes) : Nat := fieldN x 0x21 1
def sweeps (x : Bytes) : Nat := fieldN x 0x22 1
def fps (x : Bytes) : Nat := fieldN x 0x24 2

/-- What a command is: 0 NOP, and every command whose OPC or SVC_ID names nothing or that was read poisoned; 1 COPY_IN,
2 COPY_OUT, 3 FRAME, 4 MAP, 5 RUN, 6 PUBLISH. -/
def kind (x : Bytes) (poison : Bool) : Nat :=
  if poison then 0
  else if opc x = 1 ∨ opc x = 2 then opc x
  else if opc x = 3 ∧ 1 ≤ svc x ∧ svc x ≤ 4 then svc x + 2
  else 0

/-- ARG bytes a service uses, from 0x18 on. -/
def argUsed (x : Bytes) (i : Nat) : Bool :=
  opc x == 3 && (match svc x with
    | 1 => decide (i ≤ 10) || i == 12 || i == 13
    | 3 => decide (i ≤ 3)
    | 4 => decide (i ≤ 1)
    | _ => false)
end Hc

/-- The bad fields of ARG, as offsets: a byte the service does not use, and a field out of its range. -/
def Dev.hqArgBad (d : Dev) (h : Nat) (x : Bytes) : List Nat :=
  (((x.drop 0x18).take 40).zipIdx.filter (fun b => b.1 != 0 && !Hc.argUsed x b.2)).map (fun b => 0x18 + b.2) ++
  (if Hc.opc x = 3 ∧ Hc.svc x = 3 then
    (if Hc.count x = 0 ∨ 256 < Hc.count x then [0x18] else []) ++ (if 511 < Hc.core x then [0x1A] else [])
   else if Hc.opc x = 3 ∧ Hc.svc x = 4 ∧ (15 < Hc.stream x ∨ d.g B.rime F.rime_PUB_CH (Hc.stream x) ≠ h) then [0x18]
   else [])

/-- The first break of Table 11.5 or 11.6, or a range beyond staging: status and DETAIL (R320). -/
def Dev.hqBad (d : Dev) (h : Nat) (x : Bytes) (poison : Bool) : Option (Nat × Nat) :=
  if poison ∨ 3 < Hc.opc x then some (0x0B01, 0)
  else if fieldN x 1 1 / 4 ≠ 0 then some (0x0B01, 1)
  else if (Hc.opc x = 3 ∧ (Hc.svc x = 0 ∨ 4 < Hc.svc x)) ∨ (Hc.opc x ≠ 3 ∧ Hc.svc x ≠ 0) then some (0x0B01, 4)
  else if fieldN x 6 2 ≠ 0 then some (0x0B01, 6)
  else if 2 ^ 48 ≤ Hc.va x then some (0x0B01, 8)
  else if Hc.stg x % 64 ≠ 0 then some (0x0B01, 0x10)
  else if Hc.len x % 64 ≠ 0 ∨ Hc.len x = 0 ∨ 0x4000000 < Hc.len x then some (0x0B01, 0x14)
  else match (d.hqArgBad h x).min? with
    | some o => some (0x0B01, o)
    | none =>
      if 0x4000000 < Hc.stg x + Hc.len x + (if Hc.kind x false = 6 then 16 else 0) then
        some (0x0B02, Hc.stg x)
      else none

/-! ### Taking a command -/

/-- One host command firmware holds. -/
def Dev.hcmd (d : Dev) (q id : Nat) : Option HCmd := (d.hqueue q).cmds.find? (fun c => c.id == id)

/-- Firmware serves host queues: the management cluster runs and CP_STATE is 2 (R326). -/
def Dev.hqServed (d : Dev) (q : Nat) : Bool := d.mgmtRuns && (d.chan (q / 16)).cpState == 2

/-- Entry `n` of a ring in staging: channel offset (R319). -/
def ringOff (base log2 n : Nat) : Nat := base + n % 2 ^ log2 * 64

/-- The command at SQ_CONS as firmware reads it. -/
def Dev.hqRead (d : Dev) (q : Nat) : Dev × Bytes × Bool :=
  d.stagingLine (q / 16) (ringOff (d.g B.mmp F.mmp_SQ_BASE q) (d.g B.mmp F.mmp_SQ_LOG2 q) (d.g B.mmp F.mmp_SQ_CONS q)) firmware

/-- A command read: SQ_CONS passes it, and firmware holds it under a number of the model's own. -/
def Dev.hqAdd (d : Dev) (q : Nat) (x : Bytes) (fin : Option (Nat × Nat)) : Dev × Nat :=
  let id := d.hqIds + 1
  let d := { d with hqIds := id }
  let k := d.hqueue q
  ((d.setHqueue q { k with cmds := k.cmds ++ [{ id := id, bytes := x, seen := d.t32, fin := fin }] }).p B.mmp F.mmp_SQ_CONS
    (d.g B.mmp F.mmp_SQ_CONS q + 1) q, id)

/-- Firmware takes the next command of queue `q`, where it is of the kind a row names, and starts it (R318–R320): in ring
order, a FENCE after every earlier command has been handed back, not while its context is SUSPENDING or SUSPENDED. One of
an OFF or DISABLING context completes with 0x0205, which ranks ahead of a break of Table 11.5 or 11.6 (R103). -/
def Dev.hqTake (d : Dev) (q kind : Nat) (run : Dev → Nat → Bytes → Dev) : Dev :=
  if !(decide (q < 32) && d.hqServed q && d.gb B.mmp F.mmp_HQ_EN q) ||
      d.g B.mmp F.mmp_SQ_CONS q == d.g B.mmp F.mmp_SQ_PROD_SEEN q then d
  else
    let r := d.hqRead q
    let x := r.2.1
    let st := d.ctxState (d.g B.mmp F.mmp_HQ_CTX q)
    if Hc.kind x r.2.2 ≠ kind ∨ (Hc.fence x ∧ (d.hqueue q).cmds ≠ []) ∨ st = 2 ∨ st = 3 then d
    else if st = 0 ∨ st = 4 then (r.1.hqAdd q x (some (0x0205, 0))).1
    else match d.hqBad (q / 16) x r.2.2 with
      | some f => (r.1.hqAdd q x (some f)).1
      | none =>
        let a := r.1.hqAdd q x none
        run a.1 a.2 x

/-- A command that firmware holds ends with a status and DETAIL. -/
def Dev.hqEnd (d : Dev) (q id status detail : Nat) (len : Nat := 0) (tag : Bytes := []) : Dev :=
  d.modHCmd q id (fun c => { c with fin := some (status, detail), len := len, tag := tag })

/-! ### Copies (R318) -/

/-- The engine firmware uses: the one named where it serves, else the first that does. -/
def Dev.hqEngine (d : Dev) (f : Nat) : Option Nat :=
  let ok := fun (f : Nat) => d.feReady f && !d.funcClosed (0x40 + f)
  if f < 64 ∧ ok f then some f else (List.range 64).find? ok

/-- Granules moved between the VA of a command and its staging range, until the copy ends or waits for a tag; `k` bounds
the count. A fault ends it: firmware's copies do not park. -/
def Dev.copyGo (d : Dev) (q id : Nat) : Nat → Dev
  | 0 => d
  | k + 1 =>
    match d.hcmd q id with
    | none => d
    | some c =>
      let x := c.bytes
      let f := c.fe
      let ctx := d.g B.mmp F.mmp_HQ_CTX q
      let stop := fun (d : Dev)
        (met : List (Nat × Nat)) => d.modHCmd q id (fun c => { c with copied := true, met := c.met ++ met })
      if c.copied then d
      else if !d.feReady f then stop d [(0x0205, 0)]
      else if d.feAborted f ctx then stop d [(0x0206, 0)]
      else if Hc.len x / 64 ≤ c.moved then stop d []
      else
        let a := d.feAddr f ctx false (Hc.va x) c.moved (Hc.opc x == 1)
        match a.2 with
        | .inl e => stop a.1 [(e.status, e.detail)]
        | .inr (pa, va) =>
          let s := B.staging (q / 16) + Hc.stg x + 64 * c.moved
          let m := if Hc.opc x = 1 then a.1.feMove f ctx s pa none va (.host q id f)
            else a.1.feMove f ctx pa s va none (.host q id f)
          match m.2 with
          | .wait => d
          | .gone st dt p =>
            if st = 0x0204 then stop m.1 [(st, dt)]
            else (m.1.modHCmd q id (fun c => { c with
              moved := c.moved + 1, poison := c.poison || p
              met := if st = 0 then c.met else c.met ++ [(st, dt)] })).copyGo q id k

/-- A copy goes on from where it stands. -/
def Dev.copyOn (d : Dev) (q id : Nat) : Dev :=
  match d.hcmd q id with
  | none => d
  | some c =>
    let d' := d.copyGo q id (Hc.len c.bytes / 64 - c.moved + 2)
    match d'.hcmd q id with
    | some c' => if c'.copied && !c.copied then d'.settle (d'.g B.mmp F.mmp_HQ_CTX q) else d'
    | none => d'

/-- A copy starts on an engine; with none that serves it completes with 0x0205, and a VA that is not granule-aligned is
one no transfer accepts (R253). -/
def Dev.copyStart (d : Dev) (q id f : Nat) (x : Bytes) : Dev :=
  match d.hqEngine f with
  | none => d.modHCmd q id (fun c => { c with copied := true, met := [(0x0205, 0)] })
  | some f =>
    if Hc.va x % 64 ≠ 0 then d.modHCmd q id (fun c => { c with copied := true, met := [(0x0227, 0)] })
    else (d.modHCmd q id (fun c => { c with fe := f })).copyOn q id

/-- A copy has ended and every answer of a peer has come: its status, none while it runs. -/
def Dev.copyStatus (d : Dev) (q : Nat) (c : HCmd) : Option (Nat × Nat) :=
  if c.copied && d.remoteOf (.host q c.id c.fe) == 0 then
    some (firstStatus (c.met ++ (if c.poison then [(0x0226, 0)] else [])))
  else none

/-! ### Descriptors of a service -/

/-- A descriptor submitted on behalf of a queue: by firmware, as context 0 in the secure world (R87, R94, R318). -/
def Dev.hqSubmit (d : Dev) (core own : Nat) (x : Bytes) : Dev × Nat :=
  let s := d.submit core firmware.sid firmware.ctx firmware.secure x
  if s.2 = 0 then
    let c := s.1.core core
    (s.1.setCore core { c with q := c.q.dropLast ++ (c.q.getLast?.map (fun e => { e with own := own })).toList }, 0)
  else s

/-- The map service does not yet accept the command's batch: its table is enabled and some package of the peer set has not
reported an equal DIR_CRC (R203). -/
def Dev.mapWaits (d : Dev) (c : HCmd) : Bool :=
  match c.table with
  | some t => d.gb B.moraine F.moraine_TBL_EN t && !d.morAgreed t
  | none => false

/-- The descriptors a command still owes are submitted in order; a full queue is tried again later, as is a batch that the
map service does not yet accept; another refusal ends the command's submissions. -/
def Dev.submitGo (d : Dev) (q id : Nat) : Nat → Dev
  | 0 => d
  | k + 1 =>
    match d.hcmd q id with
    | none => d
    | some c => match c.todo with
      | [] => d
      | x :: rest =>
        let s := d.hqSubmit c.core id x
        if d.mapWaits c then d
        else if s.2 = 0 then (s.1.modHCmd q id (fun c => { c with todo := rest })).submitGo q id k
        else if s.2 = 0x0212 then s.1
        else s.1.modHCmd q id (fun c => { c with todo := [], met := c.met ++ [(s.2, c.core + 2 ^ 16 * 0x270)] })

/-- Firmware pops the completion records of its own entries as they reach the head of a core (R101); `k` bounds the
count. -/
def Dev.popOwn (d : Dev) (n : Nat) : Nat → Dev
  | 0 => d
  | k + 1 =>
    match (d.core n).cpl with
    | r :: _ =>
      if r.own = 0 then d
      else
        let d := d.cplPop n r.slot
        ({ d with hq := d.hq.map (fun (x : Nat × HQueue) => (x.1, { x.2 with cmds := x.2.cmds.map (fun (c : HCmd) =>
            if c.id = r.own then { c with recs := c.recs ++ [r.bytes] } else c) })) }).popOwn n k
    | [] => d

/-- Every descriptor of a command has completed and its records are in hand. -/
def Dev.runDone (d : Dev) (c : HCmd) : Bool :=
  c.todo.isEmpty && !(d.core c.core).q.any (fun e => e.own == c.id) && !(d.core c.core).cpl.any (fun r => r.own == c.id)

/-- The status of a service's descriptors: what was met in submitting them and the statuses of their records (R103). -/
def HCmd.status (c : HCmd) : Nat × Nat :=
  firstStatus (c.met ++ c.recs.map (fun r => (fieldN r 0 2, fieldN r 12 4)))

/-- A request read under HQ_CTX: its bytes and the poison of its granules, or the command ends with the fault. -/
def Dev.hqRequest (d : Dev) (q id va n : Nat) (f : Dev → Bytes → List Bool → Dev) : Dev :=
  let r := d.vaRead 10 (d.g B.mmp F.mmp_HQ_CTX q) firmware.sid va n
  match r.2.2.2 with
  | some x => r.1.hqEnd q id x.status x.detail
  | none => f r.1 r.2.1 r.2.2.1

/-- A service hands descriptors to a core. -/
def Dev.hqSubmits (d : Dev) (q id core dst : Nat) (xs : List Bytes) : Dev :=
  (d.modHCmd q id (fun c => { c with todo := xs, core := core, dst := dst })).submitGo q id (xs.length + 1)

/-- FRAME (R318, Table 11.6): the sweep table is copied to firmware's area of a core's scratchpad, and a VOXELIZE BUILD
with OWNER_CTX HQ_CTX is submitted there. -/
def Dev.svcFrame (d : Dev) (q id core gran : Nat) (x : Bytes) : Dev :=
  let n := min (max (Hc.sweeps x) 1) 16
  d.hqRequest q id (Hc.va x) (64 * n) (fun d tab bad =>
    let w := d.padWrite core (64 * gran) firmware (tab ++ zeros 64) bad
    let desc := record 64 [(0, [0x40]), (8, natLE 2 gran ++ natLE 2 n), (0x10, natLE 2 (gran + n) ++ natLE 2 1),
      (0x28, Hc.wsVa x), (0x31, [byte (d.g B.mmp F.mmp_HQ_CTX q), byte (Hc.edge x), byte (Hc.sampling x)] ++
        natLE 2 (Hc.fps x) ++ [byte (Hc.sweeps x)])]
    match w.2 with
    | some e => w.1.hqEnd q id e.1 e.2
    | none => w.1.hqSubmits q id core (gran + n) [desc])

/-- MAP (R188, R318): the batch header is copied to firmware's own memory with HQ_CTX as its OWNER_CTX, and a MAP_LOOKUP
or MAP_UPDATE that names the copy is submitted. -/
def Dev.svcMap (d : Dev) (q id core gran hdrVa : Nat) (x : Bytes) : Dev :=
  d.hqRequest q id (Hc.va x) 64 (fun d h bad =>
    if bad.any (fun b => b) then d.hqEnd q id 0x0226 0
    else
      let w := d.vaWrite 10 0 firmware.sid hdrVa (patch h 2 [byte (d.g B.mmp F.mmp_HQ_CTX q)]) []
      match w.2 with
      | some e => w.1.hqEnd q id e.status e.detail
      | none =>
        let p := w.1.padWrite core (64 * gran) firmware (zeros 64) []
        match p.2 with
        | some e => p.1.hqEnd q id e.1 e.2
        | none =>
          (p.1.modHCmd q id (fun c => { c with table := some (fieldN h 0 1 % 64) })).hqSubmits q id core gran [record 64 [(0, [if fieldN h 1 1 = 1 then 0x51 else 0x50]),
          (0x10, natLE 2 gran ++ natLE 2 1), (0x28, natLE 6 hdrVa)]])

/-- RUN (R318): COUNT descriptors of HQ_CTX submitted to a core; one of another context, and nothing is submitted. -/
def Dev.svcRun (d : Dev) (q id : Nat) (x : Bytes) : Dev :=
  d.hqRequest q id (Hc.va x) (64 * Hc.count x) (fun d b bad =>
    let ds := chunks 64 b
    if bad.any (fun b => b) then d.hqEnd q id 0x0226 0
    else if ds.any (fun y => Desc.ctx y != d.g B.mmp F.mmp_HQ_CTX q) then d.hqEnd q id 0x0B01 8
    else d.hqSubmits q id (Hc.core x) 0 ds)

/-! ### The rows that take a command -/

/-- HOST_NOP: a NOP, or a command that names no operation. -/
def Dev.hostNop (d : Dev) (q : Nat) : Dev := d.hqTake q 0 (fun d id _ => d.hqEnd q id 0 0)

/-- COPY_IN on engine `f`. -/
def Dev.copyIn (d : Dev) (q f : Nat) : Dev := d.hqTake q 1 (fun d id x => d.copyStart q id f x)

/-- COPY_OUT on engine `f`. -/
def Dev.copyOut (d : Dev) (q f : Nat) : Dev := d.hqTake q 2 (fun d id x => d.copyStart q id f x)

/-- FRAME, with firmware's 17 granules from `gran` on in core `core`'s scratchpad. -/
def Dev.hostFrame (d : Dev) (q core gran : Nat) : Dev :=
  if core < 512 ∧ gran + 17 ≤ 16384 then d.hqTake q 3 (fun d id x => d.svcFrame q id core gran x) else d

/-- MAP, with firmware's granule `gran` of core `core` and its 64 bytes at context-0 address `hdrVa`. -/
def Dev.hostMap (d : Dev) (q core gran hdrVa : Nat) : Dev :=
  if core < 512 ∧ gran < 16384 ∧
    hdrVa < 2 ^ 48 then d.hqTake q 4 (fun d id x => d.svcMap q id core gran hdrVa x) else d

/-- RUN. -/
def Dev.hostRun (d : Dev) (q : Nat) : Dev := d.hqTake q 5 (fun d id x => d.svcRun q id x)

/-- PUBLISH on engine `f`: the output is copied into the result area; the publish request (Table 14.3), whose flags,
frame counter and sensor time firmware knows, follows once the copy has ended. -/
def Dev.hostPublish (d : Dev) (q f rflags fcnt ts : Nat) : Dev :=
  d.hqTake q 6 (fun d id x =>
    let req := natLE 2 (Hc.stream x) ++ natLE 2 (rflags % 16) ++ natLE 4 fcnt ++ natLE 8 ts ++ natLE 4 (Hc.stg x) ++
      natLE 4 (Hc.len x) ++ natLE 4 id ++ zeros 36
    (d.modHCmd q id (fun c => { c with req := req })).copyStart q id f x)

/-! ### Going on and handing back (R321) -/

/-- A copy goes on, and the command ends when it has. -/
def Dev.endCopy (d : Dev) (q id : Nat) : Dev :=
  let d := d.copyOn q id
  match d.hcmd q id with
  | none => d
  | some c => match d.copyStatus q c with
    | none => d
    | some s => d.hqEnd q id s.1 s.2 (if Hc.opc c.bytes = 2 then 64 * c.moved else 0)  -- COPY_IN writes no result area

/-- A FRAME or MAP ends when its descriptor has: its summary, where one was written, goes to the result area. -/
def Dev.endSummary (d : Dev) (q id : Nat) (c : HCmd) : Dev :=
  let r := d.padRead c.core c.dst 1 firmware
  let bad := r.2.2.1.any (fun b => b)
  match r.2.2.2 with
  | some e => r.1.hqEnd q id e.1 e.2
  | none =>
    if bad || r.2.1.any (· != 0) then
      (r.1.stagingWrite (q / 16) (Hc.stg c.bytes) r.2.1 bad firmware).hqEnd q id c.status.1 c.status.2 64
    else r.1.hqEnd q id c.status.1 c.status.2

/-- A RUN ends when its descriptors have: their records that were kept go to the result area, as many as it holds. -/
def Dev.endRun (d : Dev) (q id : Nat) (c : HCmd) : Dev :=
  let k := min c.recs.length (Hc.len c.bytes / 16)
  let d := if k = 0 then d else d.stagingWrite (q / 16) (Hc.stg c.bytes) (c.recs.take k).flatten false firmware
  d.hqEnd q id c.status.1 c.status.2 (16 * k)

/-- A service's descriptors go on, and the command ends when they have. -/
def Dev.endService (d : Dev) (q id : Nat) : Dev :=
  match d.hcmd q id with
  | none => d
  | some c =>
    let d := (d.submitGo q id (c.todo.length + 1)).popOwn c.core 256
    match d.hcmd q id with
    | none => d
    | some c =>
      if !d.runDone c then d
      else if Hc.svc c.bytes = 3 then d.endRun q id c
      else d.endSummary q id c

/-- A PUBLISH goes on: its copy, its request, written again while 16 are pending, and Rime's answer, whose tag is appended
to the result. -/
def Dev.endPublish (d : Dev) (q id : Nat) : Dev :=
  let d := d.copyOn q id
  match d.hcmd q id with
  | none => d
  | some c =>
    match c.pub with
    | none =>
      (match d.copyStatus q c with
       | none => d
       | some s =>
         if s.1 ≠ 0 ∧ s.1 ≠ 0x0226 then d.hqEnd q id s.1 s.2 (64 * c.moved)
         else if !d.domUp Dom.rime || decide (16 ≤ d.rime.reqs.length) then d
         else
           let fl := fieldN c.req 2 2
           (d.pubWrite (patch c.req 2 (natLE 2 (if c.poison && !bit fl 2 then fl + 4 else fl)))).modHCmd q id
             (fun c => { c with pub := some id, met := [s] }))
    | some r =>
      match d.rime.rsps with
      | (b, detail) :: _ =>
        if fieldN b 0 4 ≠ r % 2 ^ 32 then d
        else
          let d := d.pubRspPop (fieldN b 0 4)
          if fieldN b 4 2 ≠ 0 then d.hqEnd q id (fieldN b 4 2) detail (Hc.len c.bytes)
          else
            let tag := (b.drop 16).take 16
            let s := firstStatus c.met
            (d.stagingWrite (q / 16) (Hc.stg c.bytes + Hc.len c.bytes) tag false firmware).hqEnd q id s.1 s.2
              (Hc.len c.bytes + 16) tag
      | [] => d

/-- A command firmware holds goes on. -/
def Dev.hqProgress (d : Dev) (q id : Nat) : Dev :=
  match d.hcmd q id with
  | none => d
  | some c =>
    if c.fin.isSome then d
    else match Hc.kind c.bytes false with
      | 0 => d.hqEnd q id 0 0
      | 1 => d.endCopy q id
      | 2 => d.endCopy q id
      | 6 => d.endPublish q id
      | _ => d.endService q id

/-- The completion entry (Table 11.7). -/
def cqEntry (c : HCmd) (q seq status detail time : Nat) : Bytes :=
  record 64 [(0, natLE 4 seq), (4, natLE 2 status), (6, [byte (Hc.opc c.bytes), byte q]), (8,
    natLE 2 (Hc.cmdId c.bytes)),
    (0xC, natLE 4 detail), (0x10, natLE 4 c.len), (0x14, natLE 4 time), (0x18, natLE 4 c.seen), (0x20,
      padTo 16 c.tag),
    (0x3C, natLE 4 seq)]

/-- The completion entry of an ended command written as one 64-byte write, then CQ_PROD advances; held while the ring is
full (R321). -/
def Dev.handBack (d : Dev) (q id : Nat) : Dev :=
  match d.hcmd q id with
  | none => d
  | some c => match c.fin with
    | none => d
    | some (status, detail) =>
      let n := d.g B.mmp F.mmp_CQ_PROD q
      if 2 ^ d.g B.mmp F.mmp_CQ_LOG2 q ≤ sub32 n (d.g B.mmp F.mmp_CQ_ACK_SEEN q) then d
      else
        let seq := add32 n 1
        let d := (d.stagingWrite (q / 16) (ringOff (d.g B.mmp F.mmp_CQ_BASE q) (d.g B.mmp F.mmp_CQ_LOG2 q) n)
          (cqEntry c q seq status detail d.t32) false firmware).p B.mmp F.mmp_CQ_PROD seq q
        let k := d.hqueue q
        d.setHqueue q { k with
          cmds := k.cmds.filter (fun x => x.id != id)
          irqs := (if Hc.irq c.bytes then k.irqs ++ [seq] else k.irqs).filter (fun s => decide (sub32 seq s < 2 ^ 17)) }

/-- HQ_COMPLETE: firmware goes on with the `k`-th command it holds of queue `q`, and hands it back where it has ended. -/
def Dev.hqComplete (d : Dev) (q k : Nat) : Dev :=
  if !(decide (q < 32) && d.hqServed q) then d
  else match (d.hqueue q).cmds[k]? with
    | none => d
    | some c => (d.hqProgress q c.id).handBack q c.id

/-! ### Queue registers (R328) -/

/-- Both rings of a queue lie within the 64 MiB of its channel, 64-byte aligned. -/
def Dev.hqFits (d : Dev) (q : Nat) : Bool :=
  let ok := fun (base log2 : Nat) => base % 64 == 0 && decide (base + 64 * 2 ^ log2 ≤ 0x4000000)
  ok (d.g B.mmp F.mmp_SQ_BASE q) (d.g B.mmp F.mmp_SQ_LOG2 q) && ok (d.g B.mmp F.mmp_CQ_BASE q)
    (d.g B.mmp F.mmp_CQ_LOG2 q)

/-- Commands of a queue that are not started complete with 0x0206 (R320); `k` bounds the count. -/
def Dev.hqDrop (d : Dev) (q : Nat) : Nat → Dev
  | 0 => d
  | k + 1 =>
    if d.g B.mmp F.mmp_SQ_CONS q = d.g B.mmp F.mmp_SQ_PROD_SEEN q then d
    else
      let r := d.hqRead q
      (r.1.hqAdd q r.2.1 (some (0x0206, 0))).1.hqDrop q k

/-- A write of the HQ_CFG word of queue `q`: HQ_EN, and the rest only while HQ_EN is 0; HQ_EN sets only over rings that
fit; a queue that is disabled gives up its commands. -/
def Dev.hqCfg (d : Dev) (q v : Nat) : Dev :=
  if d.gb B.mmp F.mmp_HQ_EN q then
    (if bit v 0 then d
     else
      let d := d.pb B.mmp F.mmp_HQ_EN false q
      if d.hqServed q then d.hqDrop q 65536 else d)
  else
    let log := fun (d : Dev) (fld : Fld) (n : Nat) => if 4 ≤ n ∧ n ≤ 16 then d.p B.mmp fld n q else d
    let d := log (log (d.p B.mmp F.mmp_HQ_CTX (bits v 4 1) q) F.mmp_SQ_LOG2 (bits v 9 5)) F.mmp_CQ_LOG2 (bits v 14 10)
    if bit v 0 && d.hqFits q then d.pb B.mmp F.mmp_HQ_EN true q else d

/-- A write of SQ_BASE or CQ_BASE, ignored while HQ_EN is 1. -/
def Dev.hqBase (d : Dev) (q : Nat) (fld : Fld) (v : Nat) : Dev :=
  if d.gb B.mmp F.mmp_HQ_EN q then d else d.p B.mmp fld v q

end Sys2Proof.Machine
end

