-- ==== Sys2Proof/Machine/Events.lean ====
section
/-!
DEFINITION. The firmware's event service: draining the event queue into the log and the host event rings (R57, R58), the
host's acknowledgement of a ring, and the heartbeat of the control page (Table 11.4).
Choices of the model: log entries 135, 169, 179.
-/

namespace Sys2Proof.Machine

/-- An event record of 32 bytes (Table 1.9). -/
def EvRec.bytes (r : EvRec) : Bytes :=
  natLE 8 r.ev.time ++ [byte r.ev.cls, byte r.ev.inst] ++ natLE 2 r.ev.status ++
  [byte (r.ev.ctx % 16 + 16 * b2n r.ev.secure), byte (r.ev.inst / 256 % 2 + 2 * b2n r.lost)] ++ natLE 2 r.seq ++
  padTo 16 r.ev.detail

/-- The ring of channel `h` admits a record (R58). -/
def Chan.admits (c : Chan) (e : Ev) : Bool := c.evrOn && bit c.evrMask e.ctx && (!e.secure || c.evrSecure)

/-- A record copied to the ring of channel `h`, or counted where the ring is full (R58). -/
def Dev.evrCopy (d : Dev) (h : Nat) (r : EvRec) : Dev :=
  let c := d.chan h
  if !c.admits r.ev then d
  else if 2 ^ c.evrLog2 ≤ sub32 c.evrProd c.evrAck then
    let d := d.dinc 0x7006 (2 + h)
    { d with ringLost := Tab.set 0 d.ringLost h 1 }
  else
    let lost := r.lost || d.ringLost.getD h 0 != 0
    let d := d.stagingWrite h (c.evrOff + c.evrProd % 2 ^ c.evrLog2 * 32)
      ({ r with lost := lost } : EvRec).bytes false firmware
    let d := d.setChan h (fun c => { c with evrProd := add32 c.evrProd 1 })
    { d with ringLost := Tab.set 0 d.ringLost h 0 }

/-- EVENT_QUEUE_DRAIN: firmware takes the oldest record of the event queue, keeps it in the log of 65,536 and copies it to
each admitting ring (R57, R58). Where in context-0 DRAM the log lies the spec does not say; it is held beside the lines
(DESIGN CHOICE, log entry 179). -/
def Dev.eventDrain (d : Dev) : Dev :=
  if !d.mgmtRuns then d
  else match d.evq with
    | [] => d
    | r :: rest =>
      let log := (if d.evLog.length < 65536 then d.evLog else d.evLog.drop 1) ++ [r]
      let d := { d with evq := rest, evLog := log }
      (d.evrCopy 0 r).evrCopy 1 r

/-- EVR_ACK as written: recorded, or ignored and counted where EVR_PROD − EVR_ACK is negative (R58). -/
def Dev.evrAck (d : Dev) (h v : Nat) : Dev :=
  if sint 32 (sub32 (d.chan h).evrProd v) < 0 then d.inc B.mmp F.mmp_DB_REJECT_CNT h
  else (d.setChan h (fun c => { c with evrAck := v % 2 ^ 32 })).inc B.mmp F.mmp_DB_CNT h

/-- EVR_ACK_WRITE by the host of channel `h`. -/
def Dev.evrAckWrite (d : Dev) (h v : Nat) : Dev := if d.chWrites h then d.evrAck h (v % 2 ^ 32) else d

/-- HEARTBEAT: firmware rewrites the heartbeat of both control-page headers with the Varve time (Table 11.4). -/
def Dev.heartbeat (d : Dev) : Dev :=
  if d.mgmtRuns && (d.chan 0).cpState != 0 then
    (d.setChan 0 (fun c => { c with heartbeat := d.t32 })).setChan 1 (fun c => { c with heartbeat := d.t32 })
  else d

/-- REQ_SEQ_WRITE: the host writes REQ_SEQ of slot 0–7, in the world HOST_SECURE of its channel; an on-die initiator
writes that of slot 8–11 in its own (R373, R376). -/
def Dev.reqSeqWrite (d : Dev) (k v : Nat) (secure : Bool) : Dev :=
  if !d.domUp Dom.mgmt then d
  else if k < 8 then (if d.chWrites (k / 4) then d.reqSeq k v (d.gb B.mmp F.mmp_HOST_SECURE (k / 4)) else d)
  else d.reqSeq k v secure

end Sys2Proof.Machine
end

