-- ==== Sys2Proof/Machine/Csr.lean ====
section
/-!
DEFINITION. Register access (R10–R14, R277) and the fabric access (R21, R22, R39, R278, R479): which block a device
physical address names, what a read of its registers returns, and what a write does, field by field.
Choices of the model: log entries 63, 67, 68, 69, 73, 76, 77, 78, 82, 98, 99.
-/

namespace Sys2Proof.Machine

/-- The block's first address. -/
def Blk.base : Blk → Nat
  | .core n => B.core n
  | .cluster c => B.cluster c
  | .region r => B.region r
  | .vault v => B.vault v
  | .link p => B.link p
  | .firn => B.firn
  | .moraine => B.moraine
  | .sastrugi => B.sastrugi
  | .spu r => B.spu r
  | .sync s => B.sync s
  | .mbx m => B.mbx m
  | .sec => B.sec
  | .rime => B.rime
  | .pcc => B.pcc
  | .mmp => B.mmp
  | .mgmt => B.mgmt
  | .dictm => B.dictm
  | .fe f => B.fe f

/-- The fields of its register tables. -/
def Blk.flds : Blk → List Fld
  | .core _ => F.coreFlds
  | .cluster _ => []
  | .region _ => F.regionFlds
  | .vault _ => F.vaultFlds
  | .link p => if p = 0 then F.linkFlds ++ F.link0Flds else F.linkFlds
  | .firn => F.firnFlds
  | .moraine => F.moraineFlds
  | .sastrugi => F.sastrugiFlds
  | .spu _ => F.spuFlds
  | .sync _ => F.syncFlds
  | .mbx _ => F.mbxFlds
  | .sec => F.secFlds
  | .rime => F.rimeFlds
  | .pcc => F.pccFlds
  | .mmp => F.mmpFlds
  | .mgmt => F.mgmtFlds
  | .dictm => F.dictmFlds
  | .fe _ => F.feFlds

/-- The bit of BLK_ATTR of the block's group (Table 9.5); the security engine and Rime have none. -/
def Blk.group : Blk → Option Nat
  | .core n => some (n / 64)
  | .cluster c => some (c / 4)
  | .region r => some r
  | .vault v => some (8 + v)
  | .link p => some (16 + p)
  | .firn => some 22
  | .moraine => some 23
  | .sastrugi => some 24
  | .spu r => some r
  | .sync _ => some 26
  | .mbx _ => some 25
  | .sec => none
  | .rime => none
  | .pcc => some 29
  | .mmp => some 27
  | .mgmt => some 30
  | .dictm => some 28
  | .fe f => some (f / 8)

/-- Every A field of the block is treated as an S field (R277). -/
def Dev.blkSecure (d : Dev) (b : Blk) : Bool :=
  match b.group with
  | some g => bit (d.g B.mgmt F.mgmt_BLK_SECURE) g
  | none => false

/-! ### Which fields an access meets -/

/-- Copies of a field that have a bit in the range from bit `lo` up to bit `hi` of the block. -/
def Fld.hits (fld : Fld) (lo hi : Nat) : List Nat :=
  let b := fld.off * 8 + fld.lo
  if fld.cnt ≤ 1 then (if b < hi ∧ lo < b + fld.w then [0] else [])
  else if hi ≤ b then []
  else
    let k1 := min (fld.cnt - 1) ((hi - 1 - b) / fld.bstr)
    let k0 := if lo < b + fld.w then 0 else (lo - b - fld.w) / fld.bstr + 1
    (List.range (k1 + 1 - k0)).map (fun i => k0 + i)

/-- The fields and copies an access of `n` bytes at offset `o` meets. -/
def Blk.hits (b : Blk) (o n : Nat) : List (Fld × Nat) :=
  b.flds.flatMap (fun (fld : Fld) => (fld.hits (o * 8) ((o + n) * 8)).map (fun k => (fld, k)))

/-- The offset lies in a 64-byte write window: SUBMIT, SEND, PUB_REQ, COLL_SUBMIT (R13). -/
def Blk.window (b : Blk) (o : Nat) : Option Nat :=
  let w := match b with
    | .core _ => some 0x1000
    | .mbx _ => some 0x40
    | .rime => some 0x100
    | .link p => if p = 0 then some 0x8800 else none
    | _ => none
  w.filter (fun w => decide (w ≤ o) && decide (o < w + 64))

/-- The offset lies in a word array beyond the field tables: UCODE (write-only, S), SLOT (read-only, A), JK_DATA
(write-only, S), the on-die mirror slots (A). The flag tells World S. -/
def Blk.words (b : Blk) (o : Nat) : Option Bool :=
  match b with
  | .core _ => if 0x8000 ≤ o then some true else none
  | .mbx _ => if 0x200 ≤ o then some false else none
  | .sec => if 0x80 ≤ o ∧ o < 0xC0 then some true else none
  | .dictm => if 0x1000 ≤ o ∧ o < 0x5000 then some false else none
  | _ => none

/-- An access of the wrong width or alignment (R13): a register that any field of the access's eight bytes lies in has
another width. -/
def Blk.misfit (b : Blk) (o n : Nat) : Bool :=
  if (b.words o).isSome then n != 4 || o % 4 != 0
  else (n != 4 && n != 8) || o % n != 0 || (b.hits (o / 8 * 8) 8).any (fun (h : Fld × Nat) =>
    h.1.dw != n && (h.1.dw == 8 || n == 8))

/-- The field is out of reach of a non-secure access (R14, R277). -/
def Dev.fldSecure (d : Dev) (b : Blk) (fld : Fld) : Bool := fld.sec || d.blkSecure b

/-- A non-secure access that met an S field: counted, and SEC_WORLD within the limit of R244 (R14, R436). -/
def Dev.secWorld (d : Dev) (q : Req) : Dev :=
  (d.inc B.sec F.sec_SEC_WORLD_CNT).eventLim 0x0D 0 0x0908 (dtl [(2, q.sid), (8, q.pa)]) q.ctx false

/-! ### What a field reads as -/

/-- VOXELIZE, RULEBOOK, TOPK and batch descriptors that a block has received and not ended. -/
def Dev.pendOf (d : Dev) (k : Nat) (want : Cls → Bool) : Nat :=
  ((d.blockPend k).filter (fun (x : Nat × QEntry) => match x.2.desc.cls with
    | some c => want c
    | none => false)).length

/-- A PRUNE or PREDICT of region `r` has issued and not ended. -/
def Dev.spuBusy (d : Dev) (r : Nat) (want : Cls) : Bool :=
  d.cores.any (fun (x : Nat × Core) => regionOf x.1 == r && x.2.q.any (fun e => e.st != .queued && !e.done &&
    e.desc.cls == some want))

/-- Fields of a core that follow its queue (Table 3.11, R101). -/
def Dev.coreGet (d : Dev) (n : Nat) (fld : Fld) (k : Nat) : Nat :=
  let c := d.core n
  if fld = F.core_CORE_NUM then n
  else if fld = F.core_IDLE then b2n c.idle
  else if fld = F.core_HEAD_WAIT then b2n (match d.head n with
    | some e => e.desc.waitEn && e.checked && !e.released
    | none => false)
  else if fld = F.core_QUEUE_USED then c.used
  else if fld = F.core_CPL_USED then c.cpl.length
  else if fld = F.core_ISSUED_CNT then c.issued
  else if fld = F.core_CPL_RECORD then (match c.cpl with
    | r :: _ => leNat r.bytes
    | [] => 0)
  else d.g (B.core n) fld k

/-- REFRESH_MULT follows the hottest tier (R245). -/
def refreshMult (t : Int) : Nat := if t ≤ 85 then 0 else if t ≤ 105 then 1 else 2

/-- Fields of a vault controller that follow its state. -/
def Dev.vaultGet (d : Dev) (v : Nat) (fld : Fld) (k : Nat) : Nat :=
  if fld = F.vault_VAULT then v
  else if fld = F.vault_TAGS_USED then d.tagsUsed (.vault v)
  else if fld = F.vault_REFRESH_MULT then refreshMult (sint 8 (d.g B.pcc F.pcc_VLT_TEMP v))
  else d.g (B.vault v) fld k

/-- Fields of a flow engine that follow its state. -/
def Dev.feGet (d : Dev) (f : Nat) (fld : Fld) (k : Nat) : Nat :=
  let x := d.eng f
  if fld = F.fe_ENGINE then f
  else if fld = F.fe_REGION then f / 8
  else if fld = F.fe_READY then b2n (d.feReady f)
  else if fld = F.fe_BUSY then b2n (d.feBusy f)
  else if fld = F.fe_SUSPENDED then b2n (x.run.any (fun r => r.parked))
  else if fld = F.fe_RING_ACTIVE then (x.run.filter (fun r => !r.parked)).length
  else if fld = F.fe_TAGS_USED then d.tagsUsed (.engine f)
  else d.g (B.fe f) fld k

/-- Fields of a link port, and of the system registers, that follow their state. -/
def Dev.linkGet (d : Dev) (p : Nat) (fld : Fld) (k : Nat) : Nat :=
  if fld = F.link_PORT then p
  else if fld = F.link_TAGS_USED then d.tagsUsed (.port p)
  else if fld = F.link0_COORD_X then d.coord d.pkgId 0
  else if fld = F.link0_COORD_Y then d.coord d.pkgId 1
  else if fld = F.link0_COORD_Z then d.coord d.pkgId 2
  else if fld = F.link0_COLL_INFLIGHT then (d.colls.filter (fun x => x.2.started)).length
  else if fld = F.link0_DW_BUSY then b2n (d.tags.any (fun t => t.dramWin == some k))
  else d.g (B.link p) fld k

/-- Fields of Firn that follow its work. Descriptors run whole within one command, so the Spindrift units are never held
between two. -/
def Dev.firnGet (d : Dev) (fld : Fld) (k : Nat) : Nat :=
  if fld = F.firn_VOX_BUSY then b2n (d.pendOf Dom.firn (fun c => c == .voxelize) != 0)
  else if fld = F.firn_RB_BUSY then b2n (d.pendOf Dom.firn (fun c => c == .rulebook) != 0)
  else if fld = F.firn_PEND then (d.blockPend Dom.firn).length
  else d.g B.firn fld k

/-- Fields of Moraine that follow its work. -/
def Dev.moraineGet (d : Dev) (fld : Fld) (k : Nat) : Nat :=
  let h := d.hotEntry (d.g B.moraine F.moraine_HOT_IDX)
  if fld = F.moraine_BUSY then b2n (!d.mor.batches.isEmpty || !d.mor.calving.isEmpty)
  else if fld = F.moraine_PEND then (d.blockPend Dom.moraine).length
  else if fld = F.moraine_STUBS then (d.mor.calving.filter (fun c => c.stub)).length
  else if fld = F.moraine_HOT_KEY then h.2.1
  else if fld = F.moraine_HOT_TABLE then h.1
  else if fld = F.moraine_HOT_COUNT then h.2.2
  else if fld = F.moraine_OPEN_STEPS then (d.morTab k).opened.length
  else d.g B.moraine fld k

/-- Fields of Sastrugi that follow its work (R220, R224). -/
def Dev.sastrugiGet (d : Dev) (fld : Fld) (k : Nat) : Nat :=
  if fld = F.sastrugi_ENG_BUSY then
    ((List.range 4).map (fun i => b2n (d.sasLive.any (fun r => r.eng == i)) * 2 ^ i)).sum
  else if fld = F.sastrugi_PEND then (d.blockPend Dom.sastrugi).length
  else d.g B.sastrugi fld k

/-- Fields of the management block that follow the Varve counter and the contexts. -/
def Dev.mgmtGet (d : Dev) (fld : Fld) (k : Nat) : Nat :=
  if fld = F.mgmt_VARVE_NOW then d.varve
  else if fld = F.mgmt_VARVE_NOW32 then d.t32
  else if fld = F.mgmt_PARKED_ANY then b2n (d.ctxParked k != 0)
  else if fld = F.mgmt_RUNNING then d.ctxRunning k
  else d.g B.mgmt fld k

/-- Fields of the security engine that are fuses. A command is one step, so CMD_BUSY reads 0 between two. -/
def Dev.secGet (d : Dev) (o : Otp) (fld : Fld) (k : Nat) : Nat :=
  if fld = F.sec_LIFECYCLE then o.lifecycle
  else if fld = F.sec_ROOT_REVOKE then o.rootRevoke
  else if fld = F.sec_SVN_MIN then o.svnMin
  else if fld = F.sec_ID_EPOCH then o.idEpoch
  else d.g B.sec fld k

/-- Fields of Rime that follow its queues. -/
def Dev.rimeGet (d : Dev) (fld : Fld) (k : Nat) : Nat :=
  if fld = F.rime_PUB_PEND then d.rime.reqs.length
  else if fld = F.rime_RSP then leNat d.pubRsp
  else d.g B.rime fld k

/-- What copy `k` of a field holds, of its width. -/
def Dev.fldGet (d : Dev) (o : Otp) (b : Blk) (fld : Fld) (k : Nat) : Nat :=
  (match b with
   | .core n => d.coreGet n fld k
   | .vault v => d.vaultGet v fld k
   | .fe f => d.feGet f fld k
   | .link p => d.linkGet p fld k
   | .firn => d.firnGet fld k
   | .moraine => d.moraineGet fld k
   | .sastrugi => d.sastrugiGet fld k
   | .spu r => if fld = F.spu_REGION then r
               else if fld = F.spu_ABL_BUSY then b2n (d.spuBusy r .prune)
               else if fld = F.spu_SPD_BUSY then b2n (d.spuBusy r .predict)
               else d.g (B.spu r) fld k
   | .sync s => if fld = F.sync_WAITERS then (d.syncWatch s).length else d.g (B.sync s) fld k
   | .mgmt => d.mgmtGet fld k
   | .sec => d.secGet o fld k
   | .rime => d.rimeGet fld k
   | _ => d.g b.base fld k) % 2 ^ fld.w

/-! ### Reading (R11) -/

/-- The bits a field contributes to a read of `n` bytes at offset `o`: a write-only field reads as zero. -/
def Dev.fldBits (d : Dev) (fu : Otp) (b : Blk) (o n : Nat) (h : Fld × Nat) : Nat :=
  if h.1.acc = .wo then 0
  else
    let fb := h.1.off * 8 + h.1.lo + h.1.bstr * h.2
    let v := d.fldGet fu b h.1 h.2
    (if o * 8 ≤ fb then v * 2 ^ (fb - o * 8) else v / 2 ^ (o * 8 - fb)) % 2 ^ (8 * n)

/-- A word of a word array: SLOT and the mirror slots read, UCODE and JK_DATA are write-only. -/
def Dev.wordRead (d : Dev) (b : Blk) (o : Nat) : Nat :=
  match b with
  | .mbx m => fieldN (padTo 64 (d.mbxSlot m ((o - 0x200) / 0x40)).msg) (o % 0x40) 4
  | .dictm =>
    let x := d.mirSlot (8 + (o - 0x1000) / 0x1000)
    let p := o % 0x1000
    if p = 0 then x.reqSeq
    else if 0x40 ≤ p ∧ p < 0x800 then fieldN (padTo 1984 x.req) (p - 0x40) 4
    else if p = 0x800 then x.rspSeq
    else if 0x840 ≤ p then fieldN (padTo 1984 x.rsp) (p - 0x840) 4
    else 0
  | _ => 0

/-- A register read of `n` bytes at offset `o` of a block (R11–R14). -/
def Dev.csrRead (d : Dev) (fu : Otp) (b : Blk) (o : Nat) (q : Req) : Dev × Rsp :=
  let n := q.size
  let zero := fun (d : Dev) => (d, (⟨zeros n, false, 0, 0⟩ : Rsp))
  if (b.window o).isSome || b.misfit o n then zero (d.dinc 0x7001 0x01)
  else match b.words o with
    | some s =>
      if !q.secure && (s || d.blkSecure b) then zero (d.secWorld q)
      else (d, ⟨natLE 4 (d.wordRead b o), false, 0, 0⟩)
    | none =>
      let hs := b.hits o n
      let open_ := hs.filter (fun (h : Fld × Nat) => q.secure || !d.fldSecure b h.1)
      let v := (open_.map (d.fldBits fu b o n)).sum
      let r : Rsp := ⟨natLE n v, false, 0, 0⟩
      (if open_.length < hs.length then d.secWorld q else d, r)

/-! ### Writing (R11) -/

/-- A value a field does not take: the register's table says that such a write is ignored; a context is configured while
it is OFF (R262). -/
def Dev.fldIgnores (d : Dev) (b : Blk) (fld : Fld) (k v : Nat) : Bool :=
  match b with
  | .moraine => fld = F.moraine_STEP_TIMEOUT_US && (v == 0 || decide (1000000 < v))
  | .vault _ => fld = F.vault_SCRUB_SHIFT && (decide (v < 16) || decide (30 < v))
  | .fe _ => fld = F.fe_RING_LOG2 && (decide (v < 4) || decide (16 < v))
  | .mgmt => (fld = F.mgmt_VA_BITS && (decide (v < 30) || decide (48 < v))) || (fld = F.mgmt_CTX_SECURE && k == 0) ||
      (k != 0 && d.ctxState k != 0 && (fld = F.mgmt_VA_BITS || fld = F.mgmt_CTX_SECURE || fld = F.mgmt_CTX_TTB))
  | .mbx m => (fld = F.mbx_TMO_US && (v == 0 || decide (1000000 < v))) ||
      (fld = F.mbx_MODE && d.gb (B.mbx m) F.mbx_MBX_EN)
  | .link _ => fld = F.link0_REMOTE_TMO && (v == 0 || decide (1000000 < v))
  | _ => false

/-- A field with no behaviour of its own takes the bits of a write under its access code (R11). A QoS weight of 0 is
stored as 1 (R51). -/
def Dev.fldStore (d : Dev) (b : Blk) (o n v : Nat) (h : Fld × Nat) : Dev :=
  let fld := h.1
  let fb := fld.off * 8 + fld.lo + fld.bstr * h.2
  let lo := max fb (o * 8)
  let m := min (fb + fld.w) ((o + n) * 8) - lo
  let x := v / 2 ^ (lo - o * 8) % 2 ^ m
  let old := d.g b.base fld h.2
  match fld.acc with
  | .rw =>
    let new := setBits old (lo - fb) m x
    d.p b.base fld (if fld = F.vault_QOS_W ∧ new = 0 then 1 else new) h.2
  | .rw1c =>
    let part := old / 2 ^ (lo - fb) % 2 ^ m
    d.p b.base fld (setBits old (lo - fb) m (part - Nat.land part x)) h.2
  | _ => d

/-- The value a write would leave in a field. -/
def Dev.fldNew (d : Dev) (b : Blk) (o n v : Nat) (h : Fld × Nat) : Nat :=
  let fb := h.1.off * 8 + h.1.lo + h.1.bstr * h.2
  let lo := max fb (o * 8)
  let m := min (fb + h.1.w) ((o + n) * 8) - lo
  setBits (d.g b.base h.1 h.2) (lo - fb) m (v / 2 ^ (lo - o * 8) % 2 ^ m)

/-- The plain store of every field an access meets; what a field ignores is judged by the values before the write. -/
def Dev.plainStore (d : Dev) (b : Blk) (o n v : Nat) (hs : List (Fld × Nat)) : Dev :=
  (hs.filter (fun h => !(h.1.acc == .rw && d.fldIgnores b h.1 h.2 (d.fldNew b o n v h)))).foldl
    (fun d h => d.fldStore b o n v h) d

/-- Registers of a core with a behaviour of their own (Tables 3.9–3.16). -/
def Dev.coreWrite (d : Dev) (n o v : Nat) (q : Req) : Option Dev :=
  let w := (o - 0x100) / 0x10
  if o = 0x8 then
    let d := (d.pb (B.core n) F.core_SB_BYPASS (bit v 0)).pb (B.core n) F.core_STEAL_EN (bit v 1)
    let d := if bit v 2 then d.ucodeCommit n else d
    some (if bit v 3 then d.fenceRelease n else d)
  else if o = 0x30 then some (d.cplPop n (v % 256))
  else if o = 0x480 then some (if bit v 0 then d.bankCntClr n else d)
  else if 0x100 ≤ o ∧ o < 0x140 then
    (if o % 0x10 = 0 then some (d.winRange n w q.sid q.ctx v)
     else if o % 0x10 = 4 then some (d.winCtrl n w q.sid q.ctx v)
     else if o % 0x10 = 8 then some (d.winPeers n w q.sid q.ctx v) else none)
  else none

/-- A write of an inbound DRAM window's register at +0x00, +0x08, +0x10 or +0x18 (R344): refused while the window is
open or busy; DW_EN clears at any time and sets only over a range that is not empty. -/
def Dev.dwWrite (d : Dev) (w o v : Nat) (q : Req) : Dev :=
  let b := B.link0
  let open_ := d.gb b F.link0_DW_EN w || d.tags.any (fun t => t.dramWin == some w)
  let deny := fun (d : Dev) => d.event 0x06 0xFF 0x0214 (dtl [(8, q.pa), (2, q.sid), (1, d.pkgId)]) q.ctx q.secure
  if o = 0x10 then
    let fs := [F.link0_PERM_R, F.link0_PERM_W, F.link0_DW_CTX, F.link0_DW_SECURE, F.link0_DW_SLOT]
    let new := fun (fld : Fld) => v / 2 ^ fld.lo % 2 ^ fld.w
    let changes := fs.any (fun fld => d.g b fld w != new fld)
    let d := if changes && open_ then deny d else if changes then fs.foldl (fun d fld => d.p b fld (new fld) w) d else d
    d.pb b F.link0_DW_EN (bit v 0 && (d.gb b F.link0_DW_EN w ||
      decide (d.g b F.link0_WB_BASE w ≤ d.g b F.link0_WB_LIMIT w))) w
  else if open_ then deny d
  else if o = 0 then d.p b F.link0_WB_BASE (v / 65536) w
  else if o = 8 then d.p b F.link0_WB_LIMIT (v / 65536) w
  else d.p b F.link0_DW_PEERS v w

/-- A write of SYS_CFG (R354): only while every PORT_EN is 0; TOPO_EN sets only over a topology of at most 64 packages
that holds this one. -/
def Dev.sysCfg (d : Dev) (v : Nat) : Dev :=
  let b := B.link0
  if (List.range 6).any (fun p => d.gb (B.link p) F.link_PORT_EN) then d
  else
    let n := bits v 4 1 * bits v 8 5 * bits v 12 9
    (((d.p b F.link0_DIM_X (bits v 4 1)).p b F.link0_DIM_Y (bits v 8 5)).p b F.link0_DIM_Z (bits v 12 9)).pb b
      F.link0_TOPO_EN (bit v 0 && decide (n ≤ 64) && decide (d.pkgId < n))

/-- Registers of a link port, and of the system, with a behaviour of their own (Tables 12.8, 12.9). -/
def Dev.linkWrite (d : Dev) (p o v : Nat) (q : Req) : Option Dev :=
  if o = 0x8 then some (d.portCtrl p v)
  else if o = 0x80 then some (if bit v 0 then d.linkCntClr p else d)
  else if p ≠ 0 then none
  else if o = 0x8000 then some (d.sysCfg v)
  else if 0x8400 ≤ o ∧ o < 0x8800 then some (d.dwWrite ((o - 0x8400) / 0x20) (o % 0x20) v q)
  else if o = 0x8860 then some (if bit v 0 then d.sysCntClr else d)
  else none

/-- Registers of Moraine with a behaviour of their own (Tables 6.8–6.11). -/
def Dev.moraineWrite (d : Dev) (o v : Nat) : Option Dev :=
  if o = 0x8 then
    let d := d.pb B.moraine F.moraine_PREFETCH_EN (bit v 0)
    some (if bit v 1 then d.hotClr else d)
  else if o = 0x14 then
    let d := if bit v 0 then d.ovrRead else d
    some (if bit v 1 then d.ovrWrite else d)
  else if o = 0xC0 then some (if bit v 0 then d.morCntClr else d)
  else if 0x1000 ≤ o ∧ o < 0x3000 then some (d.tableWrite ((o - 0x1000) / 0x80) (o % 0x80) v)
  else none

/-- FUNC_DIS as written; an ABORT that is accepted reaches Moraine's batches (R202, R280, R282). -/
def Dev.funcDisWrite (d : Dev) (v : Nat) : Dev :=
  let r := d.funcDis v
  if bit v 31 && bit v 8 && !bit v 9 && d.disAccepts (v % 256) true then r.morAbort (v % 256) else r

/-- Registers of the management block with a behaviour of their own (Tables 9.8–9.12, 13.12). -/
def Dev.mgmtWrite (d : Dev) (o v : Nat) : Option Dev :=
  if o = 0x10 then some (d.rateWrite v)
  else if o = 0x20 then some (if bit v 0 then d.stepGo else d)
  else if o = 0x8010 then some (d.funcDisWrite v)
  else if o = 0x8014 then some (if bit v 31 then
      (d.pb B.mgmt F.mgmt_DIS_DONE false).p B.mgmt F.mgmt_DIS_REJECT 0 else d)
  else if o = 0x8018 then some (d.xlInv v)
  else if 0x8100 ≤ o ∧ o < 0x8500 ∧ o % 0x40 = 8 then
    let c := (o - 0x8100) / 0x40
    let r := d.ctxCmd c v
    some (if bit v 2 then r.collResume c else r)
  else if 0x8800 ≤ o ∧ o < 0x9000 then some (d.rdWrite ((o - 0x8800) / 0x20) (o % 0x20) v)
  else none

/-- Registers of Rime with a behaviour of their own (Tables 14.9–14.11). Whether the physical conditions of causes 1 and
2 still hold is free. -/
def Dev.rimeRegWrite (d : Dev) (o v : Nat) (q : Req) : Option Dev :=
  let s := (o - 0x1000) / 0x40
  let f := d.fresh
  if o = 0x8 then some (f.2.faultClear v (f.1 % 8))
  else if o = 0xC then some (d.faultMask v)
  else if o = 0x10 then some (d.safeMask v)
  else if o = 0x14 then some (d.chkCfg v)
  else if o = 0x18 then some (d.hbCfg v)
  else if o = 0x1C then some (d.hbKick q.sid)
  else if o = 0x20 then some (d.rimePeerWrite v)
  else if o = 0x80 then some (if bit v 0 then d.rimeCntClr else d)
  else if o = 0x160 then some (d.pubRspPop v)
  else if o = 0x200 then some (d.stCtrl v)
  else if o = 0x204 then some (d.stReqWrite v)
  else if 0x210 ≤ o ∧ o < 0x250 then some (d.windowWord ((o - 0x210) / 0x10) (o % 0x10) v)
  else if 0x1000 ≤ o ∧ o < 0x1400 then match o % 0x40 with
    | 0x00 => some (d.streamEnable s v)
    | 0x04 => some (d.streamWord s F.rime_PUB_OFF v)
    | 0x08 => some (d.streamWord s F.rime_WO_OFF v)
    | 0x0C => some (d.streamWord s F.rime_MAX_AGE_US v)
    | 0x10 => some (d.streamWord s F.rime_STR_PERIOD_US v)
    | _ => none
  else none

/-- Registers of the security engine with a behaviour of their own (Table 15.9). A fuse command is left for the end of
the write, which the fuses belong to. -/
def Dev.secWrite (d : Dev) (o v : Nat) : Option Dev :=
  if o = 0x10 then some { d with secCmd := some v }
  else if o = 0x40 then
    let d := d.p B.sec F.sec_CK_CTX v
    some (if bit v 4 then d.ckGo (v % 16) else d)
  else if o = 0x60 then some (d.jkCommand v)
  else if o = 0xE0 then some (if bit v 0 then d.secCntClr else d)
  else none

/-- Registers of the power, clock and Creep block with a behaviour of their own (Table 16.9). -/
def Dev.pccWrite (d : Dev) (o v : Nat) : Option Dev :=
  if o = 0x10 then some (d.pwrReq v)
  else if o = 0x30 then some (d.thermCfg v)
  else if o = 0x34 then some (d.creepCfg v)
  else if o = 0x38 then some (d.creepReq v)
  else if o = 0x320 then some (if bit v 0 then d.pccCntClr else d)
  else none

/-- Registers of the MMP block with a behaviour of their own (Table 11.10). -/
def Dev.mmpWrite (d : Dev) (o v : Nat) : Option Dev :=
  let q := (o - 0x1000) / 0x20
  if o = 0x180 ∨ o = 0x280 then some (if bit v 0 then d.mmpCntClr ((o - 0x180) / 0x100) else d)
  else if 0x1000 ≤ o ∧ o < 0x1400 then match o % 0x20 with
    | 0x0 => some (d.hqCfg q v)
    | 0x4 => some (d.hqBase q F.mmp_SQ_BASE v)
    | 0x8 => some (d.hqBase q F.mmp_CQ_BASE v)
    | _ => none
  else none

/-- A register whose write has a behaviour of its own; none where every field stores or clears under its access code. -/
def Dev.regWrite (d : Dev) (b : Blk) (o v : Nat) (q : Req) : Option Dev :=
  match b with
  | .core n => d.coreWrite n o v q
  | .region r => if o = 0x118 then some (if bit v 0 then d.tcCntClr r else d) else none
  | .vault u =>
    if o = 0x8 then
      let d := d.pb (B.vault u) F.vault_SCRUB_EN (bit v 1)
      some (if bit v 0 then d.initStart u else d)
    else if o = 0x80 then some (if bit v 0 then d.vltCntClr u else d) else none
  | .link p => d.linkWrite p o v q
  | .firn =>
    if o = 0xA0 then some (if bit v 0 then d.firnCntClr else d)
    else if 0x100 ≤ o ∧ o < 0x900 ∧ o % 0x20 = 0 then some (d.sensorSlotWrite ((o - 0x100) / 0x20) v) else none
  | .moraine => d.moraineWrite o v
  | .sastrugi =>
    if o = 0x8 then some (d.engEn v) else if o = 0x80 then some (if bit v 0 then d.sasCntClr else d) else none
  | .spu r =>
    if o = 0x20 then some (if bit v 0 then d.sparseCntClr r else d)
    else if o = 0x188 then some (if bit v 0 then d.recallClr r else d) else none
  | .sync s =>
    if o = 0x8 then some (d.sigAdd s q.sid q.ctx q.secure v)
    else if o = 0xC then some (d.syncCfg s q.secure q.sid q.ctx v) else none
  | .mbx m => if o = 0x24 then some (d.mbxPop m (v % 8)) else none
  | .sec => d.secWrite o v
  | .rime => d.rimeRegWrite o v q
  | .pcc => d.pccWrite o v
  | .mmp => d.mmpWrite o v
  | .mgmt => d.mgmtWrite o v
  | .dictm => if o = 0x8 then some (d.snapCtrl v) else none
  | .fe f =>
    if o = 0x8 then some (d.ringEn f v)
    else if o = 0x1C then some (d.ringProd f v q.ctx q.secure)
    else if o = 0x10 then some (d.ringCfg f F.fe_RING_VA v)
    else if o = 0x18 then some (if d.fldIgnores b F.fe_RING_LOG2 0 (v % 32) then d
                                else d.ringCfg f F.fe_RING_LOG2 (v % 32))
    else if o = 0x60 then some (if bit v 0 then d.feCntClr f else d) else none
  | .cluster _ => none

/-- A whole 64-byte write to a window (R13, R93, R299, R347, R392). PUB_REQ and COLL_SUBMIT are S. -/
def Dev.windowWrite (d : Dev) (b : Blk) (q : Req) : Dev :=
  match b with
  | .core n => (d.submit n q.sid q.ctx q.secure q.data).1
  | .mbx m => if d.blkSecure b && !q.secure then d.secWorld q else d.mbxSend m q.sid q.ctx q.secure q.data
  | .rime => if q.secure then d.pubWrite q.data else d.secWorld q
  | _ => if q.secure then d.collSubmit q.data else d.secWorld q

/-- A word written into a word array: UCODE, JK_DATA, the request area and REQ_SEQ of an on-die mirror slot. -/
def Dev.wordWrite (d : Dev) (b : Blk) (o v : Nat) (q : Req) : Dev :=
  match b with
  | .core n => d.ucodeWrite n q.sid (o - 0x8000) v q.ctx
  | .sec => { d with sec := { d.sec with jkData := patch d.sec.jkData (o - 0x80) (natLE 4 v) } }
  | .dictm =>
    let k := 8 + (o - 0x1000) / 0x1000
    let p := o % 0x1000
    if p = 0 then d.reqSeq k v q.secure
    else if 0x40 ≤ p ∧ p < 0x800 then d.mirWrite k (p - 0x40) (natLE 4 v) else d
  | _ => d

/-- A write that meets no field it may store, in an enabled table descriptor: MAP_TABLE_OFF (R205). -/
def Dev.tableMiss (d : Dev) (b : Blk) (o : Nat) (hs open_ : List (Fld × Nat)) : Dev :=
  let t := (o - 0x1000) / 0x80
  if b = .moraine ∧ 0x1000 ≤ o ∧ o < 0x3000 ∧ (hs = [] ∨ open_ ≠ []) ∧ d.gb B.moraine F.moraine_TBL_EN t then
    d.event 0x08 0 0x0503 (dtlWord t)
  else d

/-- A register write of the request's bytes at offset `o` of a block (R11–R14). A non-secure write stores the A fields
alone; a poisoned one carries no value to store. -/
def Dev.csrWrite (d : Dev) (b : Blk) (o : Nat) (q : Req) : Dev :=
  let n := q.size
  let v := leNat q.data
  match b.window o with
  | some w => if o = w ∧ n = 64 then (if q.poison then d else d.windowWrite b q) else d.dinc 0x7001 0x01
  | none =>
    if b.misfit o n then d.dinc 0x7001 0x01
    else if q.poison then d
    else match b.words o with
      | some s => if !q.secure && (s || d.blkSecure b) then d.secWorld q else d.wordWrite b o v q
      | none =>
        let hs := b.hits o n
        let open_ := hs.filter (fun (h : Fld × Nat) => q.secure || !d.fldSecure b h.1)
        let e := if open_.length < hs.length then d.secWorld q else d
        if open_.all (fun (h : Fld × Nat) => h.1.acc == .ro) then e.tableMiss b o hs open_
        else match e.regWrite b o v q with
          | some x => x
          | none => e.plainStore b o n v open_

/-- A write that left a fuse command for its end carries it out (R435). -/
def fuseCommand (d : Dev) (o : Otp) : Dev × Otp :=
  match d.secCmd with
  | some w => secCommand { d with secCmd := none } o w
  | none => (d, o)

/-- The access is a submission: a whole write of a core's SUBMIT window. -/
def Req.submits (q : Req) : Option Nat :=
  match blkAt q.pa with
  | some (.core n, o) => if o = 0x1000 ∧ q.wr ∧ q.size = 64 then some n else none
  | _ => none

/-- An access to the register range (R13, R14, R22); a submission to a cluster that is off or fenced is refused as well
(R33). -/
def csrAccess (d : Dev) (fu : Otp) (q : Req) : Dev × Otp × Rsp :=
  match blkAt q.pa with
  | none => let r := d.decodeFail q
            (r.1, fu, r.2)
  | some (b, o) =>
    if !d.blkUp b then
      match q.submits with
      | some n => (d.submitOff n q, fu, ⟨[], false, 0, 0⟩)
      | none => let r := d.decodeFail q
                (r.1, fu, r.2)
    else if q.wr then
      let r := fuseCommand (d.csrWrite b o q) fu
      (r.1, r.2, ⟨[], false, 0, 0⟩)
    else
      let r := d.csrRead fu b o q
      (r.1, fu, r.2)

/-! ### The fabric access (R22, R39, R478, R479) -/

/-- The access is naturally aligned to its size within one 64-byte line, or a wide scratchpad access within one bank
row (R106, R479). -/
def Req.legal (q : Req) : Bool :=
  ([1, 2, 4, 8, 16, 32, 64].contains q.size && q.pa % q.size == 0) ||
  (decide (0x1000000000 ≤ q.pa) && decide (q.pa < 0x1020000000) && q.size % 64 == 0 && q.size != 0 && q.pa % 64 == 0 &&
    decide (q.pa % 1024 + q.size ≤ 1024))

/-- A memory access of the fabric, which `ups` upsets in an SRAM sector or a DRAM line meet. -/
def Dev.memAccess (d : Dev) (q : Req) (ups : ErrPat) : Dev :=
  if 0x4000000000 ≤ q.pa ∧ q.pa < 0x44000000000 then
    let port := .port ((d.detPort ((q.pa - 0x4000000000) / 0x1000000000)).getD 0)
    let wait := fun (d : Dev) => { d with stalled := d.stalled ++ [(port, q)] }
    if d.stalled.any (fun s => s.1 == port && s.2.sid == q.sid) then wait d
    else
      let r := d.remoteAccess q .response .alone
      match r.2 with
      | some x => { r.1 with resp := if x.poison || q.wr then some x else none }
      | none => wait r.1
  else if q.pa < 0xC00000000 then
    if !d.pathUp q || !d.vaultUp (d.vaultOf q.pa).1 then
      let r := d.decodeFail q
      { r.1 with resp := some r.2 }
    else
      let f := d.fwCheck q
      if f.2 then f.1.vaultAccept q ups
      else { f.1 with resp := some ⟨zeros q.size, true, 0x0204, q.pa / 65536⟩ }
  else
    let d := if (d.memUp q.pa) = some true then d.upsetSram q.pa ups else d
    let r := d.localAccess q
    { r.1 with resp := some r.2 }

/-- One access decoded, checked and completed at its target; registers reach the fuses through SEC_CMD. -/
def fabricGo (d : Dev) (fu : Otp) (q : Req) (ups : ErrPat) : Dev × Otp :=
  if isCsr q.pa then
    let r := csrAccess d fu q
    ({ r.1 with resp := some r.2.2 }, r.2.1)
  else (d.memAccess q ups, fu)

/-- FABRIC_ACCESS (R22, R39, R236, R479) by a stream that Table 1.4 lists. An uncorrectable spine flit raises SYM_UE, of
a spine port that has no number in the spec: a read delivers poison; of a write its data reach the target poisoned, or,
where the flit carries the request, it is dropped. A misaligned access of a register is R13's; of memory there is none. -/
def fabricAccess (d : Dev) (fu : Otp) (q : Req) (ups : ErrPat) (flit : SpineFlit) : Dev × Otp :=
  let q : Req := { q with data := if q.wr then padTo q.size q.data else [] }
  if !listedSid q.sid || !(isCsr q.pa || q.legal) then (d, fu)
  else if flit = .clean ∨ d.inRegion q then fabricGo d fu q ups
  else
    let f := d.fresh
    let d := f.2.event 0x13 0 0x0228 (dtl [(2, q.sid), (1, f.1 % 256)]) q.ctx q.secure
    if q.wr then
      if flit = .request then ({ d with resp := some ⟨[], false, 0, 0⟩ }, fu)
      else fabricGo d fu { q with poison := true } ups
    else
      let r := fabricGo d fu q ups
      ({ r.1 with resp := some ⟨zeros q.size, true, 0, 0⟩ }, r.2)

/-- REGISTER_WRITE: one write of a register (R11). -/
def registerWrite (d : Dev) (fu : Otp) (q : Req) : Dev × Otp :=
  let q : Req := { q with wr := true, data := padTo q.size q.data }
  if isCsr q.pa && listedSid q.sid then
    let r := csrAccess d fu q
    ({ r.1 with resp := some r.2.2 }, r.2.1)
  else (d, fu)

end Sys2Proof.Machine
end

