-- ==== Sys2Proof/Machine/Boot.lean ====
section
/-!
DEFINITION. Reset and boot (R2, R19, R361, R414, R418–R423, R443, R459, R460, R464, R469): image checks, the steps of
Table 15.4, cold and warm reset, power loss, and the READY of Moraine with the tables firmware creates then (R206).
Choices of the model: log entries 125, 152, 153, 154, 155, 156, 157, 175, 204, 212, 213.
-/

namespace Sys2Proof.Machine

/-! ### Images (R419, R420) -/

namespace Img
/-- Fields of the image header (Table 15.3). -/
def root (b : Bytes) : Nat := fieldN b 5 1
def svn (b : Bytes) : Nat := fieldN b 8 4
def version (b : Bytes) : Nat := fieldN b 0xC 4
def loadLen (b : Bytes) : Nat := fieldN b 0x10 4
def digest (b : Bytes) : Bytes := (b.drop 0x20).take 32
def rootPub (b : Bytes) : Bytes := (b.drop 0x40).take 56
def sig (b : Bytes) : Bytes := (b.drop 0x80).take 1776
def payload (b : Bytes) : Bytes := (b.drop 0x800).take (loadLen b)
end Img

/-- Bytes of an image's area (Table 15.2). -/
def imgArea (ty : Nat) : Nat := if ty = 1 then 0x800000 else 0x400000

/-- The fields of a header that are zero. -/
def imgZeros (b : Bytes) : Bool :=
  ((b.drop 6).take 2 ++ (b.drop 0x14).take 12 ++ (b.drop 0x78).take 8 ++ (b.drop 0x770).take 144).all (fun x => x == 0)

/-- The cause of an image that is not valid, by the first check of R420 that fails; 0 for a valid one. -/
def imgCause (o : Otp) (ty : Nat) (b : Bytes) : Nat :=
  if b.length < 0x800 ∨ fieldN b 0 4 ≠ 0x474D4941 ∨ fieldN b 4 1 ≠ ty ∨ !imgZeros b then 0x0901
  else if bit o.rootRevoke (Img.root b) then 0x0903
  else if 4 ≤ Img.root b ∨ Crypto.sha256 (Img.rootPub b) ≠ Config.rootKeyHash (Img.root b) then 0x0901
  else if Img.svn b < o.svnMin ∨ 64 < Img.svn b then (if Img.svn b < o.svnMin then 0x0902 else 0x0901)
  else if imgArea ty < 0x800 + Img.loadLen b ∨ Img.loadLen b % 64 ≠ 0 then 0x0901
  else if !(Crypto.hssVerify (Img.rootPub b) (Img.sig b) (b.take 0x80)) ∨ (Img.payload b).length ≠ Img.loadLen b ∨
      Crypto.sha256 (Img.payload b) ≠ Img.digest b then 0x0901
  else 0

/-- The image of a type in a set of the flash, empty where nothing is stored. -/
def Dev.image (d : Dev) (set ty : Nat) : Bytes := d.flash.images.getD (set * 4 + ty) []

/-- The set the boot ROM boots from: the valid firmware with the higher SVN, set A when equal (R420). -/
def Dev.bootSet (d : Dev) (o : Otp) : Option Nat :=
  let a := imgCause o 1 (d.image 0 1) == 0
  let b := imgCause o 1 (d.image 1 1) == 0
  if a && b then some (if Img.svn (d.image 0 1) < Img.svn (d.image 1 1) then 1 else 0)
  else if a then some 0
  else if b then some 1
  else none

/-- The image of another type: of the chosen set where it is valid, else of the other; the payload, or the cause. -/
def Dev.pickImage (d : Dev) (o : Otp) (set ty : Nat) : Bytes ⊕ Nat :=
  if imgCause o ty (d.image set ty) = 0 then .inl (Img.payload (d.image set ty))
  else if imgCause o ty (d.image (1 - set) ty) = 0 then .inl (Img.payload (d.image (1 - set) ty))
  else .inr (imgCause o ty (d.image set ty))

/-! ### Pieces of the boot chain -/

/-- The boot record of R423, rewritten in the staging of channel 0. -/
def Dev.bootRecord (d : Dev) : Dev :=
  d.stagingWrite 0 0x3FFFFC0 (record 64 [(0, natLE 4 0x544F4F42), (4, [byte (d.g B.sec F.sec_BOOT_STEP)]),
    (5, [byte (d.g B.sec F.sec_BOOT_SET)]), (6, natLE 2 (d.g B.sec F.sec_BOOT_CAUSE)), (8, natLE 4 d.sec.fwSvn),
    (12, natLE 4 d.t32)]) false ⟨0x2A0, 0, true⟩

/-- A boot step begins. -/
def Dev.bootStep (d : Dev) (n : Nat) : Dev := (d.p B.sec F.sec_BOOT_STEP n).bootRecord

/-- CP_STATE of both channels. -/
def Dev.cpState (d : Dev) (v : Nat) : Dev :=
  (d.setChan 0 (fun c => { c with cpState := v })).setChan 1 (fun c => { c with cpState := v })

/-- The chain stops: the cause recorded, CP_STATE 3 (R422). -/
def Dev.bootFail (d : Dev) (cause : Nat) : Dev := ((d.p B.sec F.sec_BOOT_CAUSE cause).bootRecord).cpState 3

/-- Measurement register `i` set (Table 15.4). -/
def Dev.measure (d : Dev) (i : Nat) (digest : Bytes) : Dev :=
  (List.range 8).foldl (fun d j => d.p B.sec F.sec_MEAS (fieldN digest (4 * j) 4) (8 * i + j)) d

/-- The sweep of the measurement of region `r` at boot: `n` steps pass and the next fails; every AVSBus command is
acknowledged (R453, R442). -/
def Dev.bootSweep (d : Dev) (r : Nat) : Nat → Dev
  | 0 => (d.avsAck r).creepStep r false
  | n + 1 => ((d.avsAck r).creepStep r true).bootSweep r n

/-- Cluster `c` switched on at boot; the first of a region with its Creep measurement, of which `n` sweep steps pass
(R454, Table 15.4). -/
def Dev.bootCluster (d : Dev) (c n : Nat) : Dev :=
  let r := c / 4
  let first := !bit d.pcc.measured r
  let d := d.firstMeasure c
  let d := if first && d.gb B.pcc F.pcc_MEAS_BUSY r then
      ((d.bootSweep r (min n 40)).creepEnd r).avsAck r else d
  if d.domOn (Dom.cluster c) then d else d.domStart (Dom.cluster c)

/-- The words of the microprogram that fit a core's store of 32 KiB (R82). -/
def ucodeWords (payload : Bytes) : Tab Nat :=
  (chunks 4 (payload.take 32768)).zipIdx.map (fun (x : Bytes × Nat) => (4 * x.2, leNat x.1))

/-- The microprogram loaded into a core and committed (R116). -/
def Dev.loadUcode (d : Dev) (n : Nat) (ws : Tab Nat) : Dev :=
  (d.setCore n { d.core n with ucode := ws }).pb (B.core n) F.core_UCODE_VALID true

/-- The persistent entries as the store holds them (R361). -/
def Dev.storedValues (d : Dev) : Tab Bytes :=
  match d.flash.storeCurrent with
  | some c => c.2.vals
  | none => []

/-- A host queue configured from its dictionary entry (Table 11.10). -/
def Dev.queueFromDict (d : Dev) (o : Otp) (q : Nat) : Dev :=
  let v := fun (s : Nat) => d.inForce o (0x2600 + q) s
  ((d.hqBase q F.mmp_SQ_BASE (v 2)).hqBase q F.mmp_CQ_BASE (v 3)).hqCfg q (v 1)

/-- The event ring of a channel fixed from its dictionary entry; a ring beyond 64 MiB or over the boot record stays
disabled, with EVR_LOG2 0 (R58). -/
def Dev.ringFromDict (d : Dev) (o : Otp) (h : Nat) : Dev :=
  let v := fun (s : Nat) => d.inForce o (0x2700 + h) s
  let size := 32 * 2 ^ v 2
  let ok := decide (v 1 + size ≤ 0x4000000) && !(h == 0 && overlaps (v 1) size 0x3FFFFC0 64)
  d.setChan h (fun c => { c with evrOn := ok, evrOff := v 1, evrLog2 := if ok then v 2 else 0, evrMask := v 3,
                                 evrSecure := v 4 != 0 })

/-- Rime's registers loaded from the dictionary (R413). -/
def Dev.rimeFromDict (d : Dev) (o : Otp) : Dev :=
  let v := fun (s : Nat) => d.inForce o 0x3000 s
  let d := (((d.faultMask (v 1)).safeMask (v 2)).hbCfg (v 3)).chkCfg (v 5)
  let d := d.stCtrl (b2n (d.gb B.rime F.rime_ST_EN) + 256 * v 4)
  let word := fun (d : Dev) (i j : Nat) => bits (d.inForce o i 1) (32 * j + 31) (32 * j)
  let d := (List.range 4).foldl (fun (d : Dev) (w : Nat) =>
    [1, 2, 3, 0].foldl (fun (d : Dev) (j : Nat) => d.windowWord w (4 * j) (word d (0x3010 + w) j)) d) d
  (List.range 16).foldl (fun (d : Dev) (s : Nat) =>
    ((((d.streamWord s F.rime_PUB_OFF (word d (0x3100 + s) 1)).streamWord s F.rime_WO_OFF (word d (0x3100 + s)
      2)).streamWord s F.rime_MAX_AGE_US (word d (0x3100 + s) 3)).streamWord s F.rime_STR_PERIOD_US (word d (0x3100 + s)
      4)).streamEnable s (word d (0x3100 + s) 0)) d

/-- A CAN FD controller started where its entry enables it (R370). -/
def Dev.canStart (d : Dev) (o : Otp) (c : Nat) : Dev :=
  if d.inForce o (0x1032 + c) 1 = 1 then d.setCan c { d.can c with state := 0 } else d

/-- LIFE_S at the power-on, read from the Creep log (R458). -/
def Dev.lifeFromLog (d : Dev) : Dev :=
  if d.pcc.lifeBase.isSome then d
  else
    let l := match d.flash.creepLatest with
      | some x => fieldN x.2 8 8
      | none => 0
    { d with pcc := { d.pcc with lifeBase := some l } }

/-! ### BOOT_CHAIN (R421) -/

/-- Step 1: fuses, entropy, BOOT_ID, context-0 keys, the MMP with its staging zeroed and CH_READY. -/
def Dev.boot1 (d : Dev) (o : Otp) (entropyOk : Bool) : Dev :=
  let d := (d.setOn Dom.security true).p B.sec F.sec_BOOT_STEP 1
  if o.lifecycle = 2 then (d.domStart Dom.mmp).bootFail 0x0905
  else if !entropyOk then
    let f := d.fresh  -- which test failed is free
    (((f.2.inc B.sec F.sec_ENTROPY_FAIL_CNT).secEvent 0x0909 (dtl [(1, f.1 % 256)])).domStart Dom.mmp).bootFail 0x0909
  else
    let d := d.pb B.sec F.sec_DRBG_OK true
    let x := d.draw32
    let d := ({ x.2 with sec := { x.2.sec with bootId := x.1 } }.drawKeys 0).domStart Dom.mmp
    let d := { d with ram := Tab.clear d.ram (B.staging 0) (B.staging 2)
                      ramErr := Tab.clear d.ramErr (B.staging 0 / 32) (B.staging 2 / 32) }
    (d.cpState 1).bootRecord

/-- Step 2: spine, region infrastructure and vault interfaces on; lanes trained; INIT started. -/
def Dev.boot2 (d : Dev) : Dev :=
  let d := (d.domStart Dom.spine).bootStep 2
  let d := (List.range 8).foldl (fun d r => d.domStart (Dom.region r)) d
  (List.range 8).foldl (fun d v => ((d.domStart (Dom.vault v)).vaultReady v).initStart v) d

/-- Step 3: the firmware image of either set checked, the chosen one loaded and measured, the management cores
started. -/
def Dev.boot3 (d : Dev) (o : Otp) : Dev × Option Nat :=
  let d := d.bootStep 3
  match d.bootSet o with
  | none => (d.bootFail (imgCause o 1 (d.image 0 1)), none)
  | some s =>
    let b := d.image s 1
    let d := (d.p B.sec F.sec_BOOT_SET s).measure 0 (Crypto.sha256 (Img.payload b))
    let d := { d with sec := { d.sec with fwSvn := Img.svn b, fwVersion := Img.version b, fwRoot := Img.root b } }
    ((d.domStart Dom.mgmt), some s)

/-- Step 4: the Rime image and the microprogram; every cluster on, each region measured; every core loaded. -/
def Dev.boot4 (d : Dev) (o : Otp) (set : Nat) (sweeps : List Nat) : Dev :=
  let d := d.bootStep 4
  match d.pickImage o set 2 with
  | .inr cause => d.bootFail cause
  | .inl rime =>
    let d := d.measure 1 (Crypto.sha256 rime)
    match d.pickImage o set 3 with
    | .inr cause => d.bootFail cause
    | .inl u =>
      let d := d.measure 2 (Crypto.sha256 u)
      let d := (List.range 32).foldl (fun d c => d.bootCluster c (sweeps.getD (c / 4) 0)) d
      (List.range 512).foldl (fun d n => d.loadUcode n (ucodeWords u)) d

/-- Step 5: the dictionary store loaded and measured; KEKs and management keys. The isolation registers, sync objects
and mailboxes hold what firmware writes afterwards. -/
def Dev.boot5 (d : Dev) (o : Otp) : Dev :=
  let d := d.bootStep 5
  let d := match d.flash.storeCurrent with
    | some c => ({ d with pers := c.2.vals, dict := { d.dict with inForce := c.2.vals, storeGen := c.2.gen } }).measure 3
        (Crypto.sha256 (Config.storeImage c.2.gen c.2.vals))
    | none => ({ d with pers := [], dict := { d.dict with inForce := [], storeState := 4 } }).measure 3 (zeros 32)
  (d.thermFromDict o).keysAtBoot.lifeFromLog

/-- Step 7: the service step of R386, host queues, event rings, Rime's registers. -/
def Dev.boot7 (d : Dev) (o : Otp) : Dev :=
  let d := d.bootStep 7
  let d := (List.range 32).foldl (fun d q => d.queueFromDict o q) d
  let d := ((d.ringFromDict o 0).ringFromDict o 1).rimeFromDict o
  ((d.canStart o 0).canStart o 1).mirrorStart

/-- BOOT_CHAIN: from the release of reset to CP_STATE 2, or to the step that fails (R421, R422). `images` are written to
the flash before, where the sender gives any; `sweeps` are the Creep sweep steps that pass in each region. -/
def bootChain (d : Dev) (o : Otp) (images : Option (List (Nat × Bytes))) (entropyOk flashOk : Bool)
  (sweeps : List Nat) :
    Dev × Otp :=
  let d := match images with
    | some l => { d with flash := { d.flash with images := l.foldl (fun t (x : Nat × Bytes) => t.put x.1 x.2) [] } }
    | none => d
  if d.pcc.poreset || !d.domOn Dom.boot || d.g B.sec F.sec_BOOT_STEP != 0 || d.gb B.sec F.sec_BOOT_CAUSE then (d, o)
  else
    let d := d.boot1 o entropyOk
    if d.gb B.sec F.sec_BOOT_CAUSE then (d, o)
    else
      let r := d.boot2.boot3 o
      match r.2 with
      | none => (r.1, o)
      | some set =>
        let d := r.1.boot4 o set sweeps
        if d.gb B.sec F.sec_BOOT_CAUSE then (d, o)
        else
          let r := idReserve ((d.boot5 o).bootStep 6) o flashOk
          (((r.1.boot7 r.2).bootStep 8).cpState 2, r.2)

/-! ### Resets (R459, R460, R464, R468, R469) -/

/-- What every loss of power or assertion of PORESET_N leaves: the flash, without the copy of a store that ran, and the
model's own counters. The device stays in cold reset. -/
def Dev.coldState (d : Dev) : Dev :=
  let lost := match d.dict.store, d.flash.storeCurrent with
    | some _, some c => d.flash.stores.del (1 - c.1)
    | some _, none => []
    | none, _ => d.flash.stores
  let e : Dev := { flash := { d.flash with stores := lost }, keyDraws := d.keyDraws, serial := d.serial
                   pcc := { poreset := true } }
  e.p B.pcc F.pcc_PWR_ON (2 ^ 63)

/-- PORESET_N_ASSERT (R469). -/
def Dev.poresetAssert (d : Dev) : Dev := d.coldState

/-- POWER_LOSS (R460): the rails are gone, so the device is in cold reset when they come back. -/
def Dev.powerLoss (d : Dev) : Dev := d.coldState

/-- VDD_AON_POR (R468): VDD_AON below 0.68 V acts as PORESET_N asserted. -/
def Dev.aonPor (d : Dev) : Dev := d.coldState

/-- PORESET_N_RELEASE (R464): the always-on block switches on the Rime and boot/config domains; the persistent entries
and the package ID take force (R19, R361), the thermal thresholds are the grade's (R2). -/
def Dev.poresetRelease (d : Dev) (o : Otp) : Dev :=
  if !d.pcc.poreset then d
  else
    let d := { d with pcc := { d.pcc with poreset := false }, pers := d.storedValues }
    let d := { d with dict := { d.dict with inForce := d.pers }, pkgId := leNat (d.persV o 0x1000 3) % 64 }
    let d := d.p B.pcc F.pcc_PWR_ON 0xD000000000000000
    if o.gradeS then (d.p B.pcc F.pcc_WARN_C 0x5F).p B.pcc F.pcc_THROTTLE_C 0x64 else d

/-- The registers of the management block that a warm reset keeps: the Varve counter's (R377–R379). -/
def warmKept : List Fld := [F.mgmt_RATE_ADJ, F.mgmt_STEPPED, F.mgmt_STEP_BEFORE, F.mgmt_STEP_AFTER]

/-- WARM_RESET, requested through the management cluster (R459): the always-on domain keeps its state; every other one
returns to its cold-reset state; Rime restarts under R403; the DRAM keeps its lines, whose keys are gone. -/
def Dev.warmReset (d : Dev) : Dev :=
  if !d.mgmtRuns then d
  else
    let lo := B.pcc * 8
    let keep := d.regs.filter (fun (e : Nat × Nat) => (decide (lo ≤ e.1) && decide (e.1 < lo + 0x80000)) ||
      warmKept.any (fun fld => fld.key B.mgmt 0 == e.1))
    let fence := (d.fence.map (fun (x : Nat × Nat) => (x.1, if bit x.2 3 then 8 else 0))).filter (fun x => x.2 != 0)
    let e : Dev := { regs := keep, dram := d.dram, varve := d.varve, varveFrac := d.varveFrac, flash := d.flash
                     serial := d.serial, pkgId := d.pkgId, keyDraws := d.keyDraws, fence := fence
                     pers := d.storedValues
                     vaults := d.vaults.map (fun (x : Nat × Vault) => (x.1,
                       { zeroed := x.2.zeroed, selfRefresh := true }))
                     pcc := { d.pcc with measured := 0, meas := [], trans := none, logQ := [] } }
    let e : Dev := { e with dict := { e.dict with inForce := e.pers, syncState := d.dict.syncState, lastSync := d.dict.lastSync } }
    let e : Dev := { e with dict := { e.dict with syncState := e.syncAfterWarm } }
    let e := if e.timeSource = 0 then e.p B.mgmt F.mgmt_RATE_ADJ 0 else e
    let e := (List.range 8).foldl (fun (e : Dev) (r : Nat) => e.pb B.pcc F.pcc_MEAS_BUSY false r) e
    let e := (e.pb B.pcc F.pcc_PWR_BUSY false).p B.pcc F.pcc_PWR_ON 0xD000000000000000
    ((List.range 16).foldl (fun (e : Dev) (c : Nat) => e.drawKeys c) e).fenceDom Dom.rime 4

/-! ### Moraine's start (R203, R206) -/

/-- The table descriptor that the dictionary holds for table `t`. -/
def Dev.tableFromDict (d : Dev) (t : Nat) : Dev :=
  let v := fun (s n : Nat) => d.dict.inForce.getD ((0x2500 + t) * 256 + s) (zeros n)
  let peers := v 4 64
  let d := (d.tableWrite t 4 (leNat (v 2 4))).tableWrite t 0x1C (leNat (v 3 2))
  let d := (List.range 16).foldl (fun (d : Dev) (i : Nat) => d.tableWrite t (0x40 + 4 * i) (fieldN peers (4 * i) 4)) d
  d.tableWrite t 0 (leNat (v 1 4))

/-- MORAINE_READY: Moraine accepts descriptors, and firmware creates the tables the dictionary holds. -/
def Dev.moraineUp (d : Dev) : Dev :=
  if d.domUp Dom.moraine && !d.gb B.moraine F.moraine_READY then
    let d := d.moraineReady
    ((List.range 64).filter (fun t => (List.range 5).any (fun s =>
      (d.dict.inForce.get? ((0x2500 + t) * 256 + s)).isSome))).foldl (fun d t => d.tableFromDict t) d
  else d

end Sys2Proof.Machine
end

