-- ==== Sys2Proof/Machine/Mmp.lean ====
section
/-!
DEFINITION. The host side of an MMP channel (R307–R317, R324, R325): LPDDR5X commands, the channel address map, the
control page, and the answers of Table 11.8.
Choices of the model: log entries 62, 106, 107, 109, 110, 111, 112, 113, 114, 115, 169, 181, 211.
-/

namespace Sys2Proof.Machine

/-! ### Answers of Table 11.8 -/

/-- A protocol violation: counted, and MMP_PROTO with the command and bank. -/
def Dev.mmpProto (d : Dev) (h cmd bank : Nat) : Dev :=
  (d.inc B.mmp F.mmp_PROTO_ERR_CNT h).eventLim 0x10 h 0x0B10 (dtl [(1, h), (1, Config.mmpCommand cmd % 256), (1,
    bank)])

/-- A command spaced below the standard's minimum is counted and executed as if correctly spaced. -/
def Dev.mmpEarly (d : Dev) (h cmd bank : Nat) (early : Bool) : Dev := if early then d.mmpProto h cmd bank else d

/-- A write into dead space or an unlisted control-page offset. Its 30-bit address takes 4 bytes of the detail, for which
R56 names no kind (DESIGN CHOICE, log entry 181). -/
def Dev.mmpDeadWr (d : Dev) (h ca : Nat) : Dev :=
  (d.inc B.mmp F.mmp_DEAD_WR_CNT h).eventLim 0x10 h 0x0B13 (dtl [(1, h), (4, ca)])

/-- A read of dead space or of an unlisted control-page offset. -/
def Dev.mmpDeadRd (d : Dev) (h : Nat) : Dev := d.inc B.mmp F.mmp_DEAD_RD_CNT h

/-- What the channel last drove. -/
def Dev.mmpOut (d : Dev) (h : Nat) (x : Option Bytes) : Dev := d.setChan h (fun c => { c with out := x })

/-! ### Banks (R312) -/

/-- ACT: the row is opened; over an open row it is a protocol violation and the new row is opened. -/
def Dev.mmpAct (d : Dev) (h bank row : Nat) (early : Bool) : Dev :=
  if !d.chTakes h || decide (15 < bank) || decide (32767 < row) then d
  else
    let d := d.mmpEarly h 0 bank early
    let d := if ((d.chan h).rows.get? bank).isSome then d.mmpProto h 0 bank else d
    d.setChan h (fun c => { c with rows := c.rows.put bank row })

/-- PRE of one bank or of all. -/
def Dev.mmpPre (d : Dev) (h bank : Nat) (all early : Bool) : Dev :=
  if !d.chTakes h || decide (15 < bank) then d
  else (d.mmpEarly h 1 bank early).setChan h (fun c => { c with rows := if all then [] else c.rows.del bank })

/-- The channel address of a burst: row, bank, and the page byte at which a burst of `n` bytes that holds the column
begins (R312). -/
def chanAddr (row bank col n : Nat) : Nat := row * 2 ^ 15 + bank * 2 ^ 11 + col * 2 % 2048 / n * n

/-! ### The control page (Table 11.4, Table 13.7) -/

/-- The header. EVR_LOG2 reads 0 where the ring is disabled. -/
def Dev.cpHeader (d : Dev) (h : Nat) : Bytes :=
  let c := d.chan h
  record 64 [(0, natLE 4 0x5041434D), (4, [1, byte h, 16, byte c.cpState]), (8, natLE 4 c.heartbeat),
    (0xC, natLE 4 (d.cpPoison.getD h 0)), (0x10, natLE 4 c.evrOff), (0x14, [byte c.evrLog2])]

/-- The status of queue `q`. -/
def Dev.cpQueue (d : Dev) (q : Nat) : Bytes :=
  let g := fun (x : Fld) => d.g B.mmp x q
  record 64 [(0, [byte (g F.mmp_HQ_EN), byte (g F.mmp_HQ_CTX), byte (g F.mmp_SQ_LOG2), byte (g F.mmp_CQ_LOG2)]),
    (4, natLE 4 (g F.mmp_SQ_BASE)), (8, natLE 4 (g F.mmp_CQ_BASE)), (0xC, natLE 4 (g F.mmp_SQ_CONS)),
    (0x10, natLE 4 (g F.mmp_CQ_PROD))]

/-- The header of the dictionary mirror. -/
def Dev.mirHeader (d : Dev) (h : Nat) : Bytes :=
  let s := d.dict.snaps.getD h {}
  record 64 [(0, natLE 4 0x4D4E4B4E), (4, natLE 4 s.gen), (8, natLE 4 s.recs.length),
    (0xC, [byte (d.g B.dictm F.dictm_SNAP_PERIOD_MS), byte (b2n s.trunc)])]

/-- An area of the control page. -/
inductive CpArea where
  | header | doorbell (i : Nat) | evrAck | queue (i : Nat) | evrProd | mbx (m : Nat)
  | mirHeader | reqSeq (j : Nat) | request (j : Nat) | rspSeq (j : Nat) | response (j : Nat) | snapshot
  deriving DecidableEq, Repr

/-- The area that holds an offset, and the offset in it; none outside every area. -/
def cpArea (o : Nat) : Option (CpArea × Nat) :=
  if o < 0x40 then some (.header, o)
  else if o < 0x1000 then none
  else if o < 0x1200 then some (.doorbell ((o - 0x1000) / 0x20), o % 0x20)
  else if o < 0x1220 then some (.evrAck, o % 0x20)
  else if o < 0x2000 then none
  else if o < 0x2400 then some (.queue ((o - 0x2000) / 0x40), o % 0x40)
  else if o < 0x2440 then some (.evrProd, o % 0x40)
  else if o < 0x10000 then none
  else if o < 0x20000 then some (.mbx ((o - 0x10000) / 0x400), o % 0x400)
  else if o < 0x80000 then none
  else if o < 0x80040 then some (.mirHeader, o % 0x40)
  else if o < 0x81000 then none
  else if o < 0x85000 then
    let j := (o - 0x81000) / 0x1000
    let p := o % 0x1000
    if p < 0x40 then some (.reqSeq j, p)
    else if p < 0x800 then some (.request j, p - 0x40)
    else if p < 0x840 then some (.rspSeq j, p - 0x800)
    else some (.response j, p - 0x840)
  else if o < 0x90000 then none
  else some (.snapshot, o - 0x90000)

/-- A host transaction that leaves the channel for the fabric (R317). -/
def Dev.hostReq (d : Dev) (h pa : Nat) (wr : Bool) (data : Bytes) : Req :=
  { sid := 0x248 + h, ctx := d.g B.mmp F.mmp_HOST_CTX h, secure := d.gb B.mmp F.mmp_HOST_SECURE h, pa := pa, wr := wr,
    size := data.length, data := data }

/-- A burst read of a mailbox: fields and SLOT as Table 10.4, S fields zero for a non-secure host, SEND handled under
R13. -/
def Dev.mbxBurst (d : Dev) (fu : Otp) (h m o n : Nat) : Dev × Bytes :=
  let q := d.hostReq h (B.mbx m + o) false (zeros n)
  let b := Blk.mbx m
  if !d.domUp Dom.mgmt || d.domFenced Dom.spine then ((d.decodeFail q).1, zeros n)
  else if (b.window o).isSome then (d.dinc 0x7001 0x01, zeros n)
  else if (b.words o).isSome then
    if !q.secure && d.blkSecure b then (d.secWorld q, zeros n)
    else (d, (List.range (n / 4)).flatMap (fun i => natLE 4 (d.wordRead b (o + 4 * i))))
  else
    let hs := b.hits o n
    let open_ := hs.filter (fun (x : Fld × Nat) => q.secure || !d.fldSecure b x.1)
    (if open_.length < hs.length then d.secWorld q else d, natLE n (open_.map (d.fldBits fu b o n)).sum)

/-- A 32-byte run of an area that is plain data to the host; the mirror reads zero while the management domain does not
answer. -/
def Dev.cpBytes (d : Dev) (h : Nat) (a : CpArea) (p : Nat) : Bytes :=
  let run := fun (b : Bytes) => padTo 32 ((b.drop p).take 32)
  let mir := fun (b : Bytes) => if d.domUp Dom.mgmt then run b else zeros 32
  match a with
  | .header => run (d.cpHeader h)
  | .queue i => run (d.cpQueue (16 * h + i))
  | .evrProd => run (natLE 4 (d.chan h).evrProd)
  | .mirHeader => mir (d.mirHeader h)
  | .reqSeq j => mir (natLE 4 (d.mirSlot (4 * h + j)).reqSeq)
  | .request j => mir (d.mirSlot (4 * h + j)).req
  | .rspSeq j => mir (natLE 4 (d.mirSlot (4 * h + j)).rspSeq)
  | .response j => mir (d.mirSlot (4 * h + j)).rsp
  | .snapshot =>
    if d.domUp Dom.mgmt then
      padTo 32 ((((d.dict.snaps.getD h {}).recs.drop (p / 16)).take 2).flatten)
    else zeros 32
  | .doorbell _ | .evrAck | .mbx _ => zeros 32

/-- One 32-byte unit of the control page as read; the flag says that it lies outside every area. -/
def Dev.cpUnit (d : Dev) (h o : Nat) : Bytes × Bool :=
  match cpArea o with
  | some (a, p) => (d.cpBytes h a p, false)
  | none => (zeros 32, true)

/-- A read burst of the control page (R317). -/
def Dev.cpRead (d : Dev) (fu : Otp) (h o n : Nat) : Dev × Bytes :=
  match cpArea o with
  | some (.mbx m, p) => d.mbxBurst fu h m p n
  | _ =>
    let us := (List.range (n / 32)).map (fun i => d.cpUnit h (o + 32 * i))
    (if us.any (fun u => u.2) then d.mmpDeadRd h else d, us.flatMap (fun u => u.1))

/-- A field of four bytes at `p` of a unit, where all of them are enabled. -/
def unitField (data : Bytes) (mask : List Bool) (p : Nat) : Option Nat :=
  if ((mask.drop p).take 4).all (fun b => b) && decide (p + 4 ≤ mask.length) then some (fieldN data p 4) else none

/-- Offset and width of the one naturally aligned word, or dword, whose bytes a mask enables and no other. -/
def maskWord (mask : List Bool) : Option (Nat × Nat) :=
  let only := fun (o n : Nat) => mask.zipIdx.all (fun x => x.1 == (decide (o ≤ x.2) && decide (x.2 < o + n)))
  match (List.range (mask.length / 4)).find? (fun i => only (4 * i) 4) with
  | some i => some (4 * i, 4)
  | none => ((List.range (mask.length / 8)).find? (fun i => only (8 * i) 8)).map (fun i => (8 * i, 8))

/-- A write burst into a mailbox (R317): one whole BL32 write to SEND; a BL16 write to SEND is handled under R13; else
one register named by the mask; any other pattern is dropped and counted. -/
def Dev.mbxBurstWrite (d : Dev) (fu : Otp) (h m o : Nat) (data : Bytes) (mask : List Bool) : Dev :=
  let b := Blk.mbx m
  if (b.window o).isSome then
    if data.length = 64 ∧ mask.all (fun x => x) then (csrAccess d fu (d.hostReq h (B.mbx m + o) true data)).1
    else d.dinc 0x7001 0x01
  else match maskWord mask with
    | some (p, n) =>
      if n = 4 ∨ (b.hits (o + p) 8 ≠ [] ∧ (b.hits (o + p) 8).all (fun (x : Fld × Nat) => x.1.dw == 8)) then
        (csrAccess d fu (d.hostReq h (B.mbx m + o + p) true ((data.drop p).take n))).1
      else d.inc B.mmp F.mmp_DEAD_WR_CNT h
    | none => d.inc B.mmp F.mmp_DEAD_WR_CNT h

/-- The enabled bytes of a unit written into a slot's request area. -/
def Dev.mirBurst (d : Dev) (k p : Nat) (data : Bytes) (mask : List Bool) : Dev :=
  (data.zip mask).zipIdx.foldl (fun d x =>
    if x.1.2 && decide (p + x.2 < 1984) then d.mirWrite k (p + x.2) [x.1.1] else d) d

/-- One 32-byte unit of the control page written: doorbells, EVR_ACK and mirror requests act on the fields wholly
enabled; what the device writes stays as it is. -/
def Dev.cpUnitWrite (d : Dev) (h : Nat) (a : CpArea) (p : Nat) (data : Bytes) (mask : List Bool) : Dev :=
  let fld := fun (d : Dev) (o : Nat) (f : Dev → Nat → Dev) =>
    match unitField data mask o with
    | some v => f d v
    | none => d
  match a with
  | .doorbell i =>
    let d := fld d 0 (fun d v => d.sqProd (16 * h + i) v)
    fld d 4 (fun d v => d.cqAck (16 * h + i) v)
  | .evrAck => fld d 0 (fun d v => d.evrAck h v)
  | .reqSeq j =>
    if p = 0 ∧ d.domUp Dom.mgmt then
      fld d 0 (fun d v => d.reqSeq (4 * h + j) v (d.gb B.mmp F.mmp_HOST_SECURE h))
    else d
  | .request j => if d.domUp Dom.mgmt then d.mirBurst (4 * h + j) p data mask else d
  | .header | .queue _ | .evrProd | .mbx _ | .mirHeader | .rspSeq _ | .response _ | .snapshot => d

/-- A write burst into the control page (R317); the units outside every area count once. -/
def Dev.cpWrite (d : Dev) (fu : Otp) (h o : Nat) (data : Bytes) (mask : List Bool) : Dev :=
  match cpArea o with
  | some (.mbx m, p) => d.mbxBurstWrite fu h m p data mask
  | _ =>
    let us := List.range (data.length / 32)
    let d := us.foldl (fun d i =>
      match cpArea (o + 32 * i) with
      | some (a, p) => d.cpUnitWrite h a p ((data.drop (32 * i)).take 32) ((mask.drop (32 * i)).take 32)
      | none => d) d
    if us.any (fun i => (cpArea (o + 32 * i)).isNone) then d.mmpDeadWr h (0x4000000 + o) else d

/-! ### Staging as the host reaches it (R316) -/

/-- A sector as the host reads it: one symbol corrected and counted; an uncorrectable one as stored, counted and
raised, with no context, as a burst carries none. The flag tells poison, which the host does not see. -/
def Dev.hostSector (d : Dev) (h off : Nat) : Dev × Bytes × Bool :=
  let a := B.staging h + off
  let r := d.sramSector a
  match r.2 with
  | .ok => (d, r.1, false)
  | .corrected _ _ => (d.inc B.mmp F.mmp_SRAM_CE_CNT h, r.1, false)
  | .marker => (d, Ecc.apply (d.sramErr a) r.1, true)
  | .bad => (d.stagingUe h off ⟨0x248 + h, 0, false⟩, Ecc.apply (d.sramErr a) r.1, true)

/-- A read burst of staging. -/
def Dev.hostRead (d : Dev) (h off n : Nat) : Dev × Bytes :=
  (List.range (n / 32)).foldl (fun (x : Dev × Bytes) i =>
    let s := x.1.hostSector h (off + 32 * i)
    (s.1, x.2 ++ s.2.1)) (d, [])

/-- The enabled bytes of a sector that the host reads as `x` replaced; a sector that delivers poison keeps its fault. -/
def maskStore (x : Dev × Bytes × Bool) (a : Nat) (data : Bytes) (mask : List Bool) : Dev :=
  let new := (List.zip mask (List.zip data x.2.1)).map (fun y => if y.1 then y.2.1 else y.2.2)
  if x.2.2 then x.1.sramKeep a new else x.1.sramStore a new false

/-- One sector of a write burst into staging: a whole sector clears its fault; one with masked bytes is merged. -/
def Dev.hostSectorWrite (d : Dev) (h off : Nat) (data : Bytes) (mask : List Bool) : Dev :=
  if mask.all (fun b => b) then d.sramStore (B.staging h + off) data false
  else if mask.any (fun b => b) then maskStore (d.hostSector h off) (B.staging h + off) data mask
  else d

/-- A write burst into staging. -/
def Dev.hostWrite (d : Dev) (h off : Nat) (data : Bytes) (mask : List Bool) : Dev :=
  (List.range (data.length / 32)).foldl (fun d i =>
    d.hostSectorWrite h (off + 32 * i) ((data.drop (32 * i)).take 32) ((mask.drop (32 * i)).take 32)) d

/-! ### Bursts -/

/-- RL × tCK of the active set point lies below 15.0 ns (R310): tCK is 8,000 / rate ns. -/
def Dev.rlShort (d : Dev) (h : Nat) : Bool := decide (d.g B.mmp F.mmp_RL h * 8000 < 15 * d.g B.mmp F.mmp_RATE h)

/-- RD: a burst of 32 or 64 bytes at the open row of a bank (R310, R313, R316, Table 11.8). Before training has ended
what it drives is a free value. -/
def Dev.mmpRd (d : Dev) (fu : Otp) (h bank col : Nat) (bl32 early : Bool) : Dev :=
  let n := if bl32 then 64 else 32
  if !d.chTakes h || decide (15 < bank) then d
  else if d.gb B.mmp F.mmp_IN_SR h then (d.mmpProto h 2 bank).mmpOut h none
  else
    let d := d.mmpEarly h 2 bank early
    if !d.gb B.mmp F.mmp_TRAINED h then
      let r := d.freeBytes n
      r.2.mmpOut h (some r.1)
    else
      let short := d.rlShort h
      let d := if short then (d.inc B.mmp F.mmp_RL_SHORT_CNT h).eventLim 0x10 h 0x0B11
            (dtl [(1, h), (1, d.g B.mmp F.mmp_RL h), (1, d.g B.mmp F.mmp_FSP h)])
          else d
      match (d.chan h).rows.get? bank with
      | none => (d.mmpProto h 2 bank).mmpOut h (some (zeros n))
      | some row =>
        let ca := chanAddr row bank col n
        if 0x4100000 ≤ ca then (d.mmpDeadRd h).mmpOut h (some (zeros n))
        else if short then
          let gap := decide (0x4000000 ≤ ca) && (List.range (n / 32)).any (fun i => (cpArea (ca - 0x4000000 + 32 * i)).isNone)
          (if gap then d.mmpDeadRd h else d).mmpOut h (some (zeros n))
        else if 0x4000000 ≤ ca then
          let r := d.cpRead fu h (ca - 0x4000000) n
          r.1.mmpOut h (some r.2)
        else
          let r := d.hostRead h ca n
          r.1.mmpOut h (some r.2)

/-- The data of a write burst reaches its address. -/
def Dev.mmpStore (d : Dev) (fu : Otp) (h ca : Nat) (data : Bytes) (mask : List Bool) : Dev :=
  if 0x4100000 ≤ ca then d.mmpDeadWr h ca
  else if 0x4000000 ≤ ca then d.cpWrite fu h (ca - 0x4000000) data mask
  else d.hostWrite h ca data mask

/-- A write burst with link ECC: 0 no error, 1 corrected, 2 uncorrectable, as found where the host has enabled it
(Table 11.8). Before training has ended nothing is written (R326). -/
def Dev.mmpBurst (d : Dev) (fu : Otp) (h cmd bank col : Nat) (data : Bytes) (mask : List Bool) (lecc : Nat)
    (early : Bool) : Dev :=
  if !d.chTakes h || decide (15 < bank) then d
  else if d.gb B.mmp F.mmp_IN_SR h then d.mmpProto h cmd bank
  else
    let d := d.mmpEarly h cmd bank early
    if !d.gb B.mmp F.mmp_TRAINED h then d
    else match (d.chan h).rows.get? bank with
      | none => d.mmpProto h cmd bank
      | some row =>
        let ca := chanAddr row bank col data.length
        let on := d.gb B.mmp F.mmp_LECC_WR h
        if on && lecc == 2 then
          (d.inc B.mmp F.mmp_LECC_UE_CNT h).eventLim 0x10 h 0x0B12 (dtl [(1, h), (4, ca)])
        else (if on && lecc == 1 then d.inc B.mmp F.mmp_LECC_CE_CNT h else d).mmpStore fu h ca data mask

/-- WR: a burst of 32 or 64 bytes. -/
def Dev.mmpWr (d : Dev) (fu : Otp) (h bank col : Nat) (bl32 : Bool) (data : Bytes) (lecc : Nat)
  (early : Bool) : Dev :=
  let n := if bl32 then 64 else 32
  d.mmpBurst fu h 3 bank col (padTo n data) (List.replicate n true) lecc early

/-- MASKED_WRITE: a burst of 32 bytes of which a mask bit enables each (Table 11.1). -/
def Dev.mmpMwr (d : Dev) (fu : Otp) (h bank col : Nat) (data : Bytes) (mask lecc : Nat) (early : Bool) : Dev :=
  d.mmpBurst fu h 4 bank col (padTo 32 data) ((List.range 32).map (fun i => bit mask i)) lecc early

/-! ### Mode registers (R308–R310) -/

/-- The registers follow the active set point; an invalid one halts the channel, a valid one ends HALT (Table 11.8). A
set point whose data rate the host has not set is neither. -/
def Dev.mmpFollow (d : Dev) (h : Nat) : Dev :=
  let c := d.chan h
  let f := d.g B.mmp F.mmp_FSP h
  let d := d.p B.mmp F.mmp_RL (c.rls.getD f 0) h
  match c.rates.get? f with
  | none => d.p B.mmp F.mmp_RATE 0 h
  | some (rate, wck4) =>
    let d := d.p B.mmp F.mmp_RATE rate h
    if 1600 ≤ rate ∧ rate ≤ 8533 ∧ wck4 then d.pb B.mmp F.mmp_HALT false h
    else if d.gb B.mmp F.mmp_HALT h then d
    else ((d.pb B.mmp F.mmp_HALT true h).inc B.mmp F.mmp_PROTO_ERR_CNT h).eventLim 0x10 h 0x0B15
      (dtl [(1, h), (1, Config.mmpCause (b2n (!wck4)) % 256)])

/-- The read-only mode registers of R309: vendor (MR5), revision (MR6), and density, width and type (MR8). -/
def Dev.modeFixed (d : Dev) (o : Otp) (reg : Nat) : Option Nat :=
  if reg = 5 then some (leNat (d.persV o 0x1020 1))
  else if reg = 6 then some (leNat (d.persV o 0x1020 2))
  else if reg = 8 then some 0x11
  else none

/-- A mode register's value kept. -/
def Dev.modeSet (d : Dev) (h reg v : Nat) : Dev := d.setChan h (fun c => { c with mrs := c.mrs.put reg (v % 256) })

/-- MRW: the register takes its value and what it programs takes effect; unsupported features stay zero; a read-only or
undefined register ignores it and is counted. -/
def Dev.mmpMrw (d : Dev) (h reg v : Nat) (e : MrEffect) (early : Bool) : Dev :=
  if !d.chServes h then d
  else
    let d := d.mmpEarly h 8 0 early
    if reg = 5 ∨ reg = 6 ∨ reg = 8 then d.inc B.mmp F.mmp_PROTO_ERR_CNT h
    else match e with
      | .readOnly => d.inc B.mmp F.mmp_PROTO_ERR_CNT h
      | .plain => d.modeSet h reg v
      | .unsupported mask => d.modeSet h reg (v &&& (mask % 256 ^^^ 255))
      | .latency f rl =>
        let d := d.modeSet h reg v
        if 2 < f then d else (d.setChan h (fun c => { c with rls := c.rls.put f (rl % 256) })).mmpFollow h
      | .clock f rate wck4 =>
        let d := d.modeSet h reg v
        if 2 < f then d
        else (d.setChan h (fun c => { c with rates := c.rates.put f (rate % 65536, wck4) })).mmpFollow h
      | .activate f =>
        let d := d.modeSet h reg v
        if 2 < f then d else (d.p B.mmp F.mmp_FSP f h).mmpFollow h
      | .linkEcc rd wr => ((d.modeSet h reg v).pb B.mmp F.mmp_LECC_RD rd h).pb B.mmp F.mmp_LECC_WR wr h

/-- MRR: the channel drives the register's value. -/
def Dev.mmpMrr (d : Dev) (o : Otp) (h reg : Nat) (early : Bool) : Dev :=
  if !d.chServes h then d
  else
    let d := d.mmpEarly h 9 0 early
    let v := match d.modeFixed o reg with
      | some v => v
      | none => (d.chan h).mrs.getD reg (Config.modeDefault reg)
    d.mmpOut h (some [byte v])

/-! ### Refresh, low power, training, reset (R308, R311, R325) -/

/-- REF: a refresh, RFM or per-bank refresh of a bank changes nothing and is counted. -/
def Dev.mmpRef (d : Dev) (h bank : Nat) (early : Bool) : Dev :=
  if !d.chTakes h then d else (d.mmpEarly h 5 bank early).inc B.mmp F.mmp_REF_CNT h

/-- SELF_REFRESH_ENTRY: self-refresh, power-down or deep-sleep begins. -/
def Dev.mmpSre (d : Dev) (h : Nat) (early : Bool) : Dev :=
  if !d.chTakes h then d else (d.mmpEarly h 6 0 early).pb B.mmp F.mmp_IN_SR true h

/-- SELF_REFRESH_EXIT. -/
def Dev.mmpSrx (d : Dev) (h : Nat) (early : Bool) : Dev :=
  if !d.chTakes h then d else (d.mmpEarly h 7 0 early).pb B.mmp F.mmp_IN_SR false h

/-- TRAINING: a training command returns the standard pattern; with the last one the host's training is completed. -/
def Dev.mmpTrain (d : Dev) (h kind : Nat) (last early : Bool) : Dev :=
  if !d.chTakes h then d
  else
    let d := (d.mmpEarly h 10 0 early).mmpOut h (some (Config.trainingPattern kind (d.chan h).mrs))
    if last then d.pb B.mmp F.mmp_TRAINED true h else d

/-- UNSUPPORTED_COMMAND: ignored and counted (R308). -/
def Dev.mmpUnsupported (d : Dev) (h : Nat) : Dev := if !d.chTakes h then d else d.inc B.mmp F.mmp_PROTO_ERR_CNT h

/-- HOST_RESET (R325): mode registers to their defaults, banks idle, HALT cleared, the event raised; staging, control
page and host queues stay. -/
def Dev.mmpReset (d : Dev) (h : Nat) : Dev :=
  if !d.chServes h then d
  else
    let d := d.setChan h (fun c => { c with rows := [], mrs := [], rls := [], rates := [], out := none })
    let d := [F.mmp_HALT, F.mmp_TRAINED, F.mmp_FSP, F.mmp_RL, F.mmp_LECC_RD, F.mmp_LECC_WR, F.mmp_IN_SR,
      F.mmp_RATE].foldl (fun (d : Dev) (x : Fld) => d.p B.mmp x 0 h) d
    d.eventLim 0x10 h 0x0B16 (dtl [(1, h)])

end Sys2Proof.Machine
end

