-- ==== Sys2Proof/Machine/CmdOps.lean ====
section
/-!
DEFINITION. What every command's meaning is written with: the outcome that keeps the queue, and the checks a register
write passes before its effect (R11, R14, R22, R277).
Choices of the model: log entries 13, 60, 82, 170, 171, 190, 191, 209.
-/

namespace Sys2Proof.Machine

/-- The outcome of a command. -/
abbrev Out := Host.Outcome State Fault Refusal

/-- A command that leaves the fuses as they are. -/
def State.done (s : State) (d : Dev) : Out := .next { s with dev := d }

/-- A command that may blow fuses. -/
def State.doneFuse (s : State) (r : Dev × Otp) : Out := .next { s with dev := r.1, otp := r.2 }

/-- Register writes that operations of this command have sent are carried out, in their order; `k` of them were on their way
before it. The number bounds them. -/
def postsGo : Nat → Nat → Dev → Otp → Dev × Otp
  | 0, k, d, fu => ({ d with csrPosts := d.csrPosts.take k }, fu)
  | n + 1, k, d, fu =>
    match d.csrPosts.drop k with
    | [] => (d, fu)
    | q :: _ =>
      let r := csrAccess { d with csrPosts := d.csrPosts.eraseIdx k } fu q
      postsGo n k r.1 r.2.1

/-- A command whose operations reach memory by address: where one of their accesses meets a vault that holds it, the whole
command waits (R250); the register writes among them take effect after it (R22). -/
def State.runOpFuse (s : State) (f : Dev → Otp → Dev × Otp) : Out :=
  let r := f s.dev s.otp
  if s.dev.anyHolds && r.1.blocked && !s.dev.blocked then .next s
  else match r.1.csrPosts.drop s.dev.csrPosts.length with
    | [] => s.doneFuse r
    | _ =>
      let p := postsGo 65536 s.dev.csrPosts.length r.1 r.2
      s.doneFuse ({ p.1 with blocked := s.dev.blocked }, p.2)

/-- The same for a command that leaves the fuses as they are. -/
def State.runOp (s : State) (f : Dev → Dev) : Out := s.runOpFuse (fun d fu => (f d, fu))

/-- A command of the links: the jobs that lost signals fail with it (R45, R293). -/
def State.runLink (s : State) (f : Dev → Dev) : Out := s.runOp (fun d => (f d).jobsEnd 256)

/-- The block's number is one the package has (Table 1.2). -/
def Blk.exists_ : Blk → Bool
  | .core n => decide (n < 512)
  | .cluster c => decide (c < 32)
  | .region r => decide (r < 8)
  | .vault v => decide (v < 8)
  | .link p => decide (p < 6)
  | .spu r => decide (r < 8)
  | .sync s => decide (s < 16384)
  | .mbx m => decide (m < 64)
  | .fe f => decide (f < 64)
  | .firn | .moraine | .sastrugi | .sec | .rime | .pcc | .mmp | .mgmt | .dictm => true

/-- The block answers a register access: its domain and the spine are up (R22). -/
abbrev Dev.answers (d : Dev) (b : Blk) : Bool := d.blkUp b

end Sys2Proof.Machine

namespace Sys2Proof

/-- A write of `n` bytes at an address by an initiator. -/
def Initiator.req (w : Initiator) (pa n : Nat) : Machine.Req :=
  { sid := w.sid, ctx := w.ctx, secure := w.secure, pa := pa, wr := true, size := n }

/-- An access by an initiator. -/
def Initiator.access (w : Initiator) (pa : Nat) (wr : Bool) (size : Nat) (data : Bytes)
  (poison : Bool) : Machine.Req :=
  { sid := w.sid, ctx := w.ctx, secure := w.secure, pa := pa, wr := wr, size := size, data := data, poison := poison }

end Sys2Proof

namespace Sys2Proof.Machine

/-- What a register write meets before its effect: no such block, or a stream that nothing carries (R24); a decode failure where the block does not answer; a
non-secure write to an S register, counted and reported. None where the write takes effect. -/
def Dev.regStop (d : Dev) (b : Blk) (o n : Nat) (sec : Bool) (who : Initiator) : Option Dev :=
  if !b.exists_ || !listedSid who.sid then some d
  else if !d.answers b then some (d.decodeFail (who.req (b.base + o) n)).1
  else if !who.secure && (sec || d.blkSecure b) then some (d.secWorld (who.req (b.base + o) n))
  else none

/-- A register write that has passed its checks takes effect. -/
def Dev.regCmd (d : Dev) (b : Blk) (o n : Nat) (sec : Bool) (who : Initiator) (f : Dev → Dev) : Dev :=
  match d.regStop b o n sec who with
  | some d' => d'
  | none => f d

/-- The same for one that may blow fuses. -/
def regCmdFuse (d : Dev) (o : Otp) (b : Blk) (off n : Nat) (sec : Bool) (who : Initiator) (f : Dev → Otp →
  Dev × Otp) :
    Dev × Otp :=
  match d.regStop b off n sec who with
  | some d' => (d', o)
  | none => f d o

/-- A write of the SUBMIT window of core `n`, which has no World (R93): where the core's cluster does not answer the
submission is refused (R33). -/
def Dev.submitCmd (d : Dev) (n : Nat) (who : Initiator) (f : Dev → Dev) : Dev :=
  if !(Blk.core n).exists_ || !listedSid who.sid then d
  else if !d.answers (.core n) then d.submitOff n (who.req (B.core n + 0x1000) 64)
  else f d

/-- A word of window `w` of a core: WIN_RANGE, WIN_CTRL, WIN_PEERS (Table 3.16). -/
def Dev.winWord (d : Dev) (n w off sid ctx v : Nat) : Dev :=
  match off with
  | 0 => d.winRange n w sid ctx v
  | 4 => d.winCtrl n w sid ctx v
  | 8 => d.winPeers n w sid ctx v
  | _ => d

/-- FUNC_DIS written with GO and OP 0 for a function, DRAIN or ABORT. -/
def Dev.funcDisableCmd (d : Dev) (fn : Nat) (abort : Bool) : Dev := d.funcDisWrite (fn + 2 ^ 8 * b2n abort + 2 ^ 31)

/-- JK_SLOT and JK_OP as a slot command writes them (Table 15.9). -/
def Dev.jkSelect (d : Dev) (op slot : Nat) : Dev := (d.p B.sec F.sec_JK_SLOT slot).p B.sec F.sec_JK_OP op

/-- VAULT_REFRESH: the refresh of a bank changes nothing that software sees (R245). -/
def Dev.vaultRefresh (d : Dev) (_v _bank : Nat) : Dev := d

end Sys2Proof.Machine
end

