-- ==== Sys2Proof/Machine/CmdCore.lean ====
section
/-!
DEFINITION. The meanings of the commands of the tile cores and the region units.
-/

namespace Sys2Proof.Machine

/-- CORE_WATCHDOG (R30): A descriptor makes no progress for 1,048,576 ARITH cycles, so it and the queue abort and the
core is fenced. -/
def execCoreWatchdog (n slot : Nat) (s : State) : Out := s.done (s.dev.watchdog n slot)

/-- SUBMIT (R94): A 64-byte write to the SUBMIT window enqueues a descriptor or is refused. -/
def execSubmit (who : Initiator) (n : Nat) (desc : Bytes) (s : State) : Out :=
  s.done (s.dev.submitCmd n who (fun d => (d.submit n who.sid who.ctx who.secure (padTo 64 desc)).1))

/-- DESC_ISSUE (R96): The head QUEUED descriptor whose wait, fence and scoreboard conditions hold issues, or is
refused at issue. -/
def execDescIssue (n : Nat) (s : State) : Out := s.done (s.dev.descIssue n)

/-- DESC_COMPLETE (R99): A descriptor ends: its writes become visible, its signal is made and its completion record is
kept. -/
def execDescComplete (n slot : Nat) (s : State) : Out := s.done (s.dev.descComplete n slot)

/-- STEAL (R132): An idle thief core takes the youngest eligible entry of a victim queue. -/
def execSteal (n : Nat) (s : State) : Out := s.done (s.dev.steal n)

/-- CPL_POP (R101): A write naming the oldest record's QSLOT removes it and frees its entry, otherwise it is counted
as a miss. -/
def execCplPop (who : Initiator) (n slot : Nat) (s : State) : Out :=
  s.done (s.dev.regCmd (.core n) 0x30 4 true who (fun d => d.cplPop n (slot % 256)))

/-- UCODE_WRITE (R115): A write to the UCODE window loads microprogram words and clears UCODE_VALID, or is refused. -/
def execUcodeWrite (who : Initiator) (n off v : Nat) (s : State) : Out :=
  s.done (s.dev.regCmd (.core n) (0x8000 + off / 4 * 4 % 0x8000) 4 true who (fun d => d.ucodeWrite n who.sid (off
    / 4 * 4 % 0x8000) v who.ctx))

/-- UCODE_COMMIT (R116): UCODE_COMMIT sets UCODE_VALID when the core is idle with an empty queue. -/
def execUcodeCommit (who : Initiator) (n : Nat) (s : State) : Out :=
  s.done (s.dev.regCmd (.core n) 0x8 4 true who (fun d => d.ucodeCommit n))

/-- FENCE_RELEASE (R30): FENCE_RELEASE takes the core out of its fence when ST_PASS is 1. -/
def execFenceRelease (who : Initiator) (n : Nat) (s : State) : Out :=
  s.done (s.dev.regCmd (.core n) 0x8 4 true who (fun d => d.fenceRelease n))

/-- BANK_CNT_CLR (R114): A write clears the core counters other than ISSUE_CNT and CPL_POP_MISS_CNT. -/
def execBankCntClr (who : Initiator) (n : Nat) (s : State) : Out :=
  s.done (s.dev.regCmd (.core n) 0x480 4 false who (fun d => d.bankCntClr n))

/-- WIN_CTRL_WRITE (R113): A write to a core window opens or closes it, or a rewrite while enabled or busy is refused.
-/
def execWinCtrlWrite (who : Initiator) (n w off v : Nat) (s : State) : Out :=
  s.done (s.dev.regCmd (.core n) (0x100 + w % 4 * 0x10 + off % 16) (if off % 16 = 8 then 8 else 4) true who (fun d
    => d.winWord n (w % 4) (off % 16) who.sid who.ctx v))

/-- WINDOW_ACCESS (R111): A peer access to a scratchpad is admitted through an open window or refused with poisoned
zeros. -/
def execWindowAccess (p : Nat) (s : State) : Out := s.runLink (fun d => d.windowAccess p)

/-- NOP (R86): A NOP descriptor only waits and signals. -/
def execNop (n slot : Nat) (s : State) : Out := s.done (s.dev.runNop n slot)

/-- DENSE_MM (R89): The array computes D = A × Bᵀ with output scaling and conversion. -/
def execDenseMm (n slot : Nat) (s : State) : Out :=
  s.done (s.dev.runEntry n slot (· == .dense) (fun d e => d.runDense n e))

/-- SPARSE_MM_NM (R121): The array multiplies by N:M-tiled weights in Serac mode. -/
def execSparseMmNm (n slot : Nat) (s : State) : Out :=
  s.done (s.dev.runEntry n slot (· == .nm) (fun d e => d.runSparse n e (some (nmForm (e.desc.param 0x38 1)))))

/-- SPARSE_MM_CSR (R123): The array multiplies by CSR-tiled weights in Serac mode. -/
def execSparseMmCsr (n slot : Nat) (s : State) : Out :=
  s.done (s.dev.runEntry n slot (· == .csr) (fun d e => d.runSparse n e none))

/-- SPARSE_SPARSE_MERGE (R125): The merge unit computes a product of two sparse operands by matching indices. -/
def execSparseSparseMerge (n slot : Nat) (s : State) : Out :=
  s.done (s.dev.runEntry n slot (· == .merge) (fun d e => d.runMerge n e))

/-- GATHER (R92): A flow engine copies indexed table rows into DST. -/
def execGather (n slot : Nat) (s : State) : Out := s.runOp (fun d => d.runGather n slot)

/-- SCATTER_ACC (R92): A flow engine adds SRC_A rows into indexed table rows, in chunks of 64 indices. -/
def execScatterAcc (n slot : Nat) (s : State) : Out := s.runOp (fun d => d.runScatter n slot)

/-- COMPRESSING_STORE (R139): SCATTER_ACC variant 0x01 stores tiles to DRAM in compressed or dense form with a
directory. -/
def execCompressingStore (n slot : Nat) (s : State) : Out := s.runOp (fun d => d.runStore n slot)

/-- ADD (R91): ELEMENTWISE adds A and B element by element. -/
def execAdd (n slot : Nat) (s : State) : Out := s.done (s.dev.runEntry n slot (· == .ew 0) (fun d e => d.runEw n e 0))

/-- SUB (R91): ELEMENTWISE subtracts B from A element by element. -/
def execSub (n slot : Nat) (s : State) : Out := s.done (s.dev.runEntry n slot (· == .ew 1) (fun d e => d.runEw n e 1))

/-- MUL (R91): ELEMENTWISE multiplies A and B element by element. -/
def execMul (n slot : Nat) (s : State) : Out := s.done (s.dev.runEntry n slot (· == .ew 2) (fun d e => d.runEw n e 2))

/-- MAX (R79): ELEMENTWISE takes the element maximum with NaN rules. -/
def execMax (n slot : Nat) (s : State) : Out := s.done (s.dev.runEntry n slot (· == .ew 3) (fun d e => d.runEw n e 3))

/-- MIN (R79): ELEMENTWISE takes the element minimum with NaN rules. -/
def execMin (n slot : Nat) (s : State) : Out := s.done (s.dev.runEntry n slot (· == .ew 4) (fun d e => d.runEw n e 4))

/-- CMPGT (R91): ELEMENTWISE writes INT8 1 where A is greater than B. -/
def execCmpgt (n slot : Nat) (s : State) : Out :=
  s.done (s.dev.runEntry n slot (· == .ew 5) (fun d e => d.runEw n e 5))

/-- CMPEQ (R91): ELEMENTWISE writes INT8 1 where A equals B. -/
def execCmpeq (n slot : Nat) (s : State) : Out :=
  s.done (s.dev.runEntry n slot (· == .ew 6) (fun d e => d.runEw n e 6))

/-- CONVERT (R91): ELEMENTWISE converts A to FMT_D. -/
def execConvert (n slot : Nat) (s : State) : Out :=
  s.done (s.dev.runEntry n slot (· == .ew 7) (fun d e => d.runEw n e 7))

/-- RELU (R91): ELEMENTWISE replaces negative values of A with zero. -/
def execRelu (n slot : Nat) (s : State) : Out :=
  s.done (s.dev.runEntry n slot (· == .ew 8) (fun d e => d.runEw n e 8))

/-- REDUCE_SUM (R91): REDUCE sums each row of A into one element. -/
def execReduceSum (n slot : Nat) (s : State) : Out :=
  s.done (s.dev.runEntry n slot (· == .reduce 0) (fun d e => d.runReduce n e 0))

/-- REDUCE_MAX (R79): REDUCE takes each row's maximum. -/
def execReduceMax (n slot : Nat) (s : State) : Out :=
  s.done (s.dev.runEntry n slot (· == .reduce 1) (fun d e => d.runReduce n e 1))

/-- REDUCE_MIN (R79): REDUCE takes each row's minimum. -/
def execReduceMin (n slot : Nat) (s : State) : Out :=
  s.done (s.dev.runEntry n slot (· == .reduce 2) (fun d e => d.runReduce n e 2))

/-- PRUNE (R136): The Ablation unit compresses dense tiles into an N:M form with a directory. -/
def execPrune (n slot : Nat) (s : State) : Out := s.done (s.dev.runPruneEntry n slot)

/-- PREDICT (R140): Spindrift in MODE 0 names the active rows of a layer and writes the mask and list. -/
def execPredict (n slot : Nat) (s : State) : Out := s.runOp (fun d => d.runPredict n slot false)

/-- PREDICT_AUDIT (R142): Spindrift in MODE 1 audits a prediction and adds to recall counts. -/
def execPredictAudit (n slot : Nat) (s : State) : Out := s.runOp (fun d => d.runPredict n slot true)

/-- SPARSE_CNT_CLR (R147): A write clears the sparse and stealing counters of the region. -/
def execSparseCntClr (who : Initiator) (r : Nat) (s : State) : Out :=
  s.done (s.dev.regCmd (.spu r) 0x20 4 false who (fun d => d.sparseCntClr r))

/-- RECALL_CLR (R147): A write clears the recall, Ablation and Spindrift counters of the region. -/
def execRecallClr (who : Initiator) (r : Nat) (s : State) : Out :=
  s.done (s.dev.regCmd (.spu r) 0x188 4 true who (fun d => d.recallClr r))

end Sys2Proof.Machine
end

