-- ==== Sys2Proof/Machine/CmdDict.lean ====
section
/-!
DEFINITION. The meanings of the commands of the dictionary service, field networks and time.
-/

namespace Sys2Proof.Machine

/-- KOP_MESSAGE (R368): A KOP datagram is checked, authenticated and its items applied in order. -/
def execKopMessage (s : State) : Out := s.runOp (fun d => d.kopMessage s.otp)

/-- CAN_FRAME (R371): A CAN FD segment frame is received and assembled into a request. -/
def execCanFrame (c id : Nat) (fd : Bool) (data : Bytes) (s : State) : Out :=
  s.runOp (fun d => d.canFrame s.otp c id fd data)

/-- CAN_SEGMENT_TIMEOUT (R372): 100 ms pass between segments and the partial request is discarded. -/
def execCanSegmentTimeout (c : Nat) (s : State) : Out := s.done (s.dev.canTimeout s.otp c)

/-- CAN_BUS_OFF_RECOVERY (R370): A bus-off controller recovers after 128 occurrences of 11 recessive bits. -/
def execCanBusOffRecovery (c : Nat) (s : State) : Out := s.done (s.dev.canRecover c)

/-- REQ_SEQ_WRITE (R374): A REQ_SEQ write in a mirror slot submits a dictionary request, or is ignored. -/
def execReqSeqWrite (slot v : Nat) (secure : Bool) (s : State) : Out := s.done (s.dev.reqSeqWrite slot v secure)

/-- MIRROR_RESPONSE (R374): Firmware writes the response and then RSP_SEQ. -/
def execMirrorResponse (slot : Nat) (s : State) : Out := s.runOp (fun d => d.mirrorResponse s.otp slot)

/-- SNAPSHOT (R375): Every SNAP_PERIOD_MS firmware copies entries into the snapshot with SNAP_GEN odd then even. -/
def execSnapshot (s : State) : Out := s.done (s.dev.snapshot s.otp)

/-- DICT_STORE (R362): A write to 0x1F00:01 snapshots persistent entries and writes a new flash copy. -/
def execDictStore (s : State) : Out := s.done (if s.dev.dictReady then s.dev.dictStore.1 else s.dev)

/-- DICT_STORE_DONE (R362): The store's read-back ends and the copy becomes current or the store fails. -/
def execDictStoreDone (ok : Bool) (s : State) : Out := s.done (s.dev.dictStoreDone ok)

/-- DICT_RESTORE (R362): A write to 0x1F00:02 sets every persistent entry to its default. -/
def execDictRestore (s : State) : Out := s.done (if s.dev.dictReady then s.dev.dictRestore s.otp else s.dev)

/-- ETHERNET_FRAME (R367): The MAC receives a frame and admits ARP, ICMP, KOP UDP or time frames or drops it. -/
def execEthernetFrame (frame : Bytes) (fcs : Bool) (s : State) : Out := s.done (s.dev.ethFrame s.otp frame fcs)

/-- SYNC (R381): An 802.1AS Sync message is timestamped and used to step or steer the Varve clock. -/
def execSync (m : SyncMsg) (s : State) : Out := s.done (s.dev.sync s.otp m.seq m.src m.origin)

/-- PDELAY_REQ (R381): A Pdelay_Req is answered with a two-step response. -/
def execPdelayReq (seq : Nat) (s : State) : Out := s.done (s.dev.pdelayReq s.otp seq)

/-- PDELAY_RESP (R381): A peer-delay response updates the mean link delay. -/
def execPdelayResp (seq t2 t3 : Nat) (s : State) : Out := s.done (s.dev.pdelayResp s.otp seq t2 t3)

/-- ANNOUNCE (R381): An Announce message is heeded. -/
def execAnnounce (data : Bytes) (s : State) : Out := s.done (s.dev.announce s.otp data)

/-- AON_TICK (R377): Each 40 ns AON tick advances the Varve counter and its copies. -/
def execAonTick (s : State) : Out := s.done (s.dev.aonTick s.otp)

/-- STEP_GO (R379): STEP_GO adds STEP_OFFSET to the Varve counter once. -/
def execStepGo (who : Initiator) (s : State) : Out := s.done (s.dev.regCmd .mgmt 0x20 4 true who (fun d => d.stepGo))

/-- RATE_ADJ_WRITE (R378): A RATE_ADJ write takes effect at the next tick, clamped at the limit. -/
def execRateAdjWrite (who : Initiator) (v : Nat) (s : State) : Out :=
  s.done (s.dev.regCmd .mgmt 0x10 4 true who (fun d => d.rateWrite (v % 2 ^ 32)))

/-- SYNC_LOSS (R382): No Sync arrives for SYNC_LOSS_MS and the time service enters HOLDOVER. -/
def execSyncLoss (s : State) : Out := s.done (s.dev.syncLoss s.otp)

end Sys2Proof.Machine
end

