-- ==== Sys2Proof/Machine/CmdEngine.lean ====
section
/-!
DEFINITION. The meanings of the commands of Firn, Moraine and Sastrugi.
-/

namespace Sys2Proof.Machine

/-- VOXELIZE_BUILD (R158): Firn checks sweeps, assigns points to cells, optionally samples and writes the workspace
header. -/
def execVoxelizeBuild (n slot : Nat) (stop : Option Nat) (s : State) : Out := s.runOp (fun d => d.runVoxBuild n slot stop)

/-- VOXELIZE_LABEL (R172): Firn writes one class and confidence per input point. -/
def execVoxelizeLabel (n slot : Nat) (s : State) : Out := s.runOp (fun d => d.runVoxLabel n slot)

/-- VOXELIZE_BEV (R173): Firn writes the bird's-eye-view planes. -/
def execVoxelizeBev (n slot : Nat) (s : State) : Out := s.runOp (fun d => d.runVoxBev n slot)

/-- RULEBOOK_BUILD (R171): Firn builds the rulebook of input-output cell pairs for a kernel and stride. -/
def execRulebookBuild (n slot : Nat) (s : State) : Out := s.runOp (fun d => d.runRulebook n slot)

/-- SENSOR_SLOT_WRITE (R151): A write of SLOT_EN or REARM moves a sensor slot to DISABLED or UNARMED. -/
def execSensorSlotWrite (who : Initiator) (slot v : Nat) (s : State) : Out :=
  s.done (s.dev.regCmd .firn (0x100 + slot % 64 * 0x20) 4 true who (fun d => d.sensorSlotWrite (slot % 64) v))

/-- FIRN_CNT_CLR (R177): A write clears the Firn counters and PROBE_HIST. -/
def execFirnCntClr (who : Initiator) (s : State) : Out :=
  s.done (s.dev.regCmd .firn 0xA0 4 false who (fun d => d.firnCntClr))

/-- FIRN_READY (R179): After switch-on and clearing of the grid buffers Firn sets READY. -/
def execFirnReady (s : State) : Out := s.done (s.dev.firnReady)

/-- MAP_LOOKUP (R191): Moraine accepts a look-up batch, sends requests to owners and writes results and statuses. -/
def execMapLookup (n slot : Nat) (s : State) : Out := s.runOp (fun d => d.runMap n slot false)

/-- MAP_UPDATE (R195): Moraine accepts an update batch and sends contributions to owners. -/
def execMapUpdate (n slot : Nat) (s : State) : Out := s.runOp (fun d => d.runMap n slot true)

/-- REQ (R197): An owner receives a look-up request message. -/
def execReq (s : State) : Out := s.runOp (fun d => d.morReq)

/-- RESP (R192): A requester receives answers and matches them to batch positions. -/
def execResp (s : State) : Out := s.runOp (fun d => d.morResp)

/-- UPD (R195): An owner receives an update message for a step. -/
def execUpd (s : State) : Out := s.runOp (fun d => d.morUpd)

/-- FWD_REQ (R199): A new owner receives forwarded look-up items from a stub. -/
def execFwdReq (s : State) : Out := s.runOp (fun d => d.morFwdReq)

/-- FWD_UPD (R199): A new owner receives forwarded update items from a stub. -/
def execFwdUpd (s : State) : Out := s.runOp (fun d => d.morFwdUpd)

/-- LOOKUP_SERVE (R191): An owner serves a step's look-ups once the required update parts are applied. -/
def execLookupServe (t step : Nat) (s : State) : Out := s.runOp (fun d => d.lookupServe t step)

/-- UPDATE_APPLY (R191): An owner combines and applies a step's updates once all its conditions hold. -/
def execUpdateApply (t step : Nat) (s : State) : Out := s.runOp (fun d => d.updateApply t step)

/-- STEP_TIMEOUT_OWNER (R193): STEP_TIMEOUT passes at an owner, which closes the update part without missing messages.
-/
def execStepTimeoutOwner (t step : Nat) (s : State) : Out := s.runOp (fun d => d.stepTimeout t step)

/-- STEP_TIMEOUT_REQUESTER (R193): Twice STEP_TIMEOUT passes at a requester and unanswered keys take UNREACHABLE. -/
def execStepTimeoutRequester (n slot : Nat) (s : State) : Out := s.runOp (fun d => d.morTimeoutReq n slot)

/-- CALVE_START (R199): An old owner closes an update part and sends CALVE with the row to the new owner. -/
def execCalveStart (t key owner : Nat) (s : State) : Out := s.runOp (fun d => d.calveStart t key owner)

/-- CALVE (R199): A new owner receives CALVE, creates the row and answers CALVE_ACK. -/
def execCalve (s : State) : Out := s.runOp (fun d => d.calve)

/-- CALVE_ACK (R199): The old owner receives CALVE_ACK and sets the stub and override or fails the calving. -/
def execCalveAck (s : State) : Out := s.runOp (fun d => d.calveAck)

/-- DIR_OVR (R199): A package installs a calving override and answers DIR_ACK. -/
def execDirOvr (s : State) : Out := s.runOp (fun d => d.dirOvr)

/-- DIR_ACK (R199): The old owner records a DIR_ACK toward freeing the stub. -/
def execDirAck (s : State) : Out := s.runOp (fun d => d.dirAck)

/-- OVR_READ (R183): OVR_READ loads an override entry into OVR_DATA. -/
def execOvrRead (who : Initiator) (s : State) : Out :=
  s.done (s.dev.regCmd .moraine 0x14 4 true who (fun d => d.ovrRead))

/-- OVR_WRITE (R183): OVR_WRITE stores OVR_DATA into an override entry, or is refused for a stub or calving key. -/
def execOvrWrite (who : Initiator) (s : State) : Out :=
  s.done (s.dev.regCmd .moraine 0x14 4 true who (fun d => d.ovrWrite))

/-- HOT_CLR (R201): HOT_CLR empties the hot list. -/
def execHotClr (who : Initiator) (s : State) : Out :=
  s.done (s.dev.regCmd .moraine 0x8 4 true who (fun d => d.hotClr))

/-- TABLE_DESCRIPTOR_WRITE (R205): A table descriptor write is accepted, or ignored while TBL_EN is 1 except a
clearing write with no open step. -/
def execTableDescriptorWrite (who : Initiator) (t off v : Nat) (s : State) : Out :=
  s.done (s.dev.regCmd .moraine (0x1000 + t % 64 * 0x80 + off % 0x80) 4 true who (fun d => d.tableWrite (t % 64)
    (off % 0x80) v))

/-- MOR_CNT_CLR (R205): A write clears the Moraine counters. -/
def execMorCntClr (who : Initiator) (s : State) : Out :=
  s.done (s.dev.regCmd .moraine 0xC0 4 false who (fun d => d.morCntClr))

/-- TOPK_ROW (R213): Sastrugi selects the top K entries of each row into list records. -/
def execTopkRow (n slot : Nat) (s : State) : Out := s.done (s.dev.runTopk n slot false)

/-- TOPK_MERGE (R216): Sastrugi merges list records into one keyed record, counting duplicates and conflicts. -/
def execTopkMerge (n slot : Nat) (s : State) : Out := s.done (s.dev.runTopk n slot true)

/-- ENG_EN_WRITE (R224): A write of ENG_EN enables or retires row engines, or is ignored when it leaves none. -/
def execEngEnWrite (who : Initiator) (v : Nat) (s : State) : Out :=
  s.done (s.dev.regCmd .sastrugi 0x8 4 true who (fun d => d.engEn v))

/-- SAS_CNT_CLR (R224): A write clears the Sastrugi counters. -/
def execSasCntClr (who : Initiator) (s : State) : Out :=
  s.done (s.dev.regCmd .sastrugi 0x80 4 false who (fun d => d.sasCntClr))

end Sys2Proof.Machine
end

