-- ==== Sys2Proof/Machine/CmdFabric.lean ====
section
/-!
DEFINITION. The meanings of the commands of the fabric, events and tags.
-/

namespace Sys2Proof.Machine

/-- FABRIC_ACCESS (R479): One naturally aligned fabric access is decoded, checked and completed at its target. -/
def execFabricAccess (who : Initiator) (pa : Nat) (wr : Bool) (size : Nat) (data : Bytes) (poison : Bool)
    (upset : List (Nat × Nat)) (flit : SpineFlit) (s : State) : Out :=
  s.runOpFuse (fun d fu => fabricAccess d fu (who.access pa wr size data poison) upset flit)

/-- REGISTER_WRITE (R11): A write to a register field that has no behaviour of its own stores or clears it under its
access code. -/
def execRegisterWrite (who : Initiator) (pa size : Nat) (data : Bytes) (s : State) : Out :=
  s.runOpFuse (fun d fu => registerWrite d fu (who.access pa true size data false))

/-- EVENT_QUEUE_DRAIN (R57): Firmware takes the oldest event record, logs it and copies it to each admitting host
event ring. -/
def execEventQueueDrain (s : State) : Out := s.done (s.dev.eventDrain)

/-- EVR_ACK_WRITE (R58): The host writes EVR_ACK, which is recorded, or ignored and counted when the difference is
negative. -/
def execEvrAckWrite (h v : Nat) (s : State) : Out := s.done (s.dev.evrAckWrite h v)

/-- TAG_RETIRE (R47): An operation completes and its transaction tag retires. -/
def execTagRetire (link : Bool) (unit id : Nat) (s : State) : Out :=
  s.runOp (fun d => d.retireTag (if link then .port unit else .vault unit) id)

/-- TAG_STALL_RESUME (R48): An initiator stalled for want of a free tag proceeds once a tag of its owner retires. -/
def execTagStallResume (link : Bool) (unit : Nat) (s : State) : Out :=
  s.done (s.dev.stallResume (if link then .port unit else .vault unit))

end Sys2Proof.Machine
end

