-- ==== Sys2Proof/Machine/CmdHost.lean ====
section
/-!
DEFINITION. The meanings of the commands of the host port and host queues.
-/

namespace Sys2Proof.Machine

/-- ACT (R312): The host activates a row of a bank. -/
def execAct (h bank r : Nat) (early : Bool) (s : State) : Out := s.done (s.dev.mmpAct h bank r early)

/-- PRE (R312): The host precharges a bank. -/
def execPre (h bank : Nat) (all early : Bool) (s : State) : Out := s.done (s.dev.mmpPre h bank all early)

/-- RD (R310): The host reads a burst from staging, control page or dead space at the programmed RL. -/
def execRd (h bank col : Nat) (bl32 early : Bool) (s : State) : Out :=
  s.done (s.dev.mmpRd s.otp h bank col bl32 early)

/-- WR (R313): The host writes a burst to staging, control page or dead space. -/
def execWr (h bank col : Nat) (bl32 : Bool) (data : Bytes) (ecc : Nat) (early : Bool) (s : State) : Out :=
  s.done (s.dev.mmpWr s.otp h bank col bl32 data ecc early)

/-- MASKED_WRITE (R317): The host writes a burst with a data mask, as for mailbox registers. -/
def execMaskedWrite (h bank col : Nat) (data : Bytes) (mask ecc : Nat) (early : Bool) (s : State) : Out :=
  s.done (s.dev.mmpMwr s.otp h bank col data mask ecc early)

/-- MRW (R308): The host writes a mode register, with unsupported features forced to zero. -/
def execMrw (h reg v : Nat) (e : MrEffect) (early : Bool) (s : State) : Out := s.done (s.dev.mmpMrw h reg v e early)

/-- MRR (R309): The host reads a mode register. -/
def execMrr (h reg : Nat) (early : Bool) (s : State) : Out := s.done (s.dev.mmpMrr s.otp h reg early)

/-- REF (R311): A refresh, RFM or per-bank refresh is accepted with no effect and counted. -/
def execRef (h bank : Nat) (early : Bool) (s : State) : Out := s.done (s.dev.mmpRef h bank early)

/-- SELF_REFRESH_ENTRY (R311): The channel enters self-refresh, power-down or deep-sleep, keeping staging. -/
def execSelfRefreshEntry (h : Nat) (early : Bool) (s : State) : Out := s.done (s.dev.mmpSre h early)

/-- SELF_REFRESH_EXIT (R311): The channel leaves self-refresh, power-down or deep-sleep. -/
def execSelfRefreshExit (h : Nat) (early : Bool) (s : State) : Out := s.done (s.dev.mmpSrx h early)

/-- TRAINING (R311): A training command returns the standard patterns. -/
def execTraining (h kind : Nat) (last early : Bool) (s : State) : Out := s.done (s.dev.mmpTrain h kind last early)

/-- UNSUPPORTED_COMMAND (R308): A command of an unsupported feature is ignored and counted in PROTO_ERR_CNT. -/
def execUnsupportedCommand (h : Nat) (s : State) : Out := s.done (s.dev.mmpUnsupported h)

/-- HOST_RESET (R325): The host asserts RESET_N and the channel returns to defaults, keeping staging and queues. -/
def execHostReset (h : Nat) (s : State) : Out := s.done (s.dev.mmpReset h)

/-- SQ_PROD_WRITE (R319): A doorbell SQ_PROD is recorded and firmware notified, or refused as overflow. -/
def execSqProdWrite (q v : Nat) (s : State) : Out := s.done (s.dev.sqProdWrite q v)

/-- CQ_ACK_WRITE (R319): A doorbell CQ_ACK is recorded, or refused when negative. -/
def execCqAckWrite (q v : Nat) (s : State) : Out := s.done (s.dev.cqAckWrite q v)

/-- HOST_NOP (R320): Firmware takes a NOP host command. -/
def execHostNop (q : Nat) (s : State) : Out := s.done (s.dev.hostNop q)

/-- COPY_IN (R320): Firmware moves LEN bytes from staging to a VA of HQ_CTX. -/
def execCopyIn (q f : Nat) (s : State) : Out := s.runOp (fun d => d.copyIn q f)

/-- COPY_OUT (R320): Firmware moves LEN bytes from a VA of HQ_CTX to staging. -/
def execCopyOut (q f : Nat) (s : State) : Out := s.runOp (fun d => d.copyOut q f)

/-- FRAME (R318): The FRAME service submits a VOXELIZE on behalf of HQ_CTX. -/
def execFrame (q core gran : Nat) (s : State) : Out := s.runOp (fun d => d.hostFrame q core gran)

/-- MAP (R318): The MAP service submits a Moraine batch on behalf of HQ_CTX. -/
def execMap (q core gran hdrVa : Nat) (s : State) : Out := s.runOp (fun d => d.hostMap q core gran hdrVa)

/-- RUN (R318): The RUN service submits COUNT descriptors of HQ_CTX to a core. -/
def execRun (q : Nat) (s : State) : Out := s.runOp (fun d => d.hostRun q)

/-- PUBLISH (R319): The PUBLISH service copies a result and asks Rime to publish it. -/
def execPublish (q f rflags fcnt ts : Nat) (s : State) : Out := s.runOp (fun d => d.hostPublish q f rflags fcnt ts)

/-- HQ_COMPLETE (R321): Firmware hands back a command result, writes the completion entry and advances CQ_PROD. -/
def execHqComplete (q k : Nat) (s : State) : Out := s.runOp (fun d => d.hqComplete q k)

/-- MMP_CNT_CLR (R328): A write clears the channel's counters. -/
def execMmpCntClr (who : Initiator) (h : Nat) (s : State) : Out :=
  s.done (s.dev.regCmd .mmp (0x180 + h % 2 * 0x100) 4 false who (fun d => d.mmpCntClr (h % 2)))

end Sys2Proof.Machine
end

