-- ==== Sys2Proof/Machine/CmdLink.lean ====
section
/-!
DEFINITION. The meanings of the commands of the links and collectives.
-/

namespace Sys2Proof.Machine

/-- PORT_EN_WRITE (R333): A write of PORT_EN starts training, disables or drains the port. -/
def execPortEnWrite (who : Initiator) (p : Nat) (en : Bool) (s : State) : Out :=
  s.runLink (fun d => d.regCmd (.link p) 0x8 4 true who (fun d => d.portEn p en))

/-- RETRAIN (R333): A RETRAIN write moves an UP port to RETRAIN. -/
def execRetrain (who : Initiator) (p : Nat) (s : State) : Out :=
  s.runLink (fun d => d.regCmd (.link p) 0x8 4 true who (fun d => d.retrainWrite p))

/-- LANES_TRAINED (R330): The lanes train to a mode and the port enters CHECK, or from RETRAIN returns to UP. -/
def execLanesTrained (p width : Nat) (s : State) : Out := s.runLink (fun d => d.lanesTrained p width)

/-- PARTNER_IDENTITY (R334): The partner's identity arrives in CHECK and the port goes UP or ISOLATED. -/
def execPartnerIdentity (p id x y z dx dy dz : Nat) (s : State) : Out :=
  s.runLink (fun d => d.partnerIdentity p id x y z dx dy dz)

/-- LANE_LOCK_LOSS (R333): Loss of lane lock moves an UP port to RETRAIN. -/
def execLaneLockLoss (p : Nat) (s : State) : Out := s.runLink (fun d => d.laneLockLoss p)

/-- RETRAIN_TIMEOUT (R333): 10 ms pass in RETRAIN and the port returns to TRAINING or enters FAILED. -/
def execRetrainTimeout (p : Nat) (s : State) : Out := s.runLink (fun d => d.retrainTimeout p)

/-- DRAIN_END (R333): A DRAINING port has all flits acknowledged or 1 ms passes and it is DISABLED. -/
def execDrainEnd (p : Nat) (s : State) : Out := s.runLink (fun d => d.drainEnd p)

/-- FLIT_RECEIVE (R332): A flit arrives, is decoded and accepted, or discarded with a NAK. -/
def execFlitReceive (p : Nat) (raw : Bytes) (upsets : List (Nat × List (Nat × Nat))) (s : State) : Out :=
  s.runLink (fun d => d.flitReceive p raw upsets)

/-- NAK (R332): A NAK arrives and the transmitter replays from the expected SEQ. -/
def execNak (p seq : Nat) (s : State) : Out := s.runLink (fun d => d.nak p seq)

/-- PACKET_FORWARD (R337): A packet not for this package is forwarded by cut-through on its dimension-order port. -/
def execPacketForward (p : Nat) (s : State) : Out := s.runLink (fun d => d.packetForward p)

/-- ESCAPE_TIMEOUT (R338): A packet finds no credit for 2 µs or its port down and takes an escape or is dropped. -/
def execEscapeTimeout (p : Nat) (s : State) : Out := s.runLink (fun d => d.escapeTimeout p)

/-- RD_REQ (R344): A remote read request is checked, admitted and answered with RD_RESP. -/
def execRdReq (p : Nat) (s : State) : Out := s.runLink (fun d => d.rdReq p)

/-- RD_RESP (R345): A read response completes the source access and retires its tag. -/
def execRdResp (p : Nat) (s : State) : Out := s.runLink (fun d => d.rdResp p)

/-- WR_ACK (R345): A write acknowledgement retires the source tag. -/
def execWrAck (p : Nat) (s : State) : Out := s.runLink (fun d => d.wrAck p)

/-- SIGNAL (R293): A remote sync signal is applied on arrival. -/
def execSignal (p : Nat) (s : State) : Out := s.runLink (fun d => d.signalPkt p)

/-- MBX (R301): A peer's mailbox message is delivered to SEND of the target mailbox. -/
def execMbx (p : Nat) (s : State) : Out := s.runLink (fun d => d.mbxPkt p)

/-- MORAINE (R197): A Moraine message packet arrives and is handed to Moraine. -/
def execMoraine (p : Nat) (s : State) : Out := s.runLink (fun d => d.morainePkt p)

/-- COLL (R348): A collective tree or block message arrives, is acknowledged and combined once. -/
def execColl (p : Nat) (s : State) : Out := s.runLink (fun d => d.collPkt p)

/-- NAK_AUTH (R341): A NAK_AUTH completes the source access with LINK_AUTH_FAIL. -/
def execNakAuth (p : Nat) (s : State) : Out := s.runLink (fun d => d.nakAuth p)

/-- UNREACH (R338): An UNREACH completes the source access with PEER_UNREACHABLE. -/
def execUnreach (p : Nat) (s : State) : Out := s.runLink (fun d => d.unreach p)

/-- LINK_STATE (R346): A LINK_STATE notice arrives and firmware updates REACH. -/
def execLinkState (p : Nat) (s : State) : Out := s.runLink (fun d => d.linkState p)

/-- RIME_STATUS (R405): A peer's Rime status record is admitted and stored by the receiving Rime. -/
def execRimeStatus (p : Nat) (s : State) : Out := s.runLink (fun d => d.rimeStatusPkt p)

/-- REMOTE_TIMEOUT (R345): A remote tag holds no answer after REMOTE_TMO and completes with REMOTE_TIMEOUT. -/
def execRemoteTimeout (p tag : Nat) (s : State) : Out := s.runLink (fun d => d.remoteTimeout p tag)

/-- BARRIER (R348): A BARRIER collective request starts on the package. -/
def execBarrier (who : Initiator) (x : Bytes) (s : State) : Out :=
  s.runLink (fun d => d.regCmd (.link 0) 0x8800 64 true who (fun d => d.collRequest 1 (padTo 64 x)))

/-- REDUCE (R349): A REDUCE collective request starts on the package. -/
def execReduce (who : Initiator) (x : Bytes) (s : State) : Out :=
  s.runLink (fun d => d.regCmd (.link 0) 0x8800 64 true who (fun d => d.collRequest 2 (padTo 64 x)))

/-- COLL_TOPK_MERGE (R222): A TOPK_MERGE collective request starts on the package. -/
def execCollTopkMerge (who : Initiator) (x : Bytes) (s : State) : Out :=
  s.runLink (fun d => d.regCmd (.link 0) 0x8800 64 true who (fun d => d.collRequest 3 (padTo 64 x)))

/-- ALL_TO_ALL (R348): An ALL_TO_ALL collective request starts on the package. -/
def execAllToAll (who : Initiator) (x : Bytes) (s : State) : Out :=
  s.runLink (fun d => d.regCmd (.link 0) 0x8800 64 true who (fun d => d.collRequest 4 (padTo 64 x)))

/-- COLL_RETRANSMIT (R350): A collective message unacknowledged after 1 ms is sent again. -/
def execCollRetransmit (piece : Nat) (s : State) : Out := s.runLink (fun d => d.collRetransmit piece)

/-- COLL_TIMEOUT (R351): TMO_MS passes, the collective completes with COLL_TIMEOUT and COLL_ABORT is sent. -/
def execCollTimeout (id : Nat) (s : State) : Out := s.runLink (fun d => d.collTimeout id)

/-- COLL_ABORT (R351): A COLL_ABORT arrives and the collective completes with COLL_ABORTED or is remembered. -/
def execCollAbort (p : Nat) (s : State) : Out := s.runLink (fun d => d.collAbortPkt p)

/-- COLL_COMPLETE (R351): A collective completes: result visible, status record written, object signalled. -/
def execCollComplete (id : Nat) (s : State) : Out := s.runLink (fun d => d.collComplete id)

/-- LINK_CNT_CLR (R353): A write clears a port's counters. -/
def execLinkCntClr (who : Initiator) (p : Nat) (s : State) : Out :=
  s.done (s.dev.regCmd (.link p) 0x80 4 false who (fun d => d.linkCntClr p))

/-- SYS_CNT_CLR (R354): A write clears the system link counters. -/
def execSysCntClr (who : Initiator) (s : State) : Out :=
  s.done (s.dev.regCmd (.link 0) 0x8860 4 true who (fun d => d.sysCntClr))

end Sys2Proof.Machine
end

