-- ==== Sys2Proof/Machine/CmdMemory.lean ====
section
/-!
DEFINITION. The meanings of the commands of the vaults, flow engines, contexts, sync objects and mailboxes.
-/

namespace Sys2Proof.Machine

/-- VAULT_READ (R240): A vault controller reads a line and makes the checks of Table 8.5. -/
def execVaultRead (who : Initiator) (pa : Nat) (upset : List (Nat × Nat)) (s : State) : Out :=
  s.done (s.dev.vaultReadCmd who.sid who.ctx who.secure pa upset)

/-- VAULT_WRITE (R241): A vault controller stores a full or merged partial line encrypted and tagged. -/
def execVaultWrite (writes : List LineWrite) (upset : List (Nat × Nat)) (s : State) : Out :=
  s.done (s.dev.vaultWriteCmd (writes.map (fun w => w.who.access w.pa true w.data.length w.data w.poison)) upset)

/-- VAULT_REFRESH (R245): The vault controller refreshes a bank at the temperature-scaled interval. -/
def execVaultRefresh (v bank : Nat) (s : State) : Out := s.done (s.dev.vaultRefresh v bank)

/-- SCRUB_READ (R246): The scrubber interval expires and it reads, corrects or reports one line per pseudo-channel. -/
def execScrubRead (v : Nat) (upsets : List (Nat × List (Nat × Nat))) (s : State) : Out :=
  s.done (s.dev.scrub v upsets)

/-- VAULT_READY (R250): Lane training ends and the vault sets READY. -/
def execVaultReady (v : Nat) (s : State) : Out := s.done (s.dev.vaultReady v)

/-- INIT_START (R250): INIT_START begins writing every line of the vault as a ZERO line. -/
def execInitStart (who : Initiator) (v : Nat) (s : State) : Out :=
  s.done (s.dev.regCmd (.vault v) 0x8 4 true who (fun d => d.initStart v))

/-- INIT_DONE (R250): INIT ends and held accesses are accepted in arrival order. -/
def execInitDone (v : Nat) (s : State) : Out := s.done (s.dev.initDone v)

/-- VLT_CNT_CLR (R258): A write clears the vault counters and every PC_CE_CNT. -/
def execVltCntClr (who : Initiator) (v : Nat) (s : State) : Out :=
  s.done (s.dev.regCmd (.vault v) 0x80 4 false who (fun d => d.vltCntClr v))

/-- RING_PROD_WRITE (R255): A write advances RING_PROD, or is ignored when too many entries would be outstanding. -/
def execRingProdWrite (who : Initiator) (f v : Nat) (s : State) : Out :=
  s.done (s.dev.regCmd (.fe f) 0x1C 4 false who (fun d => d.ringProd f (v % 2 ^ 32) who.ctx who.secure))

/-- RING_EN_WRITE (R259): A write of RING_EN starts serving the ring or stops it under DRAIN. -/
def execRingEnWrite (who : Initiator) (f v : Nat) (s : State) : Out :=
  s.done (s.dev.regCmd (.fe f) 0x8 4 true who (fun d => d.ringEn f v))

/-- RING_ENTRY_START (R255): A flow engine reads and checks the next ring entry and starts it when its wait and fence
hold. -/
def execRingEntryStart (f : Nat) (s : State) : Out := s.runOp (fun d => d.ringEntryStart f)

/-- COPY (R252): A transfer moves ROWS × ROW_G granules from SRC to DST. -/
def execCopy (f entry : Nat) (s : State) : Out := s.runOp (fun d => d.ringTransfer f entry 1)

/-- FILL (R252): A transfer writes the pattern through DST. -/
def execFill (f entry : Nat) (s : State) : Out := s.runOp (fun d => d.ringTransfer f entry 2)

/-- SUBMIT_TRANSFER (R252): A transfer reads descriptors from DRAM and writes each to a core's SUBMIT window. -/
def execSubmitTransfer (f entry : Nat) (s : State) : Out := s.runOp (fun d => d.submitTransfer f entry)

/-- RING_ENTRY_COMPLETE (R254): A transfer completes, writes STATUS, PROGRESS and STATE and signals. -/
def execRingEntryComplete (f entry : Nat) (s : State) : Out := s.runOp (fun d => d.ringComplete f entry)

/-- FE_CNT_CLR (R259): A write clears the flow-engine counters. -/
def execFeCntClr (who : Initiator) (f : Nat) (s : State) : Out :=
  s.done (s.dev.regCmd (.fe f) 0x60 4 false who (fun d => d.feCntClr f))

/-- TRANSLATION_WALK (R266): A translation miss is walked through the tables and yields a PA or a fault. -/
def execTranslationWalk (cache ctx sid va : Nat) (wr : Bool) (s : State) : Out :=
  s.runOp (fun d => d.walkCmd cache ctx sid va wr)

/-- ENABLE (R262): ENABLE moves an OFF context to ACTIVE. -/
def execEnable (who : Initiator) (c : Nat) (s : State) : Out :=
  s.done (s.dev.regCmd .mgmt (0x8108 + c % 16 * 0x40) 4 true who (fun d => d.ctxEnable (c % 16)))

/-- SUSPEND (R262): SUSPEND moves an ACTIVE context to SUSPENDING. -/
def execSuspend (who : Initiator) (c : Nat) (s : State) : Out :=
  s.done (s.dev.regCmd .mgmt (0x8108 + c % 16 * 0x40) 4 true who (fun d => d.ctxSuspend (c % 16)))

/-- RESUME (R271): RESUME returns the context to ACTIVE and restarts parked operations. -/
def execResume (who : Initiator) (c : Nat) (s : State) : Out :=
  s.runOp (fun d => d.regCmd .mgmt (0x8108 + c % 16 * 0x40) 4 true who (fun d => (d.ctxResume (c % 16)).collResume (c %
    16)))

/-- INV_GO (R267): XL_INV removes the named translations from every cache. -/
def execInvGo (who : Initiator) (v : Nat) (s : State) : Out :=
  s.done (s.dev.regCmd .mgmt 0x8018 4 true who (fun d => d.xlInv (Nat.lor (v % 2 ^ 32) 32)))

/-- XL_INV_DONE (R267): Removal is complete and dependent tags have retired, so INV_BUSY falls. -/
def execXlInvDone (s : State) : Out := s.done (s.dev.xlInvDone)

/-- FUNC_DISABLE (R282): A GO with OP 0 starts disabling a function under DRAIN or ABORT. -/
def execFuncDisable (who : Initiator) (fn : Nat) (abort : Bool) (s : State) : Out :=
  s.runOp (fun d => d.regCmd .mgmt 0x8010 4 true who (fun d => d.funcDisableCmd (fn % 256) abort))

/-- FUNC_ENABLE (R282): A GO with OP 1 enables a block function that is off. -/
def execFuncEnable (who : Initiator) (fn : Nat) (s : State) : Out :=
  s.done (s.dev.regCmd .mgmt 0x8010 4 true who (fun d => d.funcDis (fn % 256 + 2 ^ 9 + 2 ^ 31)))

/-- REGION_DESCRIPTOR_WRITE (R279): A region descriptor write changes checking for later accesses. -/
def execRegionDescriptorWrite (who : Initiator) (k off v : Nat) (s : State) : Out :=
  s.done (s.dev.regCmd .mgmt (0x8800 + k % 64 * 0x20 + off % 32) 4 true who (fun d => d.rdWrite (k % 64) (off %
    32) v))

/-- TC_CNT_CLR (R285): A write clears the region translation-cache counters. -/
def execTcCntClr (who : Initiator) (r : Nat) (s : State) : Out :=
  s.done (s.dev.regCmd (.region r) 0x118 4 false who (fun d => d.tcCntClr r))

/-- SIG_ADD (R295): A non-zero write to SIG_ADD is a signal of that increment, checked under R290. -/
def execSigAdd (who : Initiator) (obj v : Nat) (s : State) : Out :=
  s.done (s.dev.regCmd (.sync obj) 0x8 4 false who (fun d => d.sigAdd obj who.sid who.ctx who.secure (v % 2 ^ 32)))

/-- SYNC_CFG_WRITE (R296): A configuration write to a sync object is accepted, or refused while waiters are present.
-/
def execSyncCfgWrite (who : Initiator) (obj v : Nat) (s : State) : Out :=
  s.done (s.dev.regCmd (.sync obj) 0xC 4 false who (fun d => (if who.secure then d else d.secWorld (who.req
    (B.sync obj + 0xC) 4)).syncCfg obj who.secure who.sid who.ctx (v % 2 ^ 32)))

/-- SYNC_CHANGE_APPLY (R289): The home region applies one pending change to an object and tests its watchers. -/
def execSyncChangeApply (obj : Nat) (s : State) : Out := s.done (s.dev.syncStep obj)

/-- MAILBOX_SEND (R299): A 64-byte write to SEND is stored in a slot or channel, or refused. -/
def execMailboxSend (who : Initiator) (m : Nat) (msg : Bytes) (s : State) : Out :=
  s.done (s.dev.regCmd (.mbx m) 0x40 64 false who (fun d => d.mbxSend m who.sid who.ctx who.secure (padTo 64
    msg)))

/-- POP_CH (R304): A write to POP_CH empties a FULL channel. -/
def execPopCh (who : Initiator) (m c : Nat) (s : State) : Out :=
  s.done (s.dev.regCmd (.mbx m) 0x24 4 false who (fun d => d.mbxPop m (c % 8)))

/-- MBX_TIMEOUT (R302): A slot stays FULL for TMO_US and its TMO bit is set. -/
def execMbxTimeout (m c : Nat) (s : State) : Out :=
  s.done (let d := s.dev
        if d.answers (.mbx m) then d.mbxTimeout m (c % 8) else d)

end Sys2Proof.Machine
end

