-- ==== Sys2Proof/Machine/CmdPower.lean ====
section
/-!
DEFINITION. The meanings of the commands of power, clocks, Creep and what was added to the table last.
-/

namespace Sys2Proof.Machine

/-- SWITCH_ON (R445): PWR_GO with PWR_ON_REQ 1 switches a domain on, or is refused. -/
def execSwitchOn (who : Initiator) (k : Nat) (s : State) : Out :=
  s.done (s.dev.regCmd .pcc 0x10 4 true who (fun d => d.switchOn k))

/-- SWITCH_OFF (R446): PWR_GO with PWR_ON_REQ 0 switches a domain off, or is refused. -/
def execSwitchOff (who : Initiator) (k : Nat) (s : State) : Out :=
  s.done (s.dev.regCmd .pcc 0x10 4 true who (fun d => d.switchOff k))

/-- PWR_TRANSITION_DONE (R445): A domain transition ends with PWR_BUSY 0 and PWR_DONE 1. -/
def execPwrTransitionDone (s : State) : Out := s.done (s.dev.pwrDone)

/-- PLL_UNLOCK (R450): A PLL loses lock or strays and the affected blocks are fenced, stopped or retrained. -/
def execPllUnlock (n : Nat) (s : State) : Out := s.runOp (fun d => d.pllUnlock n)

/-- REFCLK_LOSS (R451): REFCLK stops or strays and the device reports it. -/
def execRefclkLoss (khz : Nat) (s : State) : Out := s.runOp (fun d => d.refclkLoss khz)

/-- TEMP_SAMPLE (R452): Every 100 µs region temperatures are sampled and compared with the thresholds. -/
def execTempSample (regions : List Nat) (vaults : List (Nat × Nat)) (s : State) : Out :=
  s.done (s.dev.tempSample s.otp.gradeS regions vaults)

/-- POWERED_SECOND (R454): POWERED_S advances and a region becomes due when its interval is reached. -/
def execPoweredSecond (s : State) : Out := s.done (s.dev.poweredSecond)

/-- REQ_GO (R454): REQ_GO makes a region's Creep measurement due at once. -/
def execReqGo (who : Initiator) (r : Nat) (drain : Bool) (s : State) : Out :=
  s.done (s.dev.regCmd .pcc 0x38 4 true who (fun d => d.creepReq (r % 8 + 8 * b2n drain + 128)))

/-- CREEP_MEASURE_START (R454): A due measurement is admitted on an idle region, or deferred by a window. -/
def execCreepMeasureStart (r : Nat) (s : State) : Out := s.done (s.dev.creepStart r)

/-- CREEP_SWEEP_STEP (R453): A 50 µs sweep step settles and tests the replicas at one voltage. -/
def execCreepSweepStep (r : Nat) (pass : Bool) (s : State) : Out := s.done (s.dev.creepStep r pass)

/-- CREEP_MEASURE_END (R455): A measurement ends and the new target, headroom and exhaustion are set. -/
def execCreepMeasureEnd (r : Nat) (s : State) : Out := s.done (s.dev.creepEnd r)

/-- CREEP_OVERDUE (R454): A region stays due for a further INTERVAL_H and MEAS_OVERDUE is set. -/
def execCreepOverdue (r : Nat) (s : State) : Out := s.done (s.dev.creepOverdue r)

/-- CREEP_LOG_WRITE (R458): Firmware appends a 64-byte Creep log record, erasing a sector when needed. -/
def execCreepLogWrite (ok : Bool) (s : State) : Out := s.done (s.dev.creepLogWrite ok)

/-- RAIL_RAMP_STEP (R456): A VDD_ARITH rail moves toward its target at 1 mV/µs or slower. -/
def execRailRampStep (r : Nat) (s : State) : Out := s.done (s.dev.rampStep r)

/-- VOLT_WINDOW (R456): A rail outside its window for 1 µs fences the region. -/
def execVoltWindow (r mv : Nat) (s : State) : Out := s.done (s.dev.voltWindow r mv)

/-- AVS_ACK (R442): An AVSBus command is acknowledged by the regulator. -/
def execAvsAck (r : Nat) (s : State) : Out := s.done (s.dev.avsAck r)

/-- AVS_RETRY (R442): An unacknowledged AVSBus command is repeated every 100 µs and counted. -/
def execAvsRetry (r : Nat) (s : State) : Out := s.done (s.dev.avsRetry r)

/-- RAIL_OUT_OF_RANGE (R468): A non-ARITH rail leaves its range for 1 µs and its blocks serve nothing until cold
reset. -/
def execRailOutOfRange (rail : Nat) (s : State) : Out := s.done (s.dev.railOut rail)

/-- VDD_SAFE_DIP (R468): VDD_SAFE falls below 0.68 V for 1 µs and the Rime domain resets. -/
def execVddSafeDip (s : State) : Out := s.done (s.dev.safeDip)

/-- VDD_AON_POR (R468): VDD_AON below 0.68 V acts as PORESET_N asserted. -/
def execVddAonPor (s : State) : Out := s.done (s.dev.aonPor)

/-- PCC_CNT_CLR (R462): A write clears the power, clock and Creep counters. -/
def execPccCntClr (who : Initiator) (s : State) : Out :=
  s.done (s.dev.regCmd .pcc 0x320 4 false who (fun d => d.pccCntClr))

/-- MORAINE_READY (R203): No later than 50 µs after the Moraine domain switches on, Moraine sets READY and starts
accepting descriptors. -/
def execMoraineReady (s : State) : Out := s.done (s.dev.moraineUp)

/-- SASTRUGI_READY (R226): No later than 20 µs after the Sastrugi domain switches on, Sastrugi sets READY and starts
accepting descriptors. -/
def execSastrugiReady (s : State) : Out := s.done (s.dev.sastrugiReady)

/-- REMOTE_WRITE (R344): A WR packet from a peer arrives; it is checked under R341, admitted through a DRAM window or
refused with RSTAT 1, written, and answered with WR_ACK or NAK_AUTH. -/
def execRemoteWrite (p : Nat) (s : State) : Out := s.runLink (fun d => d.remoteWrite p)

/-- HEARTBEAT (R317): Every 1 ms firmware rewrites HEARTBEAT in the control-page header with the Varve time. -/
def execHeartbeat (s : State) : Out := s.done (s.dev.heartbeat)

/-- ETHERNET_LINK_CHANGE (R363): The management Ethernet link goes up or down; 0x1040:01 changes and a down transition
counts in 0x7005:04. -/
def execEthernetLinkChange (up : Bool) (s : State) : Out := s.done (s.dev.ethLink up)

/-- CAN_ERROR_STATE (R370): Bus errors move a CAN FD controller between error-active, error-passive and bus-off, and
each entry is counted. -/
def execCanErrorState (c st : Nat) (s : State) : Out := s.done (s.dev.canError c st)

/-- PLL_LOCK (R450): A PLL gains or regains lock and its CLK_STAT lock bit rises, without releasing any fence;
REFCLK_OK likewise rises when REFCLK returns. -/
def execPllLock (n : Nat) (s : State) : Out := s.done (s.dev.pllLock n)

/-- ENTROPY_SOURCE_PASS (R429): The entropy source passes its health tests again, DRBG_OK rises and drawing commands
are accepted once more. -/
def execEntropySourcePass (s : State) : Out := s.done (s.dev.entropyPass)

end Sys2Proof.Machine
end

