-- ==== Sys2Proof/Machine/CmdRime.lean ====
section
/-!
DEFINITION. The meanings of the commands of Rime and self-test.
-/

namespace Sys2Proof.Machine

/-- PUB_REQ (R392): Rime takes a publish request, reads and checks the output, decides and writes the slot and
PUB_RSP. -/
def execPubReq (s : State) : Out := s.done (s.dev.pubReq)

/-- PUB_RSP_POP (R412): A write equal to the oldest REQ_ID removes that response. -/
def execPubRspPop (who : Initiator) (v : Nat) (s : State) : Out :=
  s.done (s.dev.regCmd .rime 0x160 4 true who (fun d => d.pubRspPop (v % 2 ^ 32)))

/-- RIME_DEADLINE (R395): Varve time reaches a stream's deadline and Rime publishes without a request. -/
def execRimeDeadline (stream : Nat) (s : State) : Out := s.done (s.dev.rimeDeadline stream)

/-- WHITEOUT_START (R394): Rime starts Whiteout on a count-grid buffer that became newest. -/
def execWhiteoutStart (s : State) : Out := s.done (s.dev.whiteoutStart)

/-- WHITEOUT_DONE (R394): Whiteout ends and its occupancy output is written to a buffer. -/
def execWhiteoutDone (s : State) : Out := s.done (s.dev.whiteoutDone)

/-- CHECK_POST (R398): A core posts a checksum record to Rime's check queue, or it is dropped when full. -/
def execCheckPost (n : Nat) (s : State) : Out := s.done (s.dev.checkPost n)

/-- READBACK_DONE (R399): Rime's read-back of a sampled tile ends and is compared, releasing the held completion. -/
def execReadbackDone (post : Nat) (s : State) : Out := s.done (s.dev.readbackDone post)

/-- READBACK_TIMEOUT (R399): A read-back not ended in 20 µs is skipped and the descriptor completes. -/
def execReadbackTimeout (post : Nat) (s : State) : Out := s.done (s.dev.readbackTimeout post)

/-- PAIR_ORPHAN (R399): A pair partner does not arrive within PAIR_WIN_US and is reported as a mismatch. -/
def execPairOrphan (s : State) : Out := s.done (s.dev.pairOrphan)

/-- HB_KICK (R404): A management core writes HB_KICK and its heartbeat timer restarts. -/
def execHbKick (who : Initiator) (s : State) : Out :=
  s.done (s.dev.regCmd .rime 0x1C 4 true who (fun d => d.hbKick who.sid))

/-- HB_LOST (R404): A management core's timer passes HB_TMO_US and HB_LOST is set. -/
def execHbLost (s : State) : Out := s.done (s.dev.hbLost)

/-- LOCKSTEP (R400): The two Rime cores disagree, halt and both pins are asserted. -/
def execLockstep (s : State) : Out := s.done (s.dev.rimeFault 0)

/-- RIME_CLK (R400): The Rime oscillator differs from XTAL by more than 2 % over 100 µs. -/
def execRimeClk (s : State) : Out := s.done (s.dev.rimeFault 1)

/-- RIME_SRAM (R400): An uncorrectable sector is found in the Rime SRAM. -/
def execRimeSram (s : State) : Out := s.done (s.dev.rimeFault 2)

/-- FAULT_CAUSE_CLEAR (R401): An RW1C write clears FAULT_CAUSE bits 1 to 6, which set again if their condition holds.
-/
def execFaultCauseClear (who : Initiator) (v still : Nat) (s : State) : Out :=
  s.done (s.dev.regCmd .rime 0x8 4 false who (fun d => d.faultClear v still))

/-- SAFE_MASK_WRITE (R401): A SAFE_MASK write widens the mask and ignores attempts to narrow it. -/
def execSafeMaskWrite (who : Initiator) (v : Nat) (s : State) : Out :=
  s.done (s.dev.regCmd .rime 0x10 4 true who (fun d => d.safeMask v))

/-- RIME_START (R414): Rime runs its start-up test and sets RUN. -/
def execRimeStart (s : State) : Out := s.done (s.dev.rimeStart)

/-- RIME_RESTART (R403): The Rime domain runs again after a non-cold reset, latches RIME_RESET and asserts both pins.
-/
def execRimeRestart (s : State) : Out := s.done (s.dev.rimeRestart)

/-- RIME_PEER_SEND (R405): Every 10 ms Rime writes its status record to each peer. -/
def execRimePeerSend (s : State) : Out := s.done (s.dev.rimePeerSend)

/-- RIME_PEER_SILENT (R405): A peer delivers no record for 50 ms and is marked silent. -/
def execRimePeerSilent (peer : Nat) (s : State) : Out := s.done (s.dev.rimePeerSilent peer)

/-- SELF_TEST_SLICE_START (R406): The sequencer admits the next slice of an idle cluster outside safety windows, or
defers it. -/
def execSelfTestSliceStart (c : Nat) (s : State) : Out := s.done (s.dev.sliceStart c)

/-- SELF_TEST_SLICE_END (R408): A slice ends; a failure fences the cluster, a full pass sets ST_PASS. -/
def execSelfTestSliceEnd (ok : Bool) (s : State) : Out := s.done (s.dev.sliceEnd ok)

/-- ST_OVERDUE (R408): A cluster passes ST_MAX_S without a full test and OVERDUE is set. -/
def execStOverdue (c : Nat) (s : State) : Out := s.done (s.dev.stOverdue c)

/-- ST_REQ (R409): GO submits a self-test request for a cluster, with DRAIN or RELEASE. -/
def execStReq (who : Initiator) (v : Nat) (s : State) : Out :=
  s.done (s.dev.regCmd .rime 0x204 4 true who (fun d => d.stReqWrite v))

/-- RIME_CNT_CLR (R412): A write clears the Rime counters. -/
def execRimeCntClr (who : Initiator) (s : State) : Out :=
  s.done (s.dev.regCmd .rime 0x80 4 false who (fun d => d.rimeCntClr))

/-- STREAM_ENABLE (R412): STR_EN enables a stream and restarts PUB_SEQ, unless its buffers overlap or overrun. -/
def execStreamEnable (who : Initiator) (stream v : Nat) (s : State) : Out :=
  s.done (s.dev.regCmd .rime (0x1000 + stream % 16 * 0x40) 4 true who (fun d => d.streamEnable (stream % 16) v))

end Sys2Proof.Machine
end

