-- ==== Sys2Proof/Machine/CmdSec.lean ====
section
/-!
DEFINITION. The meanings of the commands of the security engine, boot and reset.
-/

namespace Sys2Proof.Machine

/-- SVN_ADVANCE (R435): SVN_ADVANCE raises SVN_MIN to SEC_ARG. -/
def execSvnAdvance (who : Initiator) (arg : Nat) (s : State) : Out :=
  s.doneFuse (regCmdFuse s.dev s.otp .sec 0x10 4 true who (fun d o => svnAdvance d o (arg % 128)))

/-- REVOKE_ROOT (R435): REVOKE_ROOT blows a root revoke bit. -/
def execRevokeRoot (who : Initiator) (arg : Nat) (s : State) : Out :=
  s.doneFuse (regCmdFuse s.dev s.otp .sec 0x10 4 true who (fun d o => revokeRoot d o (arg % 128)))

/-- PROVISION_LOCK (R435): PROVISION_LOCK blows LIFECYCLE to PROVISIONED. -/
def execProvisionLock (who : Initiator) (s : State) : Out :=
  s.doneFuse (regCmdFuse s.dev s.otp .sec 0x10 4 true who (fun d o => provisionLock d o))

/-- RETIRE (R435): RETIRE blows LIFECYCLE to RETIRED. -/
def execRetire (who : Initiator) (s : State) : Out :=
  s.doneFuse (regCmdFuse s.dev s.otp .sec 0x10 4 true who (fun d o => retire d o))

/-- CK_GO (R430): CK_GO draws new keys for an OFF context and increments its KEY_GEN. -/
def execCkGo (who : Initiator) (c : Nat) (s : State) : Out :=
  s.done (s.dev.regCmd .sec 0x40 4 true who (fun d => (d.p B.sec F.sec_CK_CTX c).ckGo (c % 16)))

/-- LOAD (R433): LOAD unwraps a job-key blob into a slot after its checks. -/
def execLoad (who : Initiator) (slot : Nat) (ok : Bool) (s : State) : Out :=
  s.done (s.dev.regCmd .sec 0x60 4 true who (fun d => (d.jkSelect 0 slot).jkLoad (slot % 256) d.sec.jkData ok))

/-- ERASE (R434): ERASE puts a slot in EMPTY. -/
def execErase (who : Initiator) (slot : Nat) (s : State) : Out :=
  s.runOp (fun d => d.regCmd .sec 0x60 4 true who (fun d => (d.jkSelect 1 slot).slotErase (slot % 256)))

/-- FAIL (R434): FAIL moves a LOADED slot to FAILED. -/
def execFail (who : Initiator) (slot : Nat) (s : State) : Out :=
  s.runOp (fun d => d.regCmd .sec 0x60 4 true who (fun d => (d.jkSelect 2 slot).slotFail (slot % 256) d.pkgId))

/-- NONCE_WRITE (R427): A NONCE write starts a quote, or is answered KR_BUSY. -/
def execNonceWrite (nonce : Bytes) (s : State) : Out := s.done (let d := s.dev; (d.nonceWrite nonce).1)

/-- QUOTE_COMPLETE (R427): A quote is signed and QUOTE_SEQ increments. -/
def execQuoteComplete (s : State) : Out := s.done (quoteComplete s.dev s.otp)

/-- KEK_COMMIT (R431): A write of 1 decapsulates a KEK ciphertext and publishes its check value. -/
def execKekCommit (k : Nat) (s : State) : Out := s.done (s.dev.kekCommit k)

/-- KEK_ERASE (R431): A write of 2 erases a KEK slot. -/
def execKekErase (k : Nat) (s : State) : Out := s.done (s.dev.kekErase k)

/-- MANAGEMENT_KEY_UNWRAP (R432): A KEK index write unwraps a management key or leaves the slot EMPTY. -/
def execManagementKeyUnwrap (m kek : Nat) (s : State) : Out := s.done (s.dev.mkeyIndex m kek)

/-- SEC_ENTROPY (R429): An entropy health test fails, DRBG_OK falls and drawing commands are refused. -/
def execSecEntropy (test : Nat) (s : State) : Out := s.done (s.dev.secEntropy test)

/-- IDENTITY_RESERVE (R425): Firmware reserves a block of 1,024 identity leaves and writes the state record. -/
def execIdentityReserve (ok : Bool) (s : State) : Out := s.doneFuse (identityReserve s.dev s.otp ok)

/-- LOWER_TREE_DONE (R426): Generation of a lower tree's leaf keys ends and ID_READY rises. -/
def execLowerTreeDone (s : State) : Out := s.done (s.dev.lowerTreeDone)

/-- SEC_CNT_CLR (R436): A write clears the security counters. -/
def execSecCntClr (who : Initiator) (s : State) : Out :=
  s.done (s.dev.regCmd .sec 0xE0 4 true who (fun d => d.secCntClr))

/-- BOOT_CHAIN (R421): After cold or warm reset release the boot ROM and firmware run the boot steps to CP_STATE 2. -/
def execBootChain (images : Option (List (Nat × Bytes))) (entropyOk flashOk : Bool) (sweeps : List Nat)
    (s : State) : Out :=
  s.doneFuse (bootChain s.dev s.otp images entropyOk flashOk sweeps)

/-- PORESET_N_ASSERT (R469): PORESET_N is asserted and the device enters cold reset, ending all work. -/
def execPoresetNAssert (s : State) : Out := s.done (s.dev.poresetAssert)

/-- PORESET_N_RELEASE (R464): PORESET_N is released and the always-on block switches on the Rime and boot/config
domains. -/
def execPoresetNRelease (s : State) : Out := s.done (s.dev.poresetRelease s.otp)

/-- WARM_RESET (R459): A warm reset requested through the management cluster resets all but the always-on domain. -/
def execWarmReset (s : State) : Out := s.done (s.dev.warmReset)

/-- POWER_LOSS (R460): Power is lost, destroying volatile state and work in flight. -/
def execPowerLoss (s : State) : Out := s.done (s.dev.powerLoss)

end Sys2Proof.Machine
end

