-- ==== Sys2Proof/Machine/Dispatch.lean ====
section
/-!
DEFINITION. The dispatch: one arm for each command, a direct call of its meaning.
-/

namespace Sys2Proof.Machine

def exec (i : Instr) (s : State) : Host.Outcome State Fault Refusal :=
  match i with
  | .fabricAccess who pa wr size data poison upset flit => Sys2Proof.Machine.execFabricAccess who pa wr size data poison upset flit s
  | .registerWrite who pa size data => Sys2Proof.Machine.execRegisterWrite who pa size data s
  | .eventQueueDrain => Sys2Proof.Machine.execEventQueueDrain s
  | .evrAckWrite h v => Sys2Proof.Machine.execEvrAckWrite h v s
  | .tagRetire link unit id => Sys2Proof.Machine.execTagRetire link unit id s
  | .tagStallResume link unit => Sys2Proof.Machine.execTagStallResume link unit s
  | .coreWatchdog n slot => Sys2Proof.Machine.execCoreWatchdog n slot s
  | .submit who n desc => Sys2Proof.Machine.execSubmit who n desc s
  | .descIssue n => Sys2Proof.Machine.execDescIssue n s
  | .descComplete n slot => Sys2Proof.Machine.execDescComplete n slot s
  | .steal n => Sys2Proof.Machine.execSteal n s
  | .cplPop who n slot => Sys2Proof.Machine.execCplPop who n slot s
  | .ucodeWrite who n off v => Sys2Proof.Machine.execUcodeWrite who n off v s
  | .ucodeCommit who n => Sys2Proof.Machine.execUcodeCommit who n s
  | .fenceRelease who n => Sys2Proof.Machine.execFenceRelease who n s
  | .bankCntClr who n => Sys2Proof.Machine.execBankCntClr who n s
  | .winCtrlWrite who n w off v => Sys2Proof.Machine.execWinCtrlWrite who n w off v s
  | .windowAccess p => Sys2Proof.Machine.execWindowAccess p s
  | .nop n slot => Sys2Proof.Machine.execNop n slot s
  | .denseMm n slot => Sys2Proof.Machine.execDenseMm n slot s
  | .sparseMmNm n slot => Sys2Proof.Machine.execSparseMmNm n slot s
  | .sparseMmCsr n slot => Sys2Proof.Machine.execSparseMmCsr n slot s
  | .sparseSparseMerge n slot => Sys2Proof.Machine.execSparseSparseMerge n slot s
  | .gather n slot => Sys2Proof.Machine.execGather n slot s
  | .scatterAcc n slot => Sys2Proof.Machine.execScatterAcc n slot s
  | .compressingStore n slot => Sys2Proof.Machine.execCompressingStore n slot s
  | .add n slot => Sys2Proof.Machine.execAdd n slot s
  | .sub n slot => Sys2Proof.Machine.execSub n slot s
  | .mul n slot => Sys2Proof.Machine.execMul n slot s
  | .max n slot => Sys2Proof.Machine.execMax n slot s
  | .min n slot => Sys2Proof.Machine.execMin n slot s
  | .cmpgt n slot => Sys2Proof.Machine.execCmpgt n slot s
  | .cmpeq n slot => Sys2Proof.Machine.execCmpeq n slot s
  | .convert n slot => Sys2Proof.Machine.execConvert n slot s
  | .relu n slot => Sys2Proof.Machine.execRelu n slot s
  | .reduceSum n slot => Sys2Proof.Machine.execReduceSum n slot s
  | .reduceMax n slot => Sys2Proof.Machine.execReduceMax n slot s
  | .reduceMin n slot => Sys2Proof.Machine.execReduceMin n slot s
  | .prune n slot => Sys2Proof.Machine.execPrune n slot s
  | .predict n slot => Sys2Proof.Machine.execPredict n slot s
  | .predictAudit n slot => Sys2Proof.Machine.execPredictAudit n slot s
  | .sparseCntClr who r => Sys2Proof.Machine.execSparseCntClr who r s
  | .recallClr who r => Sys2Proof.Machine.execRecallClr who r s
  | .voxelizeBuild n slot stop => Sys2Proof.Machine.execVoxelizeBuild n slot stop s
  | .voxelizeLabel n slot => Sys2Proof.Machine.execVoxelizeLabel n slot s
  | .voxelizeBev n slot => Sys2Proof.Machine.execVoxelizeBev n slot s
  | .rulebookBuild n slot => Sys2Proof.Machine.execRulebookBuild n slot s
  | .sensorSlotWrite who slot v => Sys2Proof.Machine.execSensorSlotWrite who slot v s
  | .firnCntClr who => Sys2Proof.Machine.execFirnCntClr who s
  | .firnReady => Sys2Proof.Machine.execFirnReady s
  | .mapLookup n slot => Sys2Proof.Machine.execMapLookup n slot s
  | .mapUpdate n slot => Sys2Proof.Machine.execMapUpdate n slot s
  | .req => Sys2Proof.Machine.execReq s
  | .resp => Sys2Proof.Machine.execResp s
  | .upd => Sys2Proof.Machine.execUpd s
  | .fwdReq => Sys2Proof.Machine.execFwdReq s
  | .fwdUpd => Sys2Proof.Machine.execFwdUpd s
  | .lookupServe t step => Sys2Proof.Machine.execLookupServe t step s
  | .updateApply t step => Sys2Proof.Machine.execUpdateApply t step s
  | .stepTimeoutOwner t step => Sys2Proof.Machine.execStepTimeoutOwner t step s
  | .stepTimeoutRequester n slot => Sys2Proof.Machine.execStepTimeoutRequester n slot s
  | .calveStart t key owner => Sys2Proof.Machine.execCalveStart t key owner s
  | .calve => Sys2Proof.Machine.execCalve s
  | .calveAck => Sys2Proof.Machine.execCalveAck s
  | .dirOvr => Sys2Proof.Machine.execDirOvr s
  | .dirAck => Sys2Proof.Machine.execDirAck s
  | .ovrRead who => Sys2Proof.Machine.execOvrRead who s
  | .ovrWrite who => Sys2Proof.Machine.execOvrWrite who s
  | .hotClr who => Sys2Proof.Machine.execHotClr who s
  | .tableDescriptorWrite who t off v => Sys2Proof.Machine.execTableDescriptorWrite who t off v s
  | .morCntClr who => Sys2Proof.Machine.execMorCntClr who s
  | .topkRow n slot => Sys2Proof.Machine.execTopkRow n slot s
  | .topkMerge n slot => Sys2Proof.Machine.execTopkMerge n slot s
  | .engEnWrite who v => Sys2Proof.Machine.execEngEnWrite who v s
  | .sasCntClr who => Sys2Proof.Machine.execSasCntClr who s
  | .vaultRead who pa upset => Sys2Proof.Machine.execVaultRead who pa upset s
  | .vaultWrite writes upset => Sys2Proof.Machine.execVaultWrite writes upset s
  | .vaultRefresh v bank => Sys2Proof.Machine.execVaultRefresh v bank s
  | .scrubRead v upsets => Sys2Proof.Machine.execScrubRead v upsets s
  | .vaultReady v => Sys2Proof.Machine.execVaultReady v s
  | .initStart who v => Sys2Proof.Machine.execInitStart who v s
  | .initDone v => Sys2Proof.Machine.execInitDone v s
  | .vltCntClr who v => Sys2Proof.Machine.execVltCntClr who v s
  | .ringProdWrite who f v => Sys2Proof.Machine.execRingProdWrite who f v s
  | .ringEnWrite who f v => Sys2Proof.Machine.execRingEnWrite who f v s
  | .ringEntryStart f => Sys2Proof.Machine.execRingEntryStart f s
  | .copy f entry => Sys2Proof.Machine.execCopy f entry s
  | .fill f entry => Sys2Proof.Machine.execFill f entry s
  | .submitTransfer f entry => Sys2Proof.Machine.execSubmitTransfer f entry s
  | .ringEntryComplete f entry => Sys2Proof.Machine.execRingEntryComplete f entry s
  | .feCntClr who f => Sys2Proof.Machine.execFeCntClr who f s
  | .translationWalk cache ctx sid va wr => Sys2Proof.Machine.execTranslationWalk cache ctx sid va wr s
  | .enable who c => Sys2Proof.Machine.execEnable who c s
  | .suspend who c => Sys2Proof.Machine.execSuspend who c s
  | .resume who c => Sys2Proof.Machine.execResume who c s
  | .invGo who v => Sys2Proof.Machine.execInvGo who v s
  | .xlInvDone => Sys2Proof.Machine.execXlInvDone s
  | .funcDisable who fn abort => Sys2Proof.Machine.execFuncDisable who fn abort s
  | .funcEnable who fn => Sys2Proof.Machine.execFuncEnable who fn s
  | .regionDescriptorWrite who k off v => Sys2Proof.Machine.execRegionDescriptorWrite who k off v s
  | .tcCntClr who r => Sys2Proof.Machine.execTcCntClr who r s
  | .sigAdd who obj v => Sys2Proof.Machine.execSigAdd who obj v s
  | .syncCfgWrite who obj v => Sys2Proof.Machine.execSyncCfgWrite who obj v s
  | .syncChangeApply obj => Sys2Proof.Machine.execSyncChangeApply obj s
  | .mailboxSend who m msg => Sys2Proof.Machine.execMailboxSend who m msg s
  | .popCh who m c => Sys2Proof.Machine.execPopCh who m c s
  | .mbxTimeout m c => Sys2Proof.Machine.execMbxTimeout m c s
  | .act h bank r early => Sys2Proof.Machine.execAct h bank r early s
  | .pre h bank all early => Sys2Proof.Machine.execPre h bank all early s
  | .rd h bank col bl32 early => Sys2Proof.Machine.execRd h bank col bl32 early s
  | .wr h bank col bl32 data ecc early => Sys2Proof.Machine.execWr h bank col bl32 data ecc early s
  | .maskedWrite h bank col data mask ecc early => Sys2Proof.Machine.execMaskedWrite h bank col data mask ecc early s
  | .mrw h reg v e early => Sys2Proof.Machine.execMrw h reg v e early s
  | .mrr h reg early => Sys2Proof.Machine.execMrr h reg early s
  | .ref h bank early => Sys2Proof.Machine.execRef h bank early s
  | .selfRefreshEntry h early => Sys2Proof.Machine.execSelfRefreshEntry h early s
  | .selfRefreshExit h early => Sys2Proof.Machine.execSelfRefreshExit h early s
  | .training h kind last early => Sys2Proof.Machine.execTraining h kind last early s
  | .unsupportedCommand h => Sys2Proof.Machine.execUnsupportedCommand h s
  | .hostReset h => Sys2Proof.Machine.execHostReset h s
  | .sqProdWrite q v => Sys2Proof.Machine.execSqProdWrite q v s
  | .cqAckWrite q v => Sys2Proof.Machine.execCqAckWrite q v s
  | .hostNop q => Sys2Proof.Machine.execHostNop q s
  | .copyIn q f => Sys2Proof.Machine.execCopyIn q f s
  | .copyOut q f => Sys2Proof.Machine.execCopyOut q f s
  | .frame q core gran => Sys2Proof.Machine.execFrame q core gran s
  | .map q core gran hdrVa => Sys2Proof.Machine.execMap q core gran hdrVa s
  | .run q => Sys2Proof.Machine.execRun q s
  | .publish q f rflags fcnt ts => Sys2Proof.Machine.execPublish q f rflags fcnt ts s
  | .hqComplete q k => Sys2Proof.Machine.execHqComplete q k s
  | .mmpCntClr who h => Sys2Proof.Machine.execMmpCntClr who h s
  | .portEnWrite who p en => Sys2Proof.Machine.execPortEnWrite who p en s
  | .retrain who p => Sys2Proof.Machine.execRetrain who p s
  | .lanesTrained p width => Sys2Proof.Machine.execLanesTrained p width s
  | .partnerIdentity p id x y z dx dy dz => Sys2Proof.Machine.execPartnerIdentity p id x y z dx dy dz s
  | .laneLockLoss p => Sys2Proof.Machine.execLaneLockLoss p s
  | .retrainTimeout p => Sys2Proof.Machine.execRetrainTimeout p s
  | .drainEnd p => Sys2Proof.Machine.execDrainEnd p s
  | .flitReceive p raw upsets => Sys2Proof.Machine.execFlitReceive p raw upsets s
  | .nak p seq => Sys2Proof.Machine.execNak p seq s
  | .packetForward p => Sys2Proof.Machine.execPacketForward p s
  | .escapeTimeout p => Sys2Proof.Machine.execEscapeTimeout p s
  | .rdReq p => Sys2Proof.Machine.execRdReq p s
  | .rdResp p => Sys2Proof.Machine.execRdResp p s
  | .wrAck p => Sys2Proof.Machine.execWrAck p s
  | .signal p => Sys2Proof.Machine.execSignal p s
  | .mbx p => Sys2Proof.Machine.execMbx p s
  | .moraine p => Sys2Proof.Machine.execMoraine p s
  | .coll p => Sys2Proof.Machine.execColl p s
  | .nakAuth p => Sys2Proof.Machine.execNakAuth p s
  | .unreach p => Sys2Proof.Machine.execUnreach p s
  | .linkState p => Sys2Proof.Machine.execLinkState p s
  | .rimeStatus p => Sys2Proof.Machine.execRimeStatus p s
  | .remoteTimeout p tag => Sys2Proof.Machine.execRemoteTimeout p tag s
  | .barrier who x => Sys2Proof.Machine.execBarrier who x s
  | .reduce who x => Sys2Proof.Machine.execReduce who x s
  | .collTopkMerge who x => Sys2Proof.Machine.execCollTopkMerge who x s
  | .allToAll who x => Sys2Proof.Machine.execAllToAll who x s
  | .collRetransmit piece => Sys2Proof.Machine.execCollRetransmit piece s
  | .collTimeout id => Sys2Proof.Machine.execCollTimeout id s
  | .collAbort p => Sys2Proof.Machine.execCollAbort p s
  | .collComplete id => Sys2Proof.Machine.execCollComplete id s
  | .linkCntClr who p => Sys2Proof.Machine.execLinkCntClr who p s
  | .sysCntClr who => Sys2Proof.Machine.execSysCntClr who s
  | .kopMessage => Sys2Proof.Machine.execKopMessage s
  | .canFrame c id fd data => Sys2Proof.Machine.execCanFrame c id fd data s
  | .canSegmentTimeout c => Sys2Proof.Machine.execCanSegmentTimeout c s
  | .canBusOffRecovery c => Sys2Proof.Machine.execCanBusOffRecovery c s
  | .reqSeqWrite slot v secure => Sys2Proof.Machine.execReqSeqWrite slot v secure s
  | .mirrorResponse slot => Sys2Proof.Machine.execMirrorResponse slot s
  | .snapshot => Sys2Proof.Machine.execSnapshot s
  | .dictStore => Sys2Proof.Machine.execDictStore s
  | .dictStoreDone ok => Sys2Proof.Machine.execDictStoreDone ok s
  | .dictRestore => Sys2Proof.Machine.execDictRestore s
  | .ethernetFrame frame fcs => Sys2Proof.Machine.execEthernetFrame frame fcs s
  | .sync m => Sys2Proof.Machine.execSync m s
  | .pdelayReq seq => Sys2Proof.Machine.execPdelayReq seq s
  | .pdelayResp seq t2 t3 => Sys2Proof.Machine.execPdelayResp seq t2 t3 s
  | .announce data => Sys2Proof.Machine.execAnnounce data s
  | .aonTick => Sys2Proof.Machine.execAonTick s
  | .stepGo who => Sys2Proof.Machine.execStepGo who s
  | .rateAdjWrite who v => Sys2Proof.Machine.execRateAdjWrite who v s
  | .syncLoss => Sys2Proof.Machine.execSyncLoss s
  | .pubReq => Sys2Proof.Machine.execPubReq s
  | .pubRspPop who v => Sys2Proof.Machine.execPubRspPop who v s
  | .rimeDeadline stream => Sys2Proof.Machine.execRimeDeadline stream s
  | .whiteoutStart => Sys2Proof.Machine.execWhiteoutStart s
  | .whiteoutDone => Sys2Proof.Machine.execWhiteoutDone s
  | .checkPost n => Sys2Proof.Machine.execCheckPost n s
  | .readbackDone post => Sys2Proof.Machine.execReadbackDone post s
  | .readbackTimeout post => Sys2Proof.Machine.execReadbackTimeout post s
  | .pairOrphan => Sys2Proof.Machine.execPairOrphan s
  | .hbKick who => Sys2Proof.Machine.execHbKick who s
  | .hbLost => Sys2Proof.Machine.execHbLost s
  | .lockstep => Sys2Proof.Machine.execLockstep s
  | .rimeClk => Sys2Proof.Machine.execRimeClk s
  | .rimeSram => Sys2Proof.Machine.execRimeSram s
  | .faultCauseClear who v still => Sys2Proof.Machine.execFaultCauseClear who v still s
  | .safeMaskWrite who v => Sys2Proof.Machine.execSafeMaskWrite who v s
  | .rimeStart => Sys2Proof.Machine.execRimeStart s
  | .rimeRestart => Sys2Proof.Machine.execRimeRestart s
  | .rimePeerSend => Sys2Proof.Machine.execRimePeerSend s
  | .rimePeerSilent peer => Sys2Proof.Machine.execRimePeerSilent peer s
  | .selfTestSliceStart c => Sys2Proof.Machine.execSelfTestSliceStart c s
  | .selfTestSliceEnd ok => Sys2Proof.Machine.execSelfTestSliceEnd ok s
  | .stOverdue c => Sys2Proof.Machine.execStOverdue c s
  | .stReq who v => Sys2Proof.Machine.execStReq who v s
  | .rimeCntClr who => Sys2Proof.Machine.execRimeCntClr who s
  | .streamEnable who stream v => Sys2Proof.Machine.execStreamEnable who stream v s
  | .svnAdvance who arg => Sys2Proof.Machine.execSvnAdvance who arg s
  | .revokeRoot who arg => Sys2Proof.Machine.execRevokeRoot who arg s
  | .provisionLock who => Sys2Proof.Machine.execProvisionLock who s
  | .retire who => Sys2Proof.Machine.execRetire who s
  | .ckGo who c => Sys2Proof.Machine.execCkGo who c s
  | .load who slot ok => Sys2Proof.Machine.execLoad who slot ok s
  | .erase who slot => Sys2Proof.Machine.execErase who slot s
  | .fail who slot => Sys2Proof.Machine.execFail who slot s
  | .nonceWrite nonce => Sys2Proof.Machine.execNonceWrite nonce s
  | .quoteComplete => Sys2Proof.Machine.execQuoteComplete s
  | .kekCommit k => Sys2Proof.Machine.execKekCommit k s
  | .kekErase k => Sys2Proof.Machine.execKekErase k s
  | .managementKeyUnwrap m kek => Sys2Proof.Machine.execManagementKeyUnwrap m kek s
  | .secEntropy test => Sys2Proof.Machine.execSecEntropy test s
  | .identityReserve ok => Sys2Proof.Machine.execIdentityReserve ok s
  | .lowerTreeDone => Sys2Proof.Machine.execLowerTreeDone s
  | .secCntClr who => Sys2Proof.Machine.execSecCntClr who s
  | .bootChain images entropyOk flashOk sweeps => Sys2Proof.Machine.execBootChain images entropyOk flashOk sweeps s
  | .poresetNAssert => Sys2Proof.Machine.execPoresetNAssert s
  | .poresetNRelease => Sys2Proof.Machine.execPoresetNRelease s
  | .warmReset => Sys2Proof.Machine.execWarmReset s
  | .powerLoss => Sys2Proof.Machine.execPowerLoss s
  | .switchOn who k => Sys2Proof.Machine.execSwitchOn who k s
  | .switchOff who k => Sys2Proof.Machine.execSwitchOff who k s
  | .pwrTransitionDone => Sys2Proof.Machine.execPwrTransitionDone s
  | .pllUnlock n => Sys2Proof.Machine.execPllUnlock n s
  | .refclkLoss khz => Sys2Proof.Machine.execRefclkLoss khz s
  | .tempSample regions vaults => Sys2Proof.Machine.execTempSample regions vaults s
  | .poweredSecond => Sys2Proof.Machine.execPoweredSecond s
  | .reqGo who r drain => Sys2Proof.Machine.execReqGo who r drain s
  | .creepMeasureStart r => Sys2Proof.Machine.execCreepMeasureStart r s
  | .creepSweepStep r pass => Sys2Proof.Machine.execCreepSweepStep r pass s
  | .creepMeasureEnd r => Sys2Proof.Machine.execCreepMeasureEnd r s
  | .creepOverdue r => Sys2Proof.Machine.execCreepOverdue r s
  | .creepLogWrite ok => Sys2Proof.Machine.execCreepLogWrite ok s
  | .railRampStep r => Sys2Proof.Machine.execRailRampStep r s
  | .voltWindow r mv => Sys2Proof.Machine.execVoltWindow r mv s
  | .avsAck r => Sys2Proof.Machine.execAvsAck r s
  | .avsRetry r => Sys2Proof.Machine.execAvsRetry r s
  | .railOutOfRange rail => Sys2Proof.Machine.execRailOutOfRange rail s
  | .vddSafeDip => Sys2Proof.Machine.execVddSafeDip s
  | .vddAonPor => Sys2Proof.Machine.execVddAonPor s
  | .pccCntClr who => Sys2Proof.Machine.execPccCntClr who s
  | .moraineReady => Sys2Proof.Machine.execMoraineReady s
  | .sastrugiReady => Sys2Proof.Machine.execSastrugiReady s
  | .remoteWrite p => Sys2Proof.Machine.execRemoteWrite p s
  | .heartbeat => Sys2Proof.Machine.execHeartbeat s
  | .ethernetLinkChange up => Sys2Proof.Machine.execEthernetLinkChange up s
  | .canErrorState c st => Sys2Proof.Machine.execCanErrorState c st s
  | .pllLock n => Sys2Proof.Machine.execPllLock n s
  | .entropySourcePass => Sys2Proof.Machine.execEntropySourcePass s

end Sys2Proof.Machine
end

