-- ==== Sys2Proof/WellFormed.lean ====
section
/-!
DEFINITION. Well-formed commands: every operand lies in the range the spec gives it (Tables 1.2–1.4, 11.3, R234).
Choices of the model: log entry 170.
-/

namespace Sys2Proof

/-- A stream identifier of Table 1.4 and a context of 16 (R24). -/
def Initiator.wf (w : Initiator) : Bool := listedSid w.sid && decide (w.ctx < 16)

/-- A write within one line. -/
def LineWrite.wf (w : LineWrite) : Bool :=
  w.who.wf && decide (w.pa < 2 ^ 48) && decide (w.pa % 64 + w.data.length ≤ 64)

/-- A frequency set point of the three, and values of their widths. -/
def MrEffect.wf : MrEffect → Bool
  | .plain | .readOnly | .linkEcc _ _ => true
  | .unsupported mask => decide (mask < 256)
  | .latency fsp rl => decide (fsp < 3) && decide (rl < 256)
  | .clock fsp rate _ => decide (fsp < 3) && decide (rate < 65536)
  | .activate fsp => decide (fsp < 3)

/-- Symbols of a codeword with a difference each (R234). -/
def okUpset (e : List (Nat × Nat)) : Bool :=
  e.all (fun x => decide (x.1 < 68) && decide (0 < x.2) && decide (x.2 < 256))

/-- Every operand in its range. -/
def Instr.wf : Instr → Bool
  | .fabricAccess who pa _ size data _ upset _ => who.wf && decide (pa < 2 ^ 48) && decide (size < 1025) &&
    decide (data.length ≤ 1024) && okUpset upset
  | .registerWrite who pa size data => who.wf && decide (pa < 2 ^ 48) && decide (size < 1025) &&
    decide (data.length ≤ 64)
  | .eventQueueDrain => true
  | .evrAckWrite h v => decide (h < 2) && decide (v < 2 ^ 32)
  | .tagRetire _ unit _ => decide (unit < 8)
  | .tagStallResume _ unit => decide (unit < 8)
  | .coreWatchdog n slot => decide (n < 512) && decide (slot < 256)
  | .submit who n desc => who.wf && decide (n < 512) && decide (desc.length ≤ 64)
  | .descIssue n => decide (n < 512)
  | .descComplete n slot => decide (n < 512) && decide (slot < 256)
  | .steal n => decide (n < 512)
  | .cplPop who n slot => who.wf && decide (n < 512) && decide (slot < 256)
  | .ucodeWrite who n off v => who.wf && decide (n < 512) && decide (off < 32768) && decide (v < 2 ^ 32)
  | .ucodeCommit who n => who.wf && decide (n < 512)
  | .fenceRelease who n => who.wf && decide (n < 512)
  | .bankCntClr who n => who.wf && decide (n < 512)
  | .winCtrlWrite who n w off v => who.wf && decide (n < 512) && decide (w < 4) && decide (off < 16) &&
    decide (v < 2 ^ 64)
  | .windowAccess p => decide (p < 6)
  | .nop n slot => decide (n < 512) && decide (slot < 256)
  | .denseMm n slot => decide (n < 512) && decide (slot < 256)
  | .sparseMmNm n slot => decide (n < 512) && decide (slot < 256)
  | .sparseMmCsr n slot => decide (n < 512) && decide (slot < 256)
  | .sparseSparseMerge n slot => decide (n < 512) && decide (slot < 256)
  | .gather n slot => decide (n < 512) && decide (slot < 256)
  | .scatterAcc n slot => decide (n < 512) && decide (slot < 256)
  | .compressingStore n slot => decide (n < 512) && decide (slot < 256)
  | .add n slot => decide (n < 512) && decide (slot < 256)
  | .sub n slot => decide (n < 512) && decide (slot < 256)
  | .mul n slot => decide (n < 512) && decide (slot < 256)
  | .max n slot => decide (n < 512) && decide (slot < 256)
  | .min n slot => decide (n < 512) && decide (slot < 256)
  | .cmpgt n slot => decide (n < 512) && decide (slot < 256)
  | .cmpeq n slot => decide (n < 512) && decide (slot < 256)
  | .convert n slot => decide (n < 512) && decide (slot < 256)
  | .relu n slot => decide (n < 512) && decide (slot < 256)
  | .reduceSum n slot => decide (n < 512) && decide (slot < 256)
  | .reduceMax n slot => decide (n < 512) && decide (slot < 256)
  | .reduceMin n slot => decide (n < 512) && decide (slot < 256)
  | .prune n slot => decide (n < 512) && decide (slot < 256)
  | .predict n slot => decide (n < 512) && decide (slot < 256)
  | .predictAudit n slot => decide (n < 512) && decide (slot < 256)
  | .sparseCntClr who r => who.wf && decide (r < 8)
  | .recallClr who r => who.wf && decide (r < 8)
  | .voxelizeBuild n slot _ => decide (n < 512) && decide (slot < 256)
  | .voxelizeLabel n slot => decide (n < 512) && decide (slot < 256)
  | .voxelizeBev n slot => decide (n < 512) && decide (slot < 256)
  | .rulebookBuild n slot => decide (n < 512) && decide (slot < 256)
  | .sensorSlotWrite who slot v => who.wf && decide (slot < 64) && decide (v < 2 ^ 32)
  | .firnCntClr who => who.wf
  | .firnReady => true
  | .mapLookup n slot => decide (n < 512) && decide (slot < 256)
  | .mapUpdate n slot => decide (n < 512) && decide (slot < 256)
  | .req => true
  | .resp => true
  | .upd => true
  | .fwdReq => true
  | .fwdUpd => true
  | .lookupServe t _ => decide (t < 64)
  | .updateApply t _ => decide (t < 64)
  | .stepTimeoutOwner t _ => decide (t < 64)
  | .stepTimeoutRequester n slot => decide (n < 512) && decide (slot < 256)
  | .calveStart t key owner => decide (t < 64) && decide (key < 2 ^ 64) && decide (owner < 64)
  | .calve => true
  | .calveAck => true
  | .dirOvr => true
  | .dirAck => true
  | .ovrRead who => who.wf
  | .ovrWrite who => who.wf
  | .hotClr who => who.wf
  | .tableDescriptorWrite who t off v => who.wf && decide (t < 64) && decide (off < 128) && decide (v < 2 ^ 64)
  | .morCntClr who => who.wf
  | .topkRow n slot => decide (n < 512) && decide (slot < 256)
  | .topkMerge n slot => decide (n < 512) && decide (slot < 256)
  | .engEnWrite who v => who.wf && decide (v < 2 ^ 32)
  | .sasCntClr who => who.wf
  | .vaultRead who pa upset => who.wf && decide (pa < 2 ^ 48) && okUpset upset
  | .vaultWrite writes upset => writes.all (fun w => w.wf) && okUpset upset
  | .vaultRefresh v _ => decide (v < 8)
  | .scrubRead v upsets => decide (v < 8) && upsets.all (fun u => okUpset u.2)
  | .vaultReady v => decide (v < 8)
  | .initStart who v => who.wf && decide (v < 8)
  | .initDone v => decide (v < 8)
  | .vltCntClr who v => who.wf && decide (v < 8)
  | .ringProdWrite who f v => who.wf && decide (f < 64) && decide (v < 2 ^ 32)
  | .ringEnWrite who f v => who.wf && decide (f < 64) && decide (v < 2 ^ 32)
  | .ringEntryStart f => decide (f < 64)
  | .copy f entry => decide (f < 64) && decide (entry < 2 ^ 32)
  | .fill f entry => decide (f < 64) && decide (entry < 2 ^ 32)
  | .submitTransfer f entry => decide (f < 64) && decide (entry < 2 ^ 32)
  | .ringEntryComplete f entry => decide (f < 64) && decide (entry < 2 ^ 32)
  | .feCntClr who f => who.wf && decide (f < 64)
  | .translationWalk cache ctx sid va _ => decide (cache < 11) && decide (ctx < 16) && listedSid sid &&
    decide (va < 2 ^ 48)
  | .enable who c => who.wf && decide (c < 16)
  | .suspend who c => who.wf && decide (c < 16)
  | .resume who c => who.wf && decide (c < 16)
  | .invGo who v => who.wf && decide (v < 2 ^ 32)
  | .xlInvDone => true
  | .funcDisable who fn _ => who.wf && decide (fn < 256)
  | .funcEnable who fn => who.wf && decide (fn < 256)
  | .regionDescriptorWrite who k off v => who.wf && decide (k < 64) && decide (off < 32) && decide (v < 2 ^ 64)
  | .tcCntClr who r => who.wf && decide (r < 8)
  | .sigAdd who obj v => who.wf && decide (obj < 16384) && decide (v < 2 ^ 32)
  | .syncCfgWrite who obj v => who.wf && decide (obj < 16384) && decide (v < 2 ^ 32)
  | .syncChangeApply obj => decide (obj < 16384)
  | .mailboxSend who m msg => who.wf && decide (m < 64) && decide (msg.length ≤ 64)
  | .popCh who m c => who.wf && decide (m < 64) && decide (c < 8)
  | .mbxTimeout m c => decide (m < 64) && decide (c < 8)
  | .act h bank r _ => decide (h < 2) && decide (bank < 16) && decide (r < 32768)
  | .pre h bank _ _ => decide (h < 2) && decide (bank < 16)
  | .rd h bank col _ _ => decide (h < 2) && decide (bank < 16) && decide (col < 1024)
  | .wr h bank col _ data ecc _ => decide (h < 2) && decide (bank < 16) && decide (col < 1024) &&
    decide (data.length ≤ 64) && decide (ecc < 3)
  | .maskedWrite h bank col data mask ecc _ => decide (h < 2) && decide (bank < 16) && decide (col < 1024) &&
    decide (data.length ≤ 32) && decide (mask < 2 ^ 32) && decide (ecc < 3)
  | .mrw h reg v e _ => decide (h < 2) && decide (reg < 256) && decide (v < 2 ^ 32) && e.wf
  | .mrr h reg _ => decide (h < 2) && decide (reg < 256)
  | .ref h bank _ => decide (h < 2) && decide (bank < 16)
  | .selfRefreshEntry h _ => decide (h < 2)
  | .selfRefreshExit h _ => decide (h < 2)
  | .training h _ _ _ => decide (h < 2)
  | .unsupportedCommand h => decide (h < 2)
  | .hostReset h => decide (h < 2)
  | .sqProdWrite q v => decide (q < 32) && decide (v < 2 ^ 32)
  | .cqAckWrite q v => decide (q < 32) && decide (v < 2 ^ 32)
  | .hostNop q => decide (q < 32)
  | .copyIn q f => decide (q < 32) && decide (f < 64)
  | .copyOut q f => decide (q < 32) && decide (f < 64)
  | .frame q core gran => decide (q < 32) && decide (core < 512) && decide (gran < 16384)
  | .map q core gran hdrVa => decide (q < 32) && decide (core < 512) && decide (gran < 16384) &&
    decide (hdrVa < 2 ^ 48)
  | .run q => decide (q < 32)
  | .publish q f rflags fcnt ts => decide (q < 32) && decide (f < 64) && decide (rflags < 65536) &&
    decide (fcnt < 2 ^ 32) && decide (ts < 2 ^ 64)
  | .hqComplete q _ => decide (q < 32)
  | .mmpCntClr who h => who.wf && decide (h < 2)
  | .portEnWrite who p _ => who.wf && decide (p < 6)
  | .retrain who p => who.wf && decide (p < 6)
  | .lanesTrained p width => decide (p < 6) && decide (width < 17)
  | .partnerIdentity p id x y z dx dy dz => decide (p < 6) && decide (id < 64) && decide (x < 256) &&
    decide (y < 256) && decide (z < 256) && decide (dx < 256) && decide (dy < 256) && decide (dz < 256)
  | .laneLockLoss p => decide (p < 6)
  | .retrainTimeout p => decide (p < 6)
  | .drainEnd p => decide (p < 6)
  | .flitReceive p _ upsets => decide (p < 6) && upsets.all (fun u => okUpset u.2)
  | .nak p seq => decide (p < 6) && decide (seq < 4096)
  | .packetForward p => decide (p < 6)
  | .escapeTimeout p => decide (p < 6)
  | .rdReq p => decide (p < 6)
  | .rdResp p => decide (p < 6)
  | .wrAck p => decide (p < 6)
  | .signal p => decide (p < 6)
  | .mbx p => decide (p < 6)
  | .moraine p => decide (p < 6)
  | .coll p => decide (p < 6)
  | .nakAuth p => decide (p < 6)
  | .unreach p => decide (p < 6)
  | .linkState p => decide (p < 6)
  | .rimeStatus p => decide (p < 6)
  | .remoteTimeout p tag => decide (p < 6) && decide (tag < 8192)
  | .barrier who x => who.wf && decide (x.length ≤ 64)
  | .reduce who x => who.wf && decide (x.length ≤ 64)
  | .collTopkMerge who x => who.wf && decide (x.length ≤ 64)
  | .allToAll who x => who.wf && decide (x.length ≤ 64)
  | .collRetransmit _ => true
  | .collTimeout id => decide (id < 2 ^ 40)
  | .collAbort p => decide (p < 6)
  | .collComplete id => decide (id < 2 ^ 40)
  | .linkCntClr who p => who.wf && decide (p < 6)
  | .sysCntClr who => who.wf
  | .kopMessage => true
  | .canFrame c id _ data => decide (c < 2) && decide (id < 2 ^ 29) && decide (data.length ≤ 64)
  | .canSegmentTimeout c => decide (c < 2)
  | .canBusOffRecovery c => decide (c < 2)
  | .reqSeqWrite slot v _ => decide (slot < 12) && decide (v < 2 ^ 32)
  | .mirrorResponse slot => decide (slot < 12)
  | .snapshot => true
  | .dictStore => true
  | .dictStoreDone _ => true
  | .dictRestore => true
  | .ethernetFrame _ _ => true
  | .sync m => decide (m.seq < 65536) && decide (m.src < 2 ^ 80)
  | .pdelayReq seq => decide (seq < 65536)
  | .pdelayResp seq _ _ => decide (seq < 65536)
  | .announce _ => true
  | .aonTick => true
  | .stepGo who => who.wf
  | .rateAdjWrite who v => who.wf && decide (v < 2 ^ 32)
  | .syncLoss => true
  | .pubReq => true
  | .pubRspPop who v => who.wf && decide (v < 2 ^ 32)
  | .rimeDeadline stream => decide (stream < 16)
  | .whiteoutStart => true
  | .whiteoutDone => true
  | .checkPost n => decide (n < 512)
  | .readbackDone _ => true
  | .readbackTimeout _ => true
  | .pairOrphan => true
  | .hbKick who => who.wf
  | .hbLost => true
  | .lockstep => true
  | .rimeClk => true
  | .rimeSram => true
  | .faultCauseClear who v still => who.wf && decide (v < 2 ^ 32) && decide (still < 8)
  | .safeMaskWrite who v => who.wf && decide (v < 2 ^ 32)
  | .rimeStart => true
  | .rimeRestart => true
  | .rimePeerSend => true
  | .rimePeerSilent peer => decide (peer < 64)
  | .selfTestSliceStart c => decide (c < 32)
  | .selfTestSliceEnd _ => true
  | .stOverdue c => decide (c < 32)
  | .stReq who v => who.wf && decide (v < 2 ^ 32)
  | .rimeCntClr who => who.wf
  | .streamEnable who stream v => who.wf && decide (stream < 16) && decide (v < 2 ^ 32)
  | .svnAdvance who arg => who.wf && decide (arg < 128)
  | .revokeRoot who arg => who.wf && decide (arg < 128)
  | .provisionLock who => who.wf
  | .retire who => who.wf
  | .ckGo who c => who.wf && decide (c < 16)
  | .load who slot _ => who.wf && decide (slot < 256)
  | .erase who slot => who.wf && decide (slot < 256)
  | .fail who slot => who.wf && decide (slot < 256)
  | .nonceWrite nonce => decide (nonce.length ≤ 32)
  | .quoteComplete => true
  | .kekCommit k => decide (k < 4)
  | .kekErase k => decide (k < 4)
  | .managementKeyUnwrap m kek => decide (m < 8) && decide (kek < 4)
  | .secEntropy test => decide (test < 256)
  | .identityReserve _ => true
  | .lowerTreeDone => true
  | .secCntClr who => who.wf
  | .bootChain _ _ _ _ => true
  | .poresetNAssert => true
  | .poresetNRelease => true
  | .warmReset => true
  | .powerLoss => true
  | .switchOn who k => who.wf && decide (k < 63)
  | .switchOff who k => who.wf && decide (k < 63)
  | .pwrTransitionDone => true
  | .pllUnlock n => decide (n < 12)
  | .refclkLoss khz => decide (khz < 2 ^ 32)
  | .tempSample regions vaults => decide (regions.length ≤ 8) && decide (vaults.length ≤ 8)
  | .poweredSecond => true
  | .reqGo who r _ => who.wf && decide (r < 8)
  | .creepMeasureStart r => decide (r < 8)
  | .creepSweepStep r _ => decide (r < 8)
  | .creepMeasureEnd r => decide (r < 8)
  | .creepOverdue r => decide (r < 8)
  | .creepLogWrite _ => true
  | .railRampStep r => decide (r < 8)
  | .voltWindow r mv => decide (r < 8) && decide (mv < 65536)
  | .avsAck r => decide (r < 8)
  | .avsRetry r => decide (r < 8)
  | .railOutOfRange rail => decide (rail < 8)
  | .vddSafeDip => true
  | .vddAonPor => true
  | .pccCntClr who => who.wf
  | .moraineReady => true
  | .sastrugiReady => true
  | .remoteWrite p => decide (p < 6)
  | .heartbeat => true
  | .ethernetLinkChange _ => true
  | .canErrorState c st => decide (c < 2) && decide (st < 3)
  | .pllLock n => decide (n < 12)
  | .entropySourcePass => true

end Sys2Proof
end

