-- ==== Sys2Proof/Safety.lean ====
section
/-!
DEFINITION. What claims are stated in: the fused bits, which only ever grow (R417), the canonical form of the byte
memories, and a command that runs to a next state.
-/

namespace Sys2Proof.Safety

open Sys2Proof.Machine

/-- The fused bits hold values of Table 15.1. -/
abbrev FuseWf (o : Otp) : Prop := o.lifecycle ≤ 2 ∧ o.svnMin ≤ 64 ∧ o.idEpoch ≤ 255

/-- Every fused quantity of the second is that of the first or further: no bit that has been blown is ever clear
again. -/
def FuseLe (a b : Otp) : Prop :=
  a.lifecycle ≤ b.lifecycle ∧ a.svnMin ≤ b.svnMin ∧ a.idEpoch ≤ b.idEpoch ∧ a.gradeS = b.gradeS ∧
    ∀ i, a.rootRevoke.testBit i = true → b.rootRevoke.testBit i = true

/-- Commands that may blow fuses: the fuse commands of Table 15.9, identity reservation, the boot chain, and every command
whose accesses reach SEC_CMD: a fabric or register access, and an operation that writes registers by their addresses
(R22). -/
def mayBlow : Instr → Bool
  | .svnAdvance .. | .revokeRoot .. | .provisionLock .. | .retire .. | .identityReserve .. | .bootChain ..
  | .fabricAccess .. | .registerWrite .. | .tagRetire .. | .windowAccess .. | .gather .. | .scatterAcc ..
  | .compressingStore .. | .predict .. | .predictAudit .. | .voxelizeBuild .. | .voxelizeLabel .. | .voxelizeBev ..
  | .rulebookBuild .. | .mapLookup .. | .mapUpdate .. | .req | .resp | .upd | .fwdReq | .fwdUpd | .lookupServe ..
  | .updateApply .. | .stepTimeoutOwner .. | .stepTimeoutRequester .. | .calveStart .. | .calve | .calveAck | .dirOvr
  | .dirAck | .ringEntryStart .. | .copy .. | .fill .. | .submitTransfer .. | .ringEntryComplete .. | .translationWalk ..
  | .resume .. | .funcDisable .. | .copyIn .. | .copyOut .. | .frame .. | .map .. | .run .. | .publish .. | .hqComplete ..
  | .portEnWrite .. | .retrain .. | .lanesTrained .. | .partnerIdentity .. | .laneLockLoss .. | .retrainTimeout ..
  | .drainEnd .. | .flitReceive .. | .nak .. | .packetForward .. | .escapeTimeout .. | .rdReq .. | .rdResp .. | .wrAck ..
  | .signal .. | .mbx .. | .moraine .. | .coll .. | .nakAuth .. | .unreach .. | .linkState .. | .rimeStatus ..
  | .remoteTimeout .. | .barrier .. | .reduce .. | .collTopkMerge .. | .allToAll .. | .collRetransmit .. | .collTimeout ..
  | .collAbort .. | .collComplete .. | .kopMessage | .canFrame .. | .mirrorResponse .. | .pllUnlock .. | .refclkLoss ..
  | .remoteWrite .. | .erase .. | .fail .. => true
  | _ => false

/-- The byte memories are in canonical form. -/
abbrev MemoryWf (s : State) : Prop := Memory.wf s.dev.ram = true

/-- The command answers a next state: it leaves the waiting commands and the fuses as they are, and the device meets
`P`. -/
def Runs (i : Instr) (s : State) (P : Dev → Prop) : Prop :=
  ∃ t, exec i s = .next t ∧ t.pending = s.pending ∧ t.otp = s.otp ∧ P t.dev

/-- What a command makes of the device `d`, the device `e`: none of its accesses met a vault that holds it, and none was a
register write sent on its way (R22, R250). -/
abbrev Undisturbed (d e : Dev) : Prop := (d.anyHolds = false ∨ e.blocked = d.blocked) ∧ e.csrPosts = d.csrPosts

/-- The same for a command of the links, no job having lost a signal to it (R45, R293). -/
abbrev LinkUndisturbed (d e : Dev) : Prop := Undisturbed d e ∧ e.jobsLost = []

/-- A register write passes the checks that stand before its effect: the block exists and answers, and the initiator
carries a stream of Table 1.4 and is secure, or neither the register nor the block's attribute asks for it (R14, R22, R24,
R277). -/
abbrev Writes (d : Dev) (b : Blk) (sec : Bool) (who : Initiator) : Prop :=
  b.exists_ = true ∧ d.answers b = true ∧ listedSid who.sid = true ∧ (who.secure = true ∨ (sec = false ∧ d.blkSecure b = false))

/-- The event is the last record of the queue; or the queue was full, and LOST is owed to the next (R57). -/
def Told (d : Dev) (cls inst status : Nat) (detail : Bytes) : Prop :=
  d.evLost = true ∨ ∃ r, d.evq.getLast? = some r ∧ r.ev.cls = cls ∧ r.ev.inst = inst ∧ r.ev.status = status ∧
    r.ev.detail = detail

/-- Every register field but those named keeps its value. -/
def RegsBut (d e : Dev) (ks : List Nat) : Prop :=
  ∀ (b : Nat) (F : Fld) (k : Nat), F.key b k ∉ ks → e.g b F k = d.g b F k

/-- The fields named read 0 in the block at `b`, every copy of them, and no other register field changes. -/
def Cleared (d e : Dev) (b : Nat) (fs : List Fld) : Prop :=
  (∀ F ∈ fs, ∀ k < F.cnt, e.g b F k = 0) ∧ RegsBut d e (fs.flatMap (fun F => (List.range F.cnt).map (F.key b)))

/-- An entry has issued for this class, and neither ended nor parked: its execution may run. -/
abbrev Ready (d : Dev) (n slot : Nat) (c : Cls) (e : QEntry) : Prop :=
  d.entry n slot = some e ∧ e.desc.cls = some c ∧ e.st ≠ .queued ∧ e.done = false ∧ e.parked = false

/-- The entry is still in its slot with the same descriptor, and its execution has ended. -/
def Ended (d : Dev) (n slot : Nat) (e : QEntry) : Prop :=
  ∃ e', d.entry n slot = some e' ∧ e'.desc = e.desc ∧ e'.st = e.st ∧ e'.done = true

/-- The entry is still in its slot with the same descriptor, and its execution has ended or parked on a fault (R268). -/
def EndedOrParked (d : Dev) (n slot : Nat) (e : QEntry) : Prop :=
  ∃ e', d.entry n slot = some e' ∧ e'.desc = e.desc ∧ e'.st = e.st ∧ (e'.done = true ∨ e'.parked = true)

/-- The oldest message of a kind that Moraine holds is `m`, and its DIR_CRC is the table's (R182, R197). -/
abbrev Message (d : Dev) (kind : Nat) (m : MorMsg) : Prop :=
  d.morUp = true ∧ d.mor.inbox.find? (fun x => x.kind == kind) = some m ∧
    d.gb B.moraine F.moraine_TBL_EN m.table = true ∧ d.g B.moraine F.moraine_DIR_CRC m.table = m.crc

/-- The device once Moraine has taken a message from those that wait, and noted its DIR_CRC (R203). -/
def Taken (d : Dev) (m : MorMsg) : Dev :=
  { d with mor := { d.mor with inbox := d.mor.inbox.erase m, crcs := d.mor.crcs.put (64 * m.table + m.src) m.crc } }

/-- Firmware may take the next command of a host queue: it serves the queue, the command `x` at SQ_CONS stands in staging
without errors and is of the kind the row names, a FENCE finds no command before it, and the number it takes is no other
command's (R318–R320). -/
abbrev HostHead (d : Dev) (q kind : Nat) (x : Bytes) : Prop :=
  q < 32 ∧ d.hqServed q = true ∧ d.gb B.mmp F.mmp_HQ_EN q = true ∧
    d.g B.mmp F.mmp_SQ_CONS q ≠ d.g B.mmp F.mmp_SQ_PROD_SEEN q ∧ d.hqRead q = (d, x, false) ∧
    Hc.kind x false = kind ∧ (Hc.fence x = true → (d.hqueue q).cmds = []) ∧
    (d.hqueue q).cmds.any (fun c => c.id == d.hqIds + 1) = false

/-- Such a command is well formed, and its context is ACTIVE. -/
abbrev HostCommand (d : Dev) (q kind : Nat) (x : Bytes) : Prop :=
  HostHead d q kind x ∧ d.hqBad (q / 16) x false = none ∧ d.ctxState (d.g B.mmp F.mmp_HQ_CTX q) = 1

/-- The newest command that firmware holds of a queue is `x`, and `P` holds of it. -/
def Newest (d : Dev) (q : Nat) (x : Bytes) (P : HCmd → Prop) : Prop :=
  ∃ c, (d.hqueue q).cmds.getLast? = some c ∧ c.bytes = x ∧ P c

/-- A fuse command leaves the fuses at `o` and its result in SEC_RESULT, and changes no other register field. -/
def Blows (i : Instr) (s : State) (o : Otp) (result : Nat) : Prop :=
  ∃ t, exec i s = .next t ∧ t.pending = s.pending ∧ t.otp = o ∧ t.dev.g B.sec F.sec_SEC_RESULT = result ∧
    RegsBut s.dev t.dev [F.sec_SEC_RESULT.key B.sec 0]

/-- The granules that hold the first `k` bytes from granule `g` of core `n`'s scratchpad carry no errors. -/
abbrev Sound (d : Dev) (n g k : Nat) : Prop :=
  ∀ i, i < ceilDiv k 64 → d.sramErr (B.scratch n + 64 * (g + i)) = [] ∧ d.sramErr (B.scratch n + 64 * (g + i) + 32) = []

/-- An operand of `rows` × `len` elements as it stands from granule `g` of core `n`'s scratchpad on. -/
def stored (d : Dev) (n g : Nat) (f : Fmt) (rows len : Nat) : Buf :=
  { data := Memory.readN d.ram (B.scratch n + 64 * g) (64 * ceilDiv (f.planeBytes rows len) 64) }

/-- The results of DENSE_MM, ELEMENTWISE and REDUCE before conversion, as R89 and R91 give them from operands without
errors. -/
def arrayParts (d : Dev) (n : Nat) (x : Desc) (c : Cls) : List (List Part) :=
  let A := fun (r k : Nat) => (stored d n x.srcA.base x.fA r k).rows x.fA r k
  let Bm := fun (r k : Nat) => (stored d n x.srcB.base x.fB r k).rows x.fB r k
  match c with
  | .dense => matOf x.fA.isInt d.serial (A x.m x.k) (Bm x.n x.k)
  | .ew v =>
    let a := (A 1 x.count).headD []
    let nb := if x.bMode = 1 then (if x.fB.isMx then 32 else 1) else x.count
    let b := (Bm 1 nb).headD []
    let int := x.fA.isInt && x.fB.isInt
    if Desc.unary v then [a.map (fun p => ⟨ewOp v x.fA.isInt p.v Val.zero, x.fA.isInt, p.bad, {}⟩)]
    else [List.zipWith (fun p q => ⟨ewOp v int p.v q.v, int, p.bad || q.bad, {}⟩) a
      (if x.bMode = 1 then List.replicate x.count (b.headD Elem.zero) else b)]
  | .reduce v => [(A x.rows x.cols).zipIdx.map (fun r => reduceRow v x.fA.isInt (d.serial + r.2) r.1)]
  | _ => []

/-- The bytes those results are stored as: joined to what DST held where ACCUM asks for it, scaled where FMT_D is narrower
than the accumulator and the results are no comparison's, converted and packed (R62, R63, R69, R90, R91). -/
def arrayBytes (d : Dev) (n : Nat) (x : Desc) (c : Cls) : Bytes :=
  let ps := arrayParts d n x c
  let len := (ps.headD []).length
  let old := stored d n x.dst.base x.fD ps.length len
  let accs := if x.accum then
      ps.zipIdx.map (fun r => r.1.zipIdx.map (fun a => a.1.join x.fD (old.elem x.fD ps.length len 0 r.2 a.2)))
    else ps
  let raw := c == .ew 5 || c == .ew 6
  (packRows x.fD (accs.map (fun r => r.map (fun a => (if raw then a.v else a.scaled x.fD x.scale, a.bad))))).1

/-- The operands of a class that are read carry no errors, DST among them where ACCUM is set. -/
abbrev CleanOperands (d : Dev) (n : Nat) (x : Desc) (c : Cls) (rows cols : Nat) : Prop :=
  (x.accum = true → Sound d n x.dst.base (x.fD.planeBytes rows cols)) ∧
  match c with
  | .dense => Sound d n x.srcA.base (x.fA.planeBytes x.m x.k) ∧ Sound d n x.srcB.base (x.fB.planeBytes x.n x.k)
  | .ew v => Sound d n x.srcA.base (x.fA.planeBytes 1 x.count) ∧ (Desc.unary v = false →
      Sound d n x.srcB.base (x.fB.planeBytes 1 (if x.bMode = 1 then (if x.fB.isMx then 32 else 1) else x.count)))
  | .reduce _ => Sound d n x.srcA.base (x.fA.planeBytes x.rows x.cols)
  | _ => True

/-- The commands of the classes that a core's array or sequencer runs, and PRUNE. -/
def arrayForms (n slot : Nat) : List (Instr × Cls) :=
  [(.nop n slot, .nop), (.denseMm n slot, .dense), (.sparseMmNm n slot, .nm), (.sparseMmCsr n slot, .csr),
   (.sparseSparseMerge n slot, .merge), (.add n slot, .ew 0), (.sub n slot, .ew 1), (.mul n slot, .ew 2),
   (.max n slot, .ew 3), (.min n slot, .ew 4), (.cmpgt n slot, .ew 5), (.cmpeq n slot, .ew 6), (.convert n slot, .ew 7),
   (.relu n slot, .ew 8), (.reduceSum n slot, .reduce 0), (.reduceMax n slot, .reduce 1), (.reduceMin n slot, .reduce 2),
   (.prune n slot, .prune)]

end Sys2Proof.Safety
end

