-- ==== Sys2Proof/Certificates/Slice0/Obligations.lean ====
section
/-!
DEFINITION. The statements for the provers.
-/

open Sys2Proof Sys2Proof.Machine Sys2Proof.Safety

/-! ### The queue, the fuses -/

/-- A step takes the command at the front of the queue and carries it out on the state with the queue's rest. -/
def Obligations.StepRunsFront : Prop :=
  ∀ (c : Instr) (rest : List Instr) (s : State),
    step { s with pending := c :: rest } = exec c { s with pending := rest }

/-- No command stops the machine: each answers a next state, and none adds to the queue or takes from it.

A command that is not one of those that may blow fuses (`mayBlow`) leaves the fuses as they are.

Choices of the model in this statement: log entry 170. -/
def Obligations.EveryCommandAnswers : Prop :=
  (∀ (i : Instr) (s : State), ∃ t, exec i s = .next t ∧ t.pending = s.pending) ∧
  (∀ (i : Instr) (s t : State), mayBlow i = false → exec i s = .next t → t.otp = s.otp)

/-- The fuses at reset hold values of Table 15.1; which values is the model's choice (log entry 2). -/
def Obligations.ResetFuses : Prop :=
  FuseWf State.reset.otp ∧ MemoryWf State.reset ∧ State.reset.pending = []

/-- No step clears a fuse, and none leaves Table 15.1 (R417). -/
def Obligations.FusesOnlyGrow : Prop :=
  ∀ s t : State, step s = .next t → FuseWf s.otp → FuseWf t.otp ∧ FuseLe s.otp t.otp

/-! ### Fabric, registers, events, tags -/

/-- A field with no behaviour of its own, whole within a write (R11): an RW field takes the value its register's table
admits and ignores another, a QoS weight of 0 being stored as 1 (R51); an RW1C field loses exactly the bits written 1; any
other keeps its value; no other field changes.

REGISTER_WRITE of CE_EVT_THRESH of a vault, an RW field of a register of its own: the field takes the value and no
other field changes (R11). -/
def Obligations.RegisterWrites : Prop :=
  (∀ (d : Dev) (b : Blk) (o n v : Nat) (fld : Fld) (k : Nat), o * 8 ≤ fld.off * 8 + fld.lo + fld.bstr * k →
     fld.off * 8 + fld.lo + fld.bstr * k + fld.w ≤ (o + n) * 8 → d.g b.base fld k < 2 ^ fld.w →
     let x := v / 2 ^ (fld.off * 8 + fld.lo + fld.bstr * k - o * 8) % 2 ^ fld.w
     let e := d.plainStore b o n v [(fld, k)]
     (e.g b.base fld k =
       match fld.acc with
       | .rw => if d.fldIgnores b fld k x then d.g b.base fld k else if fld = F.vault_QOS_W ∧ x = 0 then 1 else x
       | .rw1c => d.g b.base fld k - Nat.land (d.g b.base fld k) x
       | _ => d.g b.base fld k) ∧ RegsBut d e [fld.key b.base k]) ∧
  (∀ (s : State) (who : Initiator) (v x : Nat), v < 8 → x < 2 ^ 32 → who.secure = true →
     listedSid who.sid = true → s.dev.answers (.vault v) = true →
     s.dev.secCmd = none →
     Runs (.registerWrite who (B.vault v + 0x18) 4 (natLE 4 x)) s (fun d =>
       d.g (B.vault v) F.vault_CE_EVT_THRESH = x ∧
       RegsBut s.dev d [F.vault_CE_EVT_THRESH.key (B.vault v) 0]))

/-- A register write by a non-secure initiator to an S register, or to a block its attribute makes secure, has no
effect but to be counted and reported: here FENCE_RELEASE, CK_GO and SIG_ADD (R14, R277).

A non-secure access is counted in SEC_WORLD_CNT, which saturates, and changes no other register field (R14,
R436).

Choices of the model in this statement: log entry 73. -/
def Obligations.NonSecureWritesStop : Prop :=
  (∀ (s : State) (who : Initiator) (n c obj v : Nat), who.secure = false → listedSid who.sid = true →
     (n < 512 → s.dev.answers (.core n) = true →
       Runs (.fenceRelease who n) s (fun d => d = s.dev.secWorld (who.req (B.core n + 0x8) 4))) ∧
     (s.dev.answers .sec = true →
       Runs (.ckGo who c) s (fun d => d = s.dev.secWorld (who.req (B.sec + 0x40) 4))) ∧
     (obj < 16384 → s.dev.answers (.sync obj) = true → s.dev.blkSecure (.sync obj) = true →
       Runs (.sigAdd who obj v) s (fun d => d = s.dev.secWorld (who.req (B.sync obj + 0x8) 4)))) ∧
  (∀ (d : Dev) (q : Req), (d.secWorld q).g B.sec F.sec_SEC_WORLD_CNT = min (d.g B.sec F.sec_SEC_WORLD_CNT + 1)
    (2 ^ 32 - 1) ∧
     RegsBut d (d.secWorld q) [F.sec_SEC_WORLD_CNT.key B.sec 0])

/-- FABRIC_ACCESS by a stream of Table 1.4: an access to memory that does not exist or does not serve meets decode failure:
it reads zeros marked poisoned, or is dropped, and is reported with its address and stream; memory and registers keep their
values (R22, R24).

FABRIC_ACCESS: a whole 64-byte word written to a scratchpad that answers and that the region descriptors admit is
stored, clears the poison and the errors of the word, and leaves every other byte as it was (R105, R107, R278).

FABRIC_ACCESS: an aligned read of up to 64 bytes of a scratchpad word without errors answers the bytes as they
stand, unpoisoned, and leaves every byte as it was (R105, R107, R479).

TAG_RETIRE of a vault tag: the tag of that owner and number is free again and every other stays (R47); so is a
tag of a link port once nothing of its message is left to be sent or acknowledged, with no message waiting for a tag.
TAG_STALL_RESUME: once a tag of the vault is free, the access that goes on is one that no older one of its stream precedes,
of the context that the vault's arbiter grants; it takes a tag, and every other access still waits (R39, R48, R248).

Choices of the model in this statement: log entries 54, 63, 74, 168, 197. -/
def Obligations.FabricAccesses : Prop :=
  (∀ (s : State) (who : Initiator) (pa size : Nat) (wr : Bool) (data : Bytes) (poison : Bool),
     listedSid who.sid = true → (who.access pa wr size data poison).legal = true → ¬ (0x2000000000 ≤ pa ∧
       pa < 0x3000000000) →
     ¬ (0x4000000000 ≤ pa ∧ pa < 0x44000000000) → s.dev.memUp pa ≠ some true →
     Runs (.fabricAccess who pa wr size data poison [] .clean) s (fun d =>
       d.resp = some ⟨zeros size, true, 0, 0⟩ ∧ Told d 0x13 0 0x0200 (dtl [(8, pa), (2, who.sid)]) ∧
       d.ram = s.dev.ram ∧ d.dram = s.dev.dram ∧ d.regs = s.dev.regs)) ∧
  (∀ (s : State) (who : Initiator) (pa : Nat) (data : Bytes), 0x1000000000 ≤ pa → pa < 0x1020000000 → pa % 64 = 0 →
     data.length = 64 → listedSid who.sid = true → s.dev.pathUp (who.access pa true 64 data false) = true →
     s.dev.memUp pa = some true → (s.dev.fwCheck (who.access pa true 64 data false)).2 = true →
     Runs (.fabricAccess who pa true 64 data false [] .clean) s (fun d =>
       Memory.readN d.ram pa 64 = data ∧ d.sramErr pa = [] ∧ d.sramErr (pa + 32) = [] ∧
       (∀ a, a < pa ∨ pa + 64 ≤ a → Memory.read d.ram a = Memory.read s.dev.ram a) ∧
       d.resp = some ⟨[], false, 0, 0⟩)) ∧
  (∀ (s : State) (who : Initiator) (pa size : Nat), size ∈ [1, 2, 4, 8, 16, 32, 64] → pa % size = 0 →
     0x1000000000 ≤ pa → pa < 0x1020000000 → listedSid who.sid = true →
     s.dev.pathUp (who.access pa false size [] false) = true → s.dev.memUp pa = some true →
     (s.dev.fwCheck (who.access pa false size [] false)).2 = true →
     s.dev.sramErr (pa / 64 * 64) = [] → s.dev.sramErr (pa / 64 * 64 + 32) = [] →
     Runs (.fabricAccess who pa false size [] false [] .clean) s (fun d =>
       d.resp = some ⟨Memory.readN s.dev.ram pa size, false, 0, 0⟩ ∧ d.ram = s.dev.ram)) ∧
  ((∀ (s : State) (v id : Nat), s.dev.tags.any (fun t => t.owner == .vault v && t.id == id) = true →
     Runs (.tagRetire false v id) s (fun d =>
       d.tags = s.dev.tags.filter (fun t => !(t.owner == .vault v && t.id == id)))) ∧
   (∀ (s : State) (p id : Nat), s.dev.tags.any (fun t => t.owner == .port p && t.id == id) = true →
     s.dev.msgDone p id = true → s.dev.unsent = [] → s.dev.mor.calving = [] →
     Runs (.tagRetire true p id) s (fun d =>
       d.tags = s.dev.tags.filter (fun t => !(t.owner == .port p && t.id == id)))) ∧
   (∀ (s : State) (v : Nat), s.dev.tagFree (.vault v) = true → s.dev.vaultUp v = true → s.dev.vaultHolds v = false →
     let heads := s.dev.stalledHeads (.vault v)
     heads ≠ [] → (∀ x ∈ heads, x.2.ctx < 16) →
     Runs (.tagStallResume false v) s (fun d => ∃ x ∈ heads,
       x.2.ctx = (s.dev.vaultGrant v (heads.map (fun y => y.2.ctx))).1 ∧ d.stalled = s.dev.stalled.erase x ∧
       d.tags.length = s.dev.tags.length + 1)))

/-- An event enters the queue, or is dropped once 4,096 records wait: counted in 0x7006:01, and LOST is owed to the next
record that enters (R57).

EVENT_QUEUE_DRAIN: firmware takes the oldest record and keeps it as the newest of the log of 65,536, and raises no event
where no ring takes a copy (R57); a ring that admits the record and has room holds its 32 bytes as the next entry, and
EVR_PROD advances; one that is full leaves it out, counted in 0x7006 (R58). EVR_ACK_WRITE by a host that may write: EVR_ACK
is recorded and counted in DB_CNT, or ignored and counted in DB_REJECT_CNT where EVR_PROD − EVR_ACK would be negative
(R58). -/
def Obligations.EventsRecorded : Prop :=
  (∀ (d : Dev) (e : Ev),
     (d.evq.length < 4096 → (d.raise e).evq = d.evq ++ [⟨e, d.evLost, d.evSeq⟩] ∧ (d.raise e).evLost = false ∧
       (d.raise e).dictCnt = d.dictCnt) ∧
     (4096 ≤ d.evq.length → (d.raise e).evq = d.evq ∧ (d.raise e).evLost = true ∧
       (d.raise e).dcnt 0x7006 0x01 = min (d.dcnt 0x7006 0x01 + 1) (2 ^ 32 - 1)) ∧
     (d.raise e).regs = d.regs ∧ (d.raise e).ram = d.ram) ∧
  ((∀ (s : State) (r : EvRec) (rest : List EvRec), s.dev.mgmtRuns = true → s.dev.evq = r :: rest →
     let log := (if s.dev.evLog.length < 65536 then s.dev.evLog else s.dev.evLog.drop 1) ++ [r]
     Runs .eventQueueDrain s (fun d => d.evLog = log ∧ (∃ new, d.evq = rest ++ new) ∧
       ((s.dev.chan 0).admits r.ev = false → (s.dev.chan 1).admits r.ev = false →
         d = { s.dev with evq := rest, evLog := log }) ∧
       ∀ h, h < 2 → (s.dev.chan h).admits r.ev = true → (s.dev.chan (1 - h)).admits r.ev = false →
         let c := s.dev.chan h
         let a := B.staging h + (c.evrOff + c.evrProd % 2 ^ c.evrLog2 * 32)
         (sub32 c.evrProd c.evrAck < 2 ^ c.evrLog2 → c.evrOff % 32 = 0 → d.evq = rest ∧
           d.chan h = { c with evrProd := add32 c.evrProd 1 } ∧
           Memory.readN d.ram a 32 = ({ r with lost := r.lost || s.dev.ringLost.getD h 0 != 0 } : EvRec).bytes ∧
           ∀ e, (e < a ∨ a + 32 ≤ e) → Memory.read d.ram e = Memory.read s.dev.ram e) ∧
         (2 ^ c.evrLog2 ≤ sub32 c.evrProd c.evrAck → d.evq = rest ∧ d.ram = s.dev.ram ∧ d.chans = s.dev.chans ∧
           d.dcnt 0x7006 (2 + h) = min (s.dev.dcnt 0x7006 (2 + h) + 1) (2 ^ 32 - 1)))) ∧
   (∀ (s : State) (h v : Nat), s.dev.chWrites h = true → v < 2 ^ 32 →
     (0 ≤ sint 32 (sub32 (s.dev.chan h).evrProd v) → Runs (.evrAckWrite h v) s (fun d =>
       d.chan h = { s.dev.chan h with evrAck := v } ∧
       d.g B.mmp F.mmp_DB_CNT h = min (s.dev.g B.mmp F.mmp_DB_CNT h + 1) (2 ^ 32 - 1) ∧
       RegsBut s.dev d [F.mmp_DB_CNT.key B.mmp h] ∧ d.ram = s.dev.ram)) ∧
     (sint 32 (sub32 (s.dev.chan h).evrProd v) < 0 → Runs (.evrAckWrite h v) s (fun d => d.chans = s.dev.chans ∧
       d.g B.mmp F.mmp_DB_REJECT_CNT h = min (s.dev.g B.mmp F.mmp_DB_REJECT_CNT h + 1) (2 ^ 32 - 1) ∧
       RegsBut s.dev d [F.mmp_DB_REJECT_CNT.key B.mmp h] ∧ d.ram = s.dev.ram))))

/-! ### Core queues and windows -/

/-- SUBMIT: a descriptor that Table 3.5 does not refuse is enqueued as the youngest entry, QUEUED, whatever its slot
(R93–R95); a refused one is recorded in SUBMIT_REFUSED, counted, and leaves the queue as it was (R94).

Choices of the model in this statement: log entries 11, 12, 13, 193. -/
def Obligations.SubmitEnqueuesOrRefuses : Prop :=
  ∀ (s : State) (who : Initiator) (n : Nat) (x : Bytes), n < 512 → x.length = 64 → listedSid who.sid = true →
    s.dev.answers (.core n) = true →
    (s.dev.submitStatus n who.ctx x = none →
      Runs (.submit who n x) s (fun d => ∃ e : QEntry, (d.core n).q = (s.dev.core n).q ++ [e] ∧ e.desc = x ∧
        e.st = .queued ∧ e.exec = n ∧ e.done = false ∧ d.regs = s.dev.regs ∧ d.ram = s.dev.ram ∧
        ∀ m, m ≠ n → d.core m = s.dev.core m)) ∧
    (∀ st, s.dev.submitStatus n who.ctx x = some st → st < 2 ^ 16 → who.sid < 2 ^ 12 →
      Runs (.submit who n x) s (fun d => d.cores = s.dev.cores ∧ d.g (B.core n) F.core_REF_STATUS = st ∧
        d.g (B.core n) F.core_REF_STREAM = who.sid ∧ d.gb (B.core n) F.core_REF_VALID = true ∧
        d.g (B.core n) F.core_SUBMIT_DROP_CNT = min (s.dev.g (B.core n) F.core_SUBMIT_DROP_CNT + 1) (2 ^ 32 - 1) ∧
        Told d 0x01 n st (s.dev.refuseDetail n who.sid st)))

/-- DESC_ISSUE: the head whose sync objects have been admitted, whose wait has held, which is valid, whose block is on
and which the conditions of R96 let issue is ISSUED on its core, ISSUE_CNT counts it, and HEAD_WAIT_CYC restarts; a head
not yet checked is checked first, and one that a sync object refuses ends with 0x0101 and is kept as the newest record
(R96, R291); one whose block is off ends with 0x0205 (R280).

DESC_ISSUE: an invalid head is refused at issue with 0x0210 and its reason; the SRAMs keep their bytes (R96,
R102).

Choices of the model in this statement: log entries 18, 19, 186. -/
def Obligations.HeadsIssue : Prop :=
  (∀ (s : State) (n : Nat) (e : QEntry), n < 512 → s.dev.clusterUp (clusterOf n) = true →
     s.dev.slotHeld (clusterOf n) = false → s.dev.gb (B.core n) F.core_FENCED = false → s.dev.head n = some e →
     s.dev.entry n e.slot = some e → e.desc.invalid = none →
     let issues := fun (d1 : Dev) => Runs (.descIssue n) s (fun d => ∃ e', d.entry n e.slot = some e' ∧
       e'.st = .issued ∧
       e'.exec = n ∧ e'.desc = e.desc ∧ e'.done = e.done ∧ d.ram = s.dev.ram ∧ d.dram = s.dev.dram ∧
       d.regs = ((d1.incW (B.core n) F.core_ISSUE_CNT).p (B.core n) F.core_HEAD_WAIT_CYC 0).regs ∧
       d.g (B.core n) F.core_ISSUE_CNT = (s.dev.g (B.core n) F.core_ISSUE_CNT + 1) % 2 ^ 64 ∧
       d.g (B.core n) F.core_HEAD_WAIT_CYC = 0)
     (e.checked = true → (e.desc.waitEn = false ∨ e.released = true) →
       (s.dev.blockOff n e.desc = false → s.dev.mayIssue n e = true → issues s.dev) ∧
       (s.dev.blockOff n e.desc = true → Runs (.descIssue n) s (fun d => d.entry n e.slot = none ∧ d.ram = s.dev.ram ∧
         (d.core n).cpl = (s.dev.core n).cpl ++ [⟨e.slot, cplRecord e 0x0205 0 s.dev.t32, e.own⟩]))) ∧
     (e.checked = false →
       let a := s.dev.syncAdmit n e.desc
       (a.2.1 = none → e.desc.waitEn = false → ∀ e1, (a.1.headWait n e).entry n e.slot = some e1 →
         (a.1.headWait n e).blockOff n e.desc = false → (a.1.headWait n e).mayIssue n e1 = true →
         issues (a.1.headWait n e)) ∧
       (∀ w, a.2.1 = some w → Runs (.descIssue n) s (fun d => d.entry n e.slot = none ∧ d.ram = s.dev.ram ∧
         ∃ r, (d.core n).cpl = (s.dev.core n).cpl ++ [r] ∧ r.slot = e.slot ∧ fieldN r.bytes 0 2 = 0x0101 ∧
           fieldN r.bytes 12 4 = w % 2 ^ 32)))) ∧
  (∀ (s : State) (n r : Nat) (e : QEntry), n < 512 → s.dev.clusterUp (clusterOf n) = true →
     s.dev.slotHeld (clusterOf n) = false → s.dev.gb (B.core n) F.core_FENCED = false → s.dev.head n = some e →
     s.dev.entry n e.slot = some e → e.desc.invalid = some r →
     Runs (.descIssue n) s (fun d => d.entry n e.slot = none ∧ d.ram = s.dev.ram ∧
       (d.core n).cpl = (s.dev.core n).cpl ++ [⟨e.slot, cplRecord e 0x0210 r s.dev.t32, e.own⟩]))

/-- DESC_COMPLETE: an entry whose execution has ended, with nothing of it outstanding and no running ABORT, leaves the
queue, and the other slots of its core stay used; its completion record, with the status that ranks first, is kept as the
newest, unless the status is OK and the descriptor suppresses it (R99, R100); the SRAMs and the DRAM keep what they hold.
The signal of an entry that has been checked and is not denied has reached its object: no change waits there (R99).

STEAL: an idle thief takes the entry that the search of R132 finds; the entry stays in the victim's queue, the thief
executes it and its ISSUE_CNT counts it, and STEAL_IN_CNT of the thief's cluster and STEAL_OUT_CNT of the victim's count
the steal, STEAL_XCL_CNT too where the clusters differ (R131–R135). An entry whose sync objects are checked only now and
refuse it ends with 0x0101 (R291).

Choices of the model in this statement: log entries 20, 194, 210. -/
def Obligations.EntriesMove : Prop :=
  (∀ (s : State) (n slot : Nat) (e : QEntry), s.dev.entry n slot = some e → e.st ≠ .queued → e.done = true →
     s.dev.entryAborted n e = false → s.dev.remoteOps.any (fun r => r.op == .core n slot) = false → e.held = 0 →
     (s.dev.core e.exec).posts.any (fun p => p.home == n && p.slot == slot) = false →
     Runs (.descComplete n slot) s (fun d => d.entry n slot = none ∧ d.ram = s.dev.ram ∧ d.dram = s.dev.dram ∧
       (d.core n).q.map (·.slot) = ((s.dev.core n).q.filter (fun x => x.slot != slot)).map (·.slot) ∧
       (d.core n).cpl = (if e.res.final.1 ≠ 0 || !e.desc.cplSuppress then
         (s.dev.core n).cpl ++ [⟨slot, cplRecord e e.res.final.1 e.res.final.2 s.dev.t32, e.own⟩]
         else (s.dev.core n).cpl) ∧
       (e.desc.sigEn = false → e.watching = false →
         (d.core n).q = (s.dev.core n).q.filter (fun x => x.slot != slot) ∧ d.syncPending = s.dev.syncPending) ∧
       (e.desc.sigEn = true → e.sigDenied = false → e.checked = true →
         s.dev.domOn (Dom.region (syncHome e.desc.sigIdx)) = true → d.syncPending.getD e.desc.sigIdx [] = []))) ∧
  (∀ (s : State) (t v : Nat) (e : QEntry), t < 512 → v < 512 → s.dev.isThief t = true →
    s.dev.stealChoice t = some (v, e) →
     s.dev.entry v e.slot = some e →
     let a := s.dev.syncAdmit v e.desc
     let up := fun (d : Dev) (F : Fld) (c : Nat) => d.g (B.spu (regionOf t)) F c =
       min (s.dev.g (B.spu (regionOf t)) F c + 1) (2 ^ F.w - 1)
     (e.checked = true ∨ a.2.1 = none → Runs (.steal t) s (fun d => (∃ e', d.entry v e.slot = some e' ∧
       e'.st = .stolen ∧
         e'.exec = t ∧ e'.desc = e.desc) ∧ d.ram = s.dev.ram ∧ d.dram = s.dev.dram ∧
       d.g (B.core t) F.core_ISSUE_CNT = (s.dev.g (B.core t) F.core_ISSUE_CNT + 1) % 2 ^ 64 ∧
       up d F.spu_STEAL_IN_CNT (clusterOf t % 4) ∧ up d F.spu_STEAL_OUT_CNT (clusterOf v % 4) ∧
       (clusterOf t ≠ clusterOf v → up d F.spu_STEAL_XCL_CNT (clusterOf t % 4)) ∧
       (clusterOf t = clusterOf v → ∀ c < 4, d.g (B.spu (regionOf t)) F.spu_STEAL_XCL_CNT c =
         s.dev.g (B.spu (regionOf t)) F.spu_STEAL_XCL_CNT c))) ∧
     (∀ w, e.checked = false → a.2.1 = some w → Runs (.steal t) s (fun d => d.entry v e.slot = none ∧
       d.ram = s.dev.ram ∧
       ∃ r, (d.core v).cpl = (s.dev.core v).cpl ++ [r] ∧ r.slot = e.slot ∧ fieldN r.bytes 0 2 = 0x0101)))

/-- CORE_WATCHDOG: the core that executes an array or NOP entry without progress is fenced and its ST_PASS clears, and
CORE_WATCHDOG is raised with the core, the entry's slot and its CTX_TAG; the SRAMs and the DRAM keep what they hold
(R30).

CPL_POP: the oldest record leaves where its QSLOT is named; otherwise no record leaves, and nothing but
CPL_POP_MISS_CNT changes among the registers (R101).

UCODE_WRITE: an idle core with an empty queue, or a fenced one, takes the word, and UCODE_VALID clears; otherwise the
write is refused, counted in 0x7001:02 and raised (R115). UCODE_COMMIT sets UCODE_VALID on an idle core with an empty queue
alone (R116). FENCE_RELEASE takes a core out of its fence where ST_PASS is 1, and has no effect otherwise (R30).

Choices of the model in this statement: log entries 17, 168, 210. -/
def Obligations.CoreCommands : Prop :=
  (∀ (s : State) (n slot : Nat) (e : QEntry), s.dev.entry n slot = some e → e.st ≠ .queued →
     (e.desc.onArray = true ∨ e.desc.cls = some .nop) →
     Runs (.coreWatchdog n slot) s (fun d => d.gb (B.core e.exec) F.core_FENCED = true ∧
       d.gb (B.core e.exec) F.core_ST_PASS = false ∧ d.ram = s.dev.ram ∧ d.dram = s.dev.dram ∧
       Told d 0x01 e.exec 0x0217 (dtl [(2, e.exec), (1, slot), (2, e.desc.ctxTag)]))) ∧
  (∀ (s : State) (who : Initiator) (n slot : Nat), slot < 256 → Writes s.dev (.core n) true who →
     (∀ r rs, (s.dev.core n).cpl = r :: rs → r.slot = slot →
       Runs (.cplPop who n slot) s (fun d => d = s.dev.setCore n { s.dev.core n with cpl := rs })) ∧
     (((s.dev.core n).cpl.head?.map (·.slot)) ≠ some slot →
       Runs (.cplPop who n slot) s (fun d => d.cores = s.dev.cores ∧
         d.g (B.core n) F.core_CPL_POP_MISS_CNT = min (s.dev.g (B.core n) F.core_CPL_POP_MISS_CNT + 1) (2 ^ 32 - 1) ∧
         RegsBut s.dev d [F.core_CPL_POP_MISS_CNT.key (B.core n) 0]))) ∧
  (∀ (s : State) (who : Initiator) (n : Nat), Writes s.dev (.core n) true who →
     (∀ off v, off % 4 = 0 → off < 0x8000 → v < 2 ^ 32 →
       (((s.dev.core n).idle = true ∧ (s.dev.core n).used = 0) ∨ s.dev.gb (B.core n) F.core_FENCED = true →
         Runs (.ucodeWrite who n off v) s (fun d => (d.core n).ucode.getD off 0 = v ∧
           (∀ o, o ≠ off → (d.core n).ucode.getD o 0 = (s.dev.core n).ucode.getD o 0) ∧
           d.gb (B.core n) F.core_UCODE_VALID = false ∧
           RegsBut s.dev d [F.core_UCODE_VALID.key (B.core n) 0])) ∧
       (¬ ((s.dev.core n).idle = true ∧ (s.dev.core n).used = 0) → s.dev.gb (B.core n) F.core_FENCED = false →
         Runs (.ucodeWrite who n off v) s (fun d => d.cores = s.dev.cores ∧ d.regs = s.dev.regs ∧
           d.dcnt 0x7001 0x02 = min (s.dev.dcnt 0x7001 0x02 + 1) (2 ^ 32 - 1) ∧
           Told d 0x01 n 0x0215 (dtl [(2, n), (2, who.sid)])))) ∧
     Runs (.ucodeCommit who n) s (fun d => d.gb (B.core n) F.core_UCODE_VALID =
       (s.dev.gb (B.core n) F.core_UCODE_VALID || ((s.dev.core n).idle && (s.dev.core n).used == 0)) ∧
       RegsBut s.dev d [F.core_UCODE_VALID.key (B.core n) 0] ∧ d.cores = s.dev.cores) ∧
     Runs (.fenceRelease who n) s (fun d => d.gb (B.core n) F.core_FENCED =
       (s.dev.gb (B.core n) F.core_FENCED && !s.dev.gb (B.core n) F.core_ST_PASS) ∧
       RegsBut s.dev d [F.core_FENCED.key (B.core n) 0] ∧ d.cores = s.dev.cores))

/-- WIN_CTRL_WRITE: WIN_RANGE and WIN_PEERS of an open window keep their values, and so does its KEY_SLOT under a change,
each rewrite being raised with its address; those of a closed one take the value written. A write of WIN_CTRL opens a closed
window where its range fits the scratchpad, and closes it with WIN_EN 0; its permissions follow the write (R113).

A window admits a peer's access only where it is open, holds the whole access, grants its direction, has the package
in its peer set and is bound to the packet's job key (R111).

Choices of the model in this statement: log entries 80, 180. -/
def Obligations.Windows : Prop :=
  (∀ (s : State) (who : Initiator) (n w v : Nat), w < 4 → Writes s.dev (.core n) true who →
     let told := fun (d : Dev) (o : Nat) =>
       Told d 0x01 n 0x0214 (dtl [(8, B.core n + 0x100 + 0x10 * w + o), (2, who.sid), (1, s.dev.pkgId)])
     (s.dev.gb (B.core n) F.core_WIN_EN w = true →
       Runs (.winCtrlWrite who n w 0 v) s (fun d => d.regs = s.dev.regs ∧ told d 0) ∧
       Runs (.winCtrlWrite who n w 8 v) s (fun d => d.regs = s.dev.regs ∧ told d 8) ∧
       Runs (.winCtrlWrite who n w 4 v) s (fun d =>
         d.g (B.core n) F.core_KEY_SLOT w = s.dev.g (B.core n) F.core_KEY_SLOT w ∧
         (s.dev.g (B.core n) F.core_KEY_SLOT w ≠ v / 2 ^ (F.core_KEY_SLOT.lo % 32) % 2 ^ F.core_KEY_SLOT.w →
           told d 4))) ∧
     (s.dev.gb (B.core n) F.core_WIN_EN w = false → v < 2 ^ 32 →
       Runs (.winCtrlWrite who n w 0 v) s (fun d => d.g (B.core n) F.core_WIN_BASE w = v % 65536 ∧
         d.g (B.core n) F.core_WIN_LEN w = v / 65536 ∧
         RegsBut s.dev d [F.core_WIN_BASE.key (B.core n) w, F.core_WIN_LEN.key (B.core n) w])) ∧
     (s.dev.gb (B.core n) F.core_WIN_EN w = false → v < 2 ^ 64 →
       Runs (.winCtrlWrite who n w 8 v) s (fun d => d.g (B.core n) F.core_PEER_SET w = v ∧
         RegsBut s.dev d [F.core_PEER_SET.key (B.core n) w])) ∧
     Runs (.winCtrlWrite who n w 4 v) s (fun d => d.gb (B.core n) F.core_WIN_EN w =
       (bit v 0 && (s.dev.gb (B.core n) F.core_WIN_EN w ||
         decide (s.dev.g (B.core n) F.core_WIN_BASE w + s.dev.g (B.core n) F.core_WIN_LEN w ≤ 16384))) ∧
       (∀ fld ∈ [F.core_PERM_R, F.core_PERM_W, F.core_WIN_CONTEXT, F.core_WIN_SECURE],
         d.g (B.core n) fld w = v / 2 ^ (fld.lo % 32) % 2 ^ fld.w) ∧
       RegsBut s.dev d ([F.core_PERM_R, F.core_PERM_W, F.core_WIN_CONTEXT, F.core_WIN_SECURE, F.core_KEY_SLOT,
         F.core_WIN_EN].map (fun fld => fld.key (B.core n) w)))) ∧
  (∀ (d : Dev) (n gran len pkg slot w : Nat) (wr : Bool), d.winFor n gran len pkg slot wr = some w →
     w < 4 ∧ d.gb (B.core n) F.core_WIN_EN w = true ∧ d.g (B.core n) F.core_WIN_BASE w ≤ gran ∧
     gran + len ≤ d.g (B.core n) F.core_WIN_BASE w + d.g (B.core n) F.core_WIN_LEN w ∧
     (if wr then d.gb (B.core n) F.core_PERM_W w else d.gb (B.core n) F.core_PERM_R w) = true ∧
     bit (d.g (B.core n) F.core_PEER_SET w) pkg = true ∧ d.g (B.core n) F.core_KEY_SLOT w = slot)

/-! ### The classes of Table 3.3 -/

/-- NOP, DENSE_MM, SPARSE_MM_NM, SPARSE_MM_CSR, SPARSE_SPARSE_MERGE, the ELEMENTWISE forms (ADD, SUB, MUL, MAX, MIN, CMPGT,
CMPEQ, CONVERT, RELU), REDUCE (SUM, MAX, MIN) and PRUNE: an issued entry runs to its end on a core that is on and not fenced,
whatever its operands hold; it waits for DESC_COMPLETE with what it met, and every entry of the other cores stays. NOP leaves
the SRAMs and the DRAM as they are, and the other classes but PRUNE the DRAM (R29, R86, R89, R91, R99, R117, R125).

An entry whose core is fenced, or whose cluster is off, makes no progress: its command leaves everything as it was
(R30).

Choices of the model in this statement: log entries 17, 195. -/
def Obligations.ArrayEntriesEnd : Prop :=
  (∀ (s : State) (n slot : Nat) (c : Cls) (i : Instr) (e : QEntry), (i, c) ∈ arrayForms n slot →
     Ready s.dev n slot c e → s.dev.domOn (Dom.cluster (clusterOf n)) = true →
     s.dev.gb (B.core e.exec) F.core_FENCED = false →
     Runs i s (fun d => Ended d n slot e ∧ d.engines = s.dev.engines ∧
       (∀ m, m ≠ n → (d.core m).q = (s.dev.core m).q) ∧
       (c ≠ .prune → d.dram = s.dev.dram) ∧ (c = .nop → d.ram = s.dev.ram))) ∧
  (∀ (s : State) (n slot : Nat) (c : Cls) (i : Instr) (e : QEntry), (i, c) ∈ arrayForms n slot →
    Ready s.dev n slot c e →
     (s.dev.gb (B.core e.exec) F.core_FENCED = true ∨ s.dev.domOn (Dom.cluster (clusterOf n)) = false) →
     Runs i s (fun d => d = s.dev))

/-- DENSE_MM, SPARSE_MM_NM, SPARSE_MM_CSR, SPARSE_SPARSE_MERGE, ELEMENTWISE (ADD, SUB, MUL, MAX, MIN, CMPGT, CMPEQ, CONVERT,
RELU) and REDUCE (SUM, MAX, MIN) store into the granules of their result from DST on, and leave every other byte of the SRAMs
as it was (R84, R89, R91, R117, R125); the rows of a result in an MX format are whole blocks (R63). Where the operands that
DENSE_MM, ELEMENTWISE and REDUCE read carry no errors, the bytes at DST are the results, joined to what DST held under ACCUM,
scaled, converted and packed (R62, R63, R69, R90, R91). -/
def Obligations.ArrayStoresAtDst : Prop :=
  ∀ (s : State) (n slot rows cols : Nat) (c : Cls) (i : Instr) (e : QEntry),
    (i, c) ∈ arrayForms n slot → c ≠ .nop → c ≠ .prune →
    (match c with
     | .ew _ => rows = 1 ∧ cols = e.desc.count
     | .reduce _ => rows = 1 ∧ cols = e.desc.rows
     | _ => rows = e.desc.m ∧ cols = e.desc.n) →
    Ready s.dev n slot c e → s.dev.domOn (Dom.cluster (clusterOf n)) = true →
    s.dev.gb (B.core e.exec) F.core_FENCED = false → (e.desc.fD.isMx = true → cols % 32 = 0) →
    Runs i s (fun d =>
      (∀ a, (a < B.scratch n + 64 * e.desc.dst.base ∨
        B.scratch n + 64 * e.desc.dst.base + alignUp (e.desc.fD.planeBytes rows cols) 64 ≤ a) →
        Memory.read d.ram a = Memory.read s.dev.ram a) ∧
      (c ≠ .nm → c ≠ .csr → c ≠ .merge → CleanOperands s.dev n e.desc c rows cols →
        Memory.readN d.ram (B.scratch n + 64 * e.desc.dst.base) (arrayBytes s.dev n e.desc c).length =
          arrayBytes s.dev n e.desc c))

/-- What ELEMENTWISE computes of one pair (R79, R91): CMPGT and CMPEQ give 1 or 0; RELU keeps a value that is not
negative and replaces a negative one with zero; MAX and MIN of a NaN and a number give the number.

With integer operands an element of D is the exact sum of the products of its row of A and its row of B, poisoned
exactly where one of them was read poisoned (R68, R89, R103). -/
def Obligations.ArrayArithmetic : Prop :=
  (∀ (int : Bool) (a b : Val),
     ewOp 5 int a b = Val.ofInt (if Val.lt b a then 1 else 0) ∧
       ewOp 6 int a b = Val.ofInt (if Val.eq a b then 1 else 0) ∧
     (a.isNeg = true → ewOp 8 int a b = Val.zero) ∧ (a.isNeg = false → ewOp 8 true a b = a) ∧
     (a.isNan = false → ewOp 3 int .nan a = a ∧ ewOp 3 int a .nan = a ∧ ewOp 4 int .nan a = a ∧
       ewOp 4 int a .nan = a)) ∧
  (∀ (serial : Nat) (l : List (Int × Int × Bool)),
     dotOf true serial (l.map (fun x => (⟨Val.ofInt x.1, false, x.2.2⟩, ⟨Val.ofInt x.2.1, false, false⟩))) =
       ⟨Val.ofInt ((l.map (fun x => x.1 * x.2.1)).sum), true, l.any (fun x => x.2.2), {}⟩)

/-- PREDICT and PREDICT_AUDIT of an issued entry run to their end where the Spindrift of the region runs, or PREDICT parks
on a translation fault (R140, R142, R168, R268). COMPRESSING_STORE ends or parks where its engine serves and has a free tag
(R48, R139, R269). The entry waits meanwhile for no vault, and its accesses write no register (R22, R250).

VOXELIZE_BUILD, VOXELIZE_LABEL, VOXELIZE_BEV and RULEBOOK_BUILD of an issued entry whose turn it is run to their end
where Firn serves and is READY, or park on a translation fault (R155, R156, R158, R171–R173, R175, R268); no vault holds
their accesses, and these write no register (R22, R250).

TOPK_ROW and TOPK_MERGE of an issued entry where Sastrugi serves and is READY: rows start in the order of receipt, one
on each free engine; once every row has started, or under an ABORT, what runs of the entry ends, and the entry with it
(R213, R216, R219, R220, R226).

GATHER of one granule at a mapped address of the package, where its engine has a free tag, runs to its end: unless a
scratchpad access is refused, the granule read stands at DST. SCATTER_ACC ends or parks where its engine serves and has a free
tag (R48, R92, R256, R268, R269). Where their indices name no row (0xFFFF_FFFF, at or above ROW_LIMIT, or read poisoned), both
run to their end and leave the DRAM as it was, SCATTER_ACC the SRAMs too: the indices at or above ROW_LIMIT are counted for the
DETAIL of 0x0216; a refused access of the scratchpad ends them with FW_DENIED (R92, R268, R278).

Choices of the model in this statement: log entries 29, 35, 36, 52, 190, 191, 201. -/
def Obligations.EngineEntriesEnd : Prop :=
  (∀ (s : State) (n slot : Nat) (e : QEntry),
     (Ready s.dev n slot .predict e → e.desc.audit = false → s.dev.spindriftUp (regionOf n) = true →
       Undisturbed s.dev (s.dev.runPredict n slot false) →
       Runs (.predict n slot) s (fun d => EndedOrParked d n slot e)) ∧
     (Ready s.dev n slot .predict e → e.desc.audit = true → s.dev.spindriftUp (regionOf n) = true →
       Undisturbed s.dev (s.dev.runPredict n slot true) →
       Runs (.predictAudit n slot) s (fun d => Ended d n slot e ∧
         (n < 512 → e.desc.invalid = none → d.dram = s.dev.dram))) ∧
     (Ready s.dev n slot .store e → s.dev.feReady (engineOf n) = true → s.dev.feTagFree (engineOf n) = true →
       Undisturbed s.dev (s.dev.runStore n slot) →
       Runs (.compressingStore n slot) s (fun d => EndedOrParked d n slot e))) ∧
  (∀ (s : State) (n slot : Nat) (stop : Option Nat) (e : QEntry), s.dev.domUp Dom.firn = true →
     s.dev.gb B.firn F.firn_READY = true → s.dev.firnTurn e = true →
     (Ready s.dev n slot .voxelize e →
       (e.desc.param 0x30 1 = 0 → Undisturbed s.dev (s.dev.runVoxBuild n slot stop) →
         Runs (.voxelizeBuild n slot stop) s (fun d => EndedOrParked d n slot e)) ∧
       (e.desc.param 0x30 1 = 1 → Undisturbed s.dev (s.dev.runVoxLabel n slot) →
         Runs (.voxelizeLabel n slot) s (fun d => EndedOrParked d n slot e)) ∧
       (e.desc.param 0x30 1 = 2 → Undisturbed s.dev (s.dev.runVoxBev n slot) →
         Runs (.voxelizeBev n slot) s (fun d => EndedOrParked d n slot e))) ∧
     (Ready s.dev n slot .rulebook e → Undisturbed s.dev (s.dev.runRulebook n slot) →
       Runs (.rulebookBuild n slot) s (fun d => EndedOrParked d n slot e))) ∧
  (∀ (s : State) (n slot : Nat) (i : Instr) (e : QEntry), s.dev.domUp Dom.sastrugi = true →
     s.dev.gb B.sastrugi F.sastrugi_READY = true → Ready s.dev n slot .topk e →
     i = (if e.desc.topkMerge then .topkMerge n slot else .topkRow n slot) →
     (sasRows e.desc ≤ e.point ∨ s.dev.entryAborted n e = true → Runs i s (fun d => Ended d n slot e)) ∧
     (e.point < sasRows e.desc → s.dev.entryAborted n e = false → s.dev.sasTurn e = true →
       s.dev.sasLive.any (fun r => r.core == n && r.slot == slot) = false →
       Runs i s (fun d => d.ram = s.dev.ram ∧ d.dram = s.dev.dram ∧
         ∃ e', d.entry n slot = some e' ∧ e'.desc = e.desc ∧ e'.st = e.st ∧ e'.done = false ∧
           e'.point = e.point + min s.dev.sasFree.length (sasRows e.desc - e.point)))) ∧
  (∀ (s : State) (n slot : Nat) (e : QEntry), n < 512 → e.desc.invalid = none → s.dev.feReady (engineOf n) = true →
     let f := engineOf n
     let x := e.desc
     (Ready s.dev n slot .scatter e → s.dev.feTagFree f = true → Undisturbed s.dev (s.dev.runScatter n slot) →
       Runs (.scatterAcc n slot) s (fun d => EndedOrParked d n slot e)) ∧
     (∀ (v pa : Nat) (t : Dev), Ready s.dev n slot .gather e → s.dev.feTagFree f = true →
       s.dev.domUp (Dom.cluster (clusterOf n)) = true → e.point = 0 → x.idxCount = 1 → x.rowBytes = 64 →
       x.tableVa % 64 = 0 → x.dst.base < 16384 → (s.dev.indices n f x).2.1 = [(v, false)] →
       (s.dev.indices n f x).2.2.2 = none → v ≠ 0xFFFFFFFF → v < x.rowLimit →
       (s.dev.indices n f x).1.translate (f / 8) x.ctx (0x200 + f) (x.tableVa + v * 64) false = (t, .inr pa) →
       isRemote pa = false → Undisturbed s.dev (s.dev.runGather n slot) →
       let r := (t.localAccess { sid := 0x200 + f, ctx := x.ctx, secure := t.ctxSecure x.ctx, pa := pa, wr := false,
                                 size := 64, data := [], poison := false, inner := true,
                                 va := some (x.tableVa + v * 64) }).2
       r.data.length = 64 → Runs (.gather n slot) s (fun d => Ended d n slot e ∧ ∃ e', d.entry n slot = some e' ∧
         (e'.res.met.any (fun m => m.1 == 0x0204) = false →
           Memory.readN d.ram (B.scratch n + 64 * x.dst.base) 64 = r.data))) ∧
     (e.point = 0 → 0 < x.rowBytes / 64 →
       (∀ i ∈ (s.dev.indices n f x).2.1, i.2 = true ∨ i.1 = 0xFFFFFFFF ∨ x.rowLimit ≤ i.1) →
       let ends := fun (d : Dev) => Ended d n slot e ∧ d.dram = s.dev.dram ∧ ∃ e', d.entry n slot = some e' ∧
         (e'.res.oor = oorCount (s.dev.indices n f x).2.1 x.rowLimit ∨ e'.res.met.any (fun m => m.1 == 0x0204) = true)
       (Ready s.dev n slot .gather e → Runs (.gather n slot) s ends) ∧
       (Ready s.dev n slot .scatter e → s.dev.feTagFree f = true →
         Runs (.scatterAcc n slot) s (fun d => ends d ∧ d.ram = s.dev.ram))))

/-! ### Counters -/

/-- The clear registers of the core, the sparse and prediction units, Firn, Moraine and Sastrugi clear exactly the
counters their tables name (R114, R147, R177, R205, R224).

The clear registers of the vaults, flow engines, translation caches and links clear exactly the counters their tables
name: GRANULES_MOVED of a flow engine stays (R258, R259, R285, R353, R354).

The clear registers of Rime, the security engine, the power block and a host channel clear exactly the counters
their tables name; the other channel's counters stay (R328, R412, R436, R462).

Choices of the model in this statement: log entry 18. -/
def Obligations.CountersClear : Prop :=
  (∀ (s : State) (who : Initiator) (k : Nat),
     (Writes s.dev (.core k) false who → Runs (.bankCntClr who k) s (fun d => Cleared s.dev d (B.core k)
       [F.core_SUBMIT_DROP_CNT, F.core_HEAD_WAIT_CYC, F.core_SB_STALL_CYC, F.core_SP_CE_CNT, F.core_SP_UE_CNT,
        F.core_WIDE_CONFLICT_CYC, F.core_NARROW_DEFER_CYC])) ∧
     (Writes s.dev (.spu k) false who → Runs (.sparseCntClr who k) s (fun d => Cleared s.dev d (B.spu k)
       [F.spu_SPARSE_OOB_CNT, F.spu_SPARSE_GRP_OVF_CNT, F.spu_SPARSE_ORDER_CNT, F.spu_SPARSE_WARN_CNT,
        F.spu_STEAL_IN_CNT, F.spu_STEAL_XCL_CNT, F.spu_STEAL_OUT_CNT])) ∧
     (Writes s.dev (.spu k) true who → Runs (.recallClr who k) s (fun d => Cleared s.dev d (B.spu k)
       [F.spu_RECALL_NEEDED, F.spu_RECALL_HIT, F.spu_ABL_TILE_CNT, F.spu_ABL_ZERO_TILE_CNT, F.spu_SPD_PRED_CNT,
        F.spu_SPD_AUDIT_CNT])) ∧
     (Writes s.dev .firn false who → Runs (.firnCntClr who) s (fun d => Cleared s.dev d B.firn
       [F.firn_FRAMES_BUILT, F.firn_FRAMES_DEGRADED, F.firn_FRAMES_GUARD, F.firn_SWEEPS_READ, F.firn_GUARD_FMT_CNT,
        F.firn_GUARD_CRC_CNT, F.firn_GUARD_SENSOR_CNT, F.firn_GUARD_SEQ_CNT, F.firn_GUARD_TS_CNT,
          F.firn_GUARD_AGE_CNT,
        F.firn_GUARD_SFLT_CNT, F.firn_DROP_INVALID_CNT, F.firn_DROP_KEY_CNT, F.firn_DROP_PROBE_CNT,
        F.firn_DROP_PTCAP_CNT, F.firn_DROP_CELLCAP_CNT, F.firn_PROBE_HIST])) ∧
     (Writes s.dev .moraine false who → Runs (.morCntClr who) s (fun d => Cleared s.dev d B.moraine
       [F.moraine_LOOKUP_KEYS_CNT, F.moraine_UPDATE_KEYS_CNT, F.moraine_ROWS_CREATED_CNT, F.moraine_ROW_REFUSED_CNT,
        F.moraine_FWD_SENT_CNT, F.moraine_FWD_RECV_CNT, F.moraine_STALE_CNT, F.moraine_LATE_MSG_CNT,
        F.moraine_DIR_MISMATCH_CNT, F.moraine_MISROUTE_CNT, F.moraine_CALVE_DONE_CNT, F.moraine_CALVE_FAIL_CNT,
        F.moraine_PREFETCH_HIT_CNT, F.moraine_PREFETCH_MISS_CNT, F.moraine_STEP_TIMEOUT_CNT])) ∧
     (Writes s.dev .sastrugi false who → Runs (.sasCntClr who) s (fun d => Cleared s.dev d B.sastrugi
       [F.sastrugi_ROWS_DONE_CNT, F.sastrugi_MERGES_DONE_CNT, F.sastrugi_ELEM_READ_CNT, F.sastrugi_INSERT_CNT,
        F.sastrugi_NAN_SKIP_CNT, F.sastrugi_SHORT_ROW_CNT, F.sastrugi_DUP_DROP_CNT, F.sastrugi_CONFLICT_CNT,
        F.sastrugi_LIST_INVALID_CNT, F.sastrugi_UNDERSIZED_CNT]))) ∧
  (∀ (s : State) (who : Initiator) (k : Nat),
     (Writes s.dev (.vault k) false who → Runs (.vltCntClr who k) s (fun d => Cleared s.dev d (B.vault k)
       [F.vault_CE_CNT, F.vault_UE_CNT, F.vault_ATTR_FAULT_CNT, F.vault_TAG_FAIL_CNT, F.vault_CTX_MISMATCH_CNT,
        F.vault_KEY_STALE_CNT, F.vault_POISON_RD_CNT, F.vault_POISON_WR_CNT, F.vault_SCRUB_CE_CNT,
          F.vault_SCRUB_UE_CNT,
        F.vault_SCRUB_PASS_CNT, F.vault_PC_CE_CNT])) ∧
     (Writes s.dev (.fe k) false who → Runs (.feCntClr who k) s (fun d => Cleared s.dev d (B.fe k)
       [F.fe_RING_DONE_CNT, F.fe_CLASS_DONE_CNT, F.fe_FE_POISON_CNT, F.fe_TAG_WAIT_CYC])) ∧
     (Writes s.dev (.region k) false who → Runs (.tcCntClr who k) s (fun d => Cleared s.dev d (B.region k)
       [F.region_TC_HIT_CNT, F.region_TC_MISS_CNT, F.region_TC_WALK_RD_CNT, F.region_TC_FAULT_CNT,
        F.region_TC_INV_CNT])) ∧
     (Writes s.dev (.link k) false who → Runs (.linkCntClr who k) s (fun d => Cleared s.dev d (B.link k)
       [F.link_FLITS_TX_CNT, F.link_FLITS_RX_CNT, F.link_CE_SYM_CNT, F.link_UE_FLIT_CNT, F.link_REPLAY_CNT,
        F.link_RETRAIN_CNT, F.link_FWD_PKT_CNT, F.link_ESCAPE_CNT, F.link_ROUTE_DROP_CNT, F.link_BAD_END_CNT])) ∧
     (Writes s.dev (.link 0) true who → Runs (.sysCntClr who) s (fun d => Cleared s.dev d B.link0
       [F.link0_GCM_FAIL_CNT, F.link0_REPLAY_REJ_CNT, F.link0_REMOTE_TMO_CNT, F.link0_LATE_RESP_CNT,
        F.link0_WIN_DENY_CNT, F.link0_COLL_DONE_CNT, F.link0_COLL_FAIL_CNT, F.link0_COLL_RETX_CNT]))) ∧
  (∀ (s : State) (who : Initiator) (h : Nat),
     (Writes s.dev .rime false who → Runs (.rimeCntClr who) s (fun d => Cleared s.dev d B.rime
       [F.rime_CHECK_POST_CNT, F.rime_READBACK_CNT, F.rime_RB_MISMATCH_CNT, F.rime_PAIR_CNT, F.rime_PAIR_MISMATCH_CNT,
        F.rime_PAIR_ORPHAN_CNT, F.rime_POST_DROP_CNT, F.rime_CHECK_SKIP_CNT, F.rime_HB_MISS_CNT, F.rime_ST_SLICE_CNT,
        F.rime_ST_DEFER_CNT, F.rime_WO_RUN_CNT, F.rime_WO_SKIP_CNT])) ∧
     (Writes s.dev .sec true who → Runs (.secCntClr who) s (fun d => Cleared s.dev d B.sec
       [F.sec_SEC_WORLD_CNT, F.sec_UNWRAP_FAIL_CNT, F.sec_ENTROPY_FAIL_CNT, F.sec_SLOT_CMD_REJ_CNT])) ∧
     (Writes s.dev .pcc false who → Runs (.pccCntClr who) s (fun d => Cleared s.dev d B.pcc
       [F.pcc_PWR_REFUSE_CNT, F.pcc_PLL_UNLOCK_CNT, F.pcc_VWIN_CNT, F.pcc_THROTTLE_CNT, F.pcc_AVS_RETRY_CNT,
        F.pcc_CREEP_MEAS_CNT, F.pcc_CREEP_DEFER_CNT])) ∧
     (h < 2 → Writes s.dev .mmp false who → Runs (.mmpCntClr who h) s (fun d =>
       (∀ F ∈ chCounters, d.g B.mmp F h = 0) ∧ RegsBut s.dev d (chCounters.map (fun F => F.key B.mmp h)))))

/-! ### Firn, Moraine and Sastrugi -/

/-- SENSOR_SLOT_WRITE: the slot takes its sensor and enables; SLOT_EN 0, SLOT_EN set, or REARM leaves it not armed, any
other write leaves ARMED as it was (R151). FIRN_READY: after switch-on the count-grid buffers are clear and READY is 1
(R179).

MORAINE_READY and SASTRUGI_READY set READY of a block whose domain is up (R203, R226). ENG_EN_WRITE takes the
engines, or leaves them where the value would enable none (R224).

Choices of the model in this statement: log entry 37. -/
def Obligations.EngineRegisters : Prop :=
  (∀ (s : State) (who : Initiator) (k v : Nat), k < 64 →
     (Writes s.dev .firn true who → Runs (.sensorSlotWrite who k v) s (fun d =>
       d.g B.firn F.firn_SENSOR_ID k = v % 65536 ∧ d.gb B.firn F.firn_SLOT_EN k = bit v 16 ∧
       d.gb B.firn F.firn_GUARD_AGE_EN k = bit v 18 ∧
       d.gb B.firn F.firn_ARMED k =
         (s.dev.gb B.firn F.firn_ARMED k && bit v 16 && s.dev.gb B.firn F.firn_SLOT_EN k && !bit v 17) ∧
       RegsBut s.dev d [F.firn_SENSOR_ID.key B.firn k, F.firn_SLOT_EN.key B.firn k, F.firn_GUARD_AGE_EN.key B.firn k,
         F.firn_ARMED.key B.firn k])) ∧
     (s.dev.domUp Dom.firn = true → s.dev.gb B.firn F.firn_READY = false → Runs .firnReady s (fun d =>
       d.gb B.firn F.firn_READY = true ∧ d.gb B.firn F.firn_GRID_VALID = false ∧ d.grids = [] ∧ d.ram = s.dev.ram))) ∧
  (∀ (s : State) (who : Initiator) (v : Nat),
     (s.dev.domUp Dom.moraine = true → Runs .moraineReady s (fun d => d.gb B.moraine F.moraine_READY = true ∧
       RegsBut s.dev d [F.moraine_READY.key B.moraine 0])) ∧
     (s.dev.domUp Dom.sastrugi = true → Runs .sastrugiReady s (fun d => d.gb B.sastrugi F.sastrugi_READY = true ∧
       RegsBut s.dev d [F.sastrugi_READY.key B.sastrugi 0])) ∧
     (Writes s.dev .sastrugi true who → Runs (.engEnWrite who v) s (fun d =>
       d.g B.sastrugi F.sastrugi_ENG_EN = (if v % 16 = 0 then s.dev.g B.sastrugi F.sastrugi_ENG_EN else v % 16) ∧
       RegsBut s.dev d [F.sastrugi_ENG_EN.key B.sastrugi 0])))

/-- REQ, UPD, FWD_REQ and FWD_UPD: look-ups and contributions of a step that is still open are held for it, with the
package they came from, or that the stub names; a REQ of hints is none (R191, R195–R197, R199). Where this package has no
stub of the table to forward for, nothing else of the step changes but that its UPD messages count as forwarded once every
UPD is held and no key of it is being calved.

Choices of the model in this statement: log entries 38, 40, 41. -/
def Obligations.MessagesHeld : Prop :=
  ∀ (s : State) (m : MorMsg), (s.dev.morTab m.table).applied ≤ m.step →
    let o := s.dev.ownStep m.table m.step
    let taken := fun (d : Dev) => d.mor.inbox = s.dev.mor.inbox.erase m ∧
      RegsBut s.dev d [F.moraine_OPEN_STEPS.key B.moraine m.table]
    (Message s.dev 1 m → m.next = false → Runs .req s (fun d => taken d ∧
      d.ownStep m.table m.step = { o with reqFrom := o.reqFrom ++ [m.src]
                                          reqs := o.reqs ++ m.items.map (fun i => ⟨m.src, false, i⟩) })) ∧
    (Message s.dev 4 m → Runs .fwdReq s (fun d => d.mor.inbox = s.dev.mor.inbox.erase m ∧
      d.ownStep m.table m.step = { o with fwdReqFrom := o.fwdReqFrom ++ [m.src * 64 + m.orig]
                                          reqs := o.reqs ++ m.items.map (fun i => ⟨m.orig, true, i⟩) })) ∧
    (Message s.dev 3 m → o.closed = false → s.dev.morDests m.table = [] → Runs .upd s (fun d =>
      d.mor.inbox = s.dev.mor.inbox.erase m ∧
      let us := o.upds ++ m.items.map (fun i => ⟨m.src, false, i⟩)
      d.ownStep m.table m.step = { o with
        updFrom := o.updFrom ++ [m.src], upds := us, first := some (o.first.getD s.dev.varve)
        fwdUpdSent := o.fwdUpdSent || (s.dev.fromAll m.table (o.updFrom ++ [m.src]) &&
          !us.any (fun h => s.dev.calvingOf m.table h.item.key)) })) ∧
    (Message s.dev 5 m → o.closed = false → Runs .fwdUpd s (fun d => d.mor.inbox = s.dev.mor.inbox.erase m ∧
      d.ownStep m.table m.step = { o with fwdUpdFrom := o.fwdUpdFrom ++ [m.src * 64 + m.orig]
                                          upds := o.upds ++ m.items.map (fun i => ⟨m.orig, true, i⟩)
                                          first := some (o.first.getD s.dev.varve) }))

/-- MAP_LOOKUP and MAP_UPDATE of an issued entry, where no table has two steps open: its messages are sent and it waits
for their answers, or it has ended (R187–R191, R194); its accesses meet no vault that holds them and write no register
(R22, R250).

RESP: every position that an answer names, unless the answer is a stub's notice, is answered, or the batch has ended
(R192). STEP_TIMEOUT_REQUESTER: once twice STEP_TIMEOUT has passed, the batch ends and its entry with it (R193). The
answers meet no vault that holds them and write no register (R22, R250).

Choices of the model in this statement: log entries 38, 39, 190, 191, 200. -/
def Obligations.MapBatches : Prop :=
  (∀ (s : State) (n slot : Nat) (e : QEntry), s.dev.morUp = true → s.dev.morBatch n slot = none →
     (∀ t, (s.dev.morTab t).opened.length < 2) →
     (Ready s.dev n slot .mapLookup e → Undisturbed s.dev (s.dev.runMap n slot false) →
       Runs (.mapLookup n slot) s (fun d => Ended d n slot e ∨ (d.morBatch n slot).isSome = true)) ∧
     (Ready s.dev n slot .mapUpdate e → Undisturbed s.dev (s.dev.runMap n slot true) →
       Runs (.mapUpdate n slot) s (fun d => Ended d n slot e ∨ (d.morBatch n slot).isSome = true))) ∧
  ((∀ (s : State) (m : MorMsg) (b : MorBatch), Message s.dev 2 m →
     s.dev.mor.batches.find? (fun x => x.table == m.table && x.step == m.step && x.upd == m.part) = some b →
     s.dev.morBatch b.core b.slot = some b → Undisturbed s.dev s.dev.morResp →
     Runs .resp s (fun d => ∀ i ∈ m.items, i.status % 16 ≠ 7 → i.pos < b.answers.length →
       (∃ b', d.morBatch b.core b.slot = some b' ∧ (b'.answers.getD i.pos none).isSome = true) ∨
       d.morBatch b.core b.slot = none)) ∧
   (∀ (s : State) (n slot : Nat) (b : MorBatch) (e : QEntry), s.dev.morBatch n slot = some b →
     s.dev.entry n slot = some e → Undisturbed s.dev (s.dev.morTimeoutReq n slot) →
     b.sentAt + 2000 * s.dev.g B.moraine F.moraine_STEP_TIMEOUT_US ≤ s.dev.varve →
     Runs (.stepTimeoutRequester n slot) s (fun d => d.morBatch n slot = none ∧ Ended d n slot e)))

/-- LOOKUP_SERVE: once every update part up to step n − 2 has been applied, every look-up held is served but those of a
key that is being calved (R191, R199). UPDATE_APPLY: in its turn, with every look-up served and every message held, the
step's update part is applied and the step is forgotten (R191). STEP_TIMEOUT_OWNER: the part is closed without the
messages that are missing, and counted (R193). Their accesses meet no vault that holds them and write no register (R22,
R250).

Choices of the model in this statement: log entries 49, 185, 190. -/
def Obligations.StepsServed : Prop :=
  ∀ (s : State) (t n : Nat), s.dev.morUp = true → s.dev.gb B.moraine F.moraine_TBL_EN t = true →
    let o := s.dev.ownStep t n
    let calved := fun (h : MorHeld) => s.dev.calvingOf t h.item.key
    (n ≤ (s.dev.morTab t).applied + 1 → o.reqs.any (fun h => !calved h) = true →
      Undisturbed s.dev (s.dev.lookupServe t n) →
      Runs (.lookupServe t n) s (fun d => (d.ownStep t n).reqs = o.reqs.filter calved ∧
        (d.ownStep t n).served = o.served ++ (o.reqs.filter (fun h => !calved h)).map (fun h => h.item.key))) ∧
    ((s.dev.morTab t).applied = n → o.reqs = [] → s.dev.updComplete t n o = true → o.upds.any calved = false →
      Undisturbed s.dev (s.dev.updateApply t n) →
      Runs (.updateApply t n) s (fun d => (d.morTab t).applied = n + 1 ∧ d.ownStep t n = {} ∧
        ∀ k, k ≠ n → d.ownStep t k = s.dev.ownStep t k)) ∧
    (∀ τ, o.first = some τ → o.closed = false → s.dev.updComplete t n o = false → s.dev.morDests t = [] →
      τ + 1000 * s.dev.g B.moraine F.moraine_STEP_TIMEOUT_US ≤ s.dev.varve →
      Runs (.stepTimeoutOwner t n) s (fun d =>
        d.ownStep t n = { o with closed := true, fwdUpdSent := o.fwdUpdSent || !o.upds.any calved } ∧
        d.g B.moraine F.moraine_STEP_TIMEOUT_CNT = min (s.dev.g B.moraine F.moraine_STEP_TIMEOUT_CNT + 1)
          (2 ^ 32 - 1) ∧
        RegsBut s.dev d [F.moraine_STEP_TIMEOUT_CNT.key B.moraine 0, F.moraine_OPEN_STEPS.key B.moraine t]))

/-- The steps of a calving (R198–R201). CALVE_START, after the update part of a step has closed, before a look-up of the
key for a later step is served or that step's FWD_UPD messages are sent, with an override entry and a stub free: the row of
a key that this package serves and that is in no other calving is sent, and the calving waits for its answer.
CALVE: the new owner holds the row and awaits the old owner's forwarding and DIR_OVR. CALVE_ACK: the stub is set, or the
calving has failed. Their accesses meet no vault that holds them and write no register (R22, R250).

DIR_OVR: the override stands, valid, for its key, and the key is no longer awaited (R199 step 4). DIR_ACK: the stub it
answers records the package; a stub stays while further packages have not answered, and once every one has, with nothing
routed to it here and no tag of its forwarded messages in use, its row is freed and the new owner is to be told (R199 step
7).

Choices of the model in this statement: log entries 40, 41, 42, 43, 50, 200. -/
def Obligations.CalvingMoves : Prop :=
  ((∀ (s : State) (t key q : Nat) (r : RowRec), s.dev.morUp = true → s.dev.gb B.moraine F.moraine_TBL_EN t = true →
     let x := s.dev.morTab t
     x.applied ≠ 0 → x.steps.any (fun n => decide (x.applied ≤ n.1) && (n.2.served.contains key || n.2.fwdUpdSent)) = false →
     x.fwdFrom.any (fun a => a.2.2 == key) = false →
     let f := (s.dev.morFind t key).1
     (f.ovrFor t key).isSome = true ∨ (f.mor.ovr.filter (fun o => o.2.valid)).length < 4096 →
     f.stubFor t key = none → f.calvingOf t key = false → f.mor.calving.length < 256 →
     (s.dev.morFind t key).2.1 = some r → ((f.morOwner t key).1 = f.pkgId ∨ r.epoch ≠ 0) → q ≠ f.pkgId →
       q ∈ f.morPeers t →
     let sent := f.morSend q { kind := 6, table := t, src := 0, orig := 0, step := x.applied - 1,
                               epoch := (f.morOwner t key).2 + 1, key := key, items := [{ pos := 0, row := r.row }],
                               bad := r.bad }
     sent.2 = true → Undisturbed s.dev (s.dev.calveStart t key q) →
     Runs (.calveStart t key q) s (fun d => d.mor.calving =
       sent.1.mor.calving ++ [⟨t, key, q, (f.morOwner t key).2 + 1, x.applied - 1, false, []⟩])) ∧
   (∀ (s : State) (m : MorMsg), Message s.dev 6 m →
     let f := (Taken s.dev m).morFind m.table m.key
     (f.2.1.isSome = true ∨ (f.2.2.isSome = true ∧
       f.1.g B.moraine F.moraine_ROWS_USED m.table < f.1.g B.moraine F.moraine_ROWS_LOCAL m.table)) →
     Undisturbed s.dev s.dev.calve →
     Runs .calve s (fun d => (m.src, m.step, m.key) ∈ (d.morTab m.table).fwdFrom ∧ (m.table, m.key) ∈ d.mor.incoming ∧
       (d.morTab m.table).rows.length = (s.dev.morTab m.table).rows.length + (if f.2.1.isSome then 0 else 1))) ∧
   (∀ (s : State) (m : MorMsg) (c : Calving), Message s.dev 7 m →
     s.dev.mor.calving.find? (fun c => !c.stub && c.table == m.table && c.key == m.key && c.owner == m.src) = some c →
     Undisturbed s.dev s.dev.calveAck →
     Runs .calveAck s (fun d =>
       (m.epoch = 0 → d.mor.calving = s.dev.mor.calving.erase c ∧ d.g B.moraine F.moraine_CALVE_FAIL_CNT =
         min (s.dev.g B.moraine F.moraine_CALVE_FAIL_CNT + 1) (2 ^ 32 - 1)) ∧
       (m.epoch ≠ 0 → d.mor.calving = s.dev.mor.calving.erase c ++ [{ c with stub := true }])))) ∧
  ((∀ (s : State) (m : MorMsg), Message s.dev 8 m → (s.dev.mor.ovr.filter (fun o => o.2.valid)).length < 4096 →
     Undisturbed s.dev s.dev.dirOvr →
     Runs .dirOvr s (fun d => (m.table, m.key) ∉ d.mor.incoming ∧ ∃ j, d.mor.ovr.getD j {} =
       ⟨m.key, m.table, (m.items.headD { pos := 0 }).pos, true, false, m.epoch⟩)) ∧
   (∀ (s : State) (m : MorMsg), Message s.dev 9 m →
     let acked := fun (c : Calving) =>
       if c.stub && c.table == m.table && c.key == m.key && c.epoch == m.epoch then { c with acks := c.acks ++ [m.src] } else c
     ((∀ c ∈ s.dev.mor.calving, c.stub = true → c.table = m.table →
         ∃ q ∈ s.dev.morPeers m.table, q ≠ s.dev.pkgId ∧ q ∉ (acked c).acks) →
       Runs .dirAck s (fun d => d.mor.calving = s.dev.mor.calving.map acked ∧
         d.mor.inbox = s.dev.mor.inbox.erase m ∧ d.regs = s.dev.regs)) ∧
     (∀ c, s.dev.mor.calving = [c] → c.stub = true → c.table = m.table → c.key = m.key → c.epoch = m.epoch →
       (∀ q ∈ s.dev.morPeers m.table, q = s.dev.pkgId ∨ q ∈ c.acks ∨ q = m.src) →
       (s.dev.morTab m.table).steps.any (fun n =>
         (n.2.reqs ++ n.2.upds ++ n.2.fwdReqs.map (·.2)).any (fun h => h.item.key == c.key)) = false →
       s.dev.tags.any (fun g => g.fwd == some (m.table, c.owner)) = false →
       s.dev.unsent.any (fun w => w.fwd == some (m.table, c.owner)) = false → Undisturbed s.dev s.dev.dirAck →
       Runs .dirAck s (fun d => d.mor.calving = [] ∧
         (d.morTab m.table).freedTo = (s.dev.morTab m.table).freedTo ++ [c.owner] ∧
         d.g B.moraine F.moraine_CALVE_DONE_CNT = min (s.dev.g B.moraine F.moraine_CALVE_DONE_CNT + 1)
           (2 ^ 32 - 1)))))

/-- OVR_READ loads entry OVR_IDX into OVR_DATA; OVR_WRITE stores OVR_DATA into it, and refuses it with an event where the
entry is a stub, or where the calving of its key or of the new one is in progress (R183). HOT_CLR empties the hot list (R201).

TABLE_DESCRIPTOR_WRITE: a table that is not enabled takes ROWS_LOCAL, STORE_VA, INDEX_VA, CTX_MASK and a word of
PEER_LIST; a write of TBL_CFG stores the configuration, TBL_EN setting over a permitted one alone, and then the step
sequence restarts at 0 and DIR_CRC is computed; an enabled table is written only to clear TBL_EN with no step open, and any
other write is refused with an event (R181, R182, R205).

Choices of the model in this statement: log entry 48. -/
def Obligations.DirectoryRegisters : Prop :=
  (∀ (s : State) (who : Initiator), Writes s.dev .moraine true who →
     let i := s.dev.g B.moraine F.moraine_OVR_IDX
     let x := s.dev.mor.ovr.getD i {}
     (x.key < 2 ^ 64 → x.table < 64 → x.owner < 64 → x.epoch < 2 ^ 32 → Runs (.ovrRead who) s (fun d =>
       d.g B.moraine F.moraine_OVR_KEY = x.key ∧ d.g B.moraine F.moraine_OVR_TABLE = x.table ∧
       d.g B.moraine F.moraine_OVR_OWNER = x.owner ∧ d.gb B.moraine F.moraine_OVR_VALID = x.valid ∧
       d.gb B.moraine F.moraine_OVR_STUB = x.stub ∧ d.g B.moraine F.moraine_OVR_EPOCH = x.epoch ∧
         d.mor = s.dev.mor)) ∧
     let refused := x.stub = true ∨ (x.valid = true ∧ s.dev.calvingNow x.table x.key = true) ∨
       s.dev.calvingNow (s.dev.g B.moraine F.moraine_OVR_TABLE) (s.dev.g B.moraine F.moraine_OVR_KEY) = true
     (¬ refused → Runs (.ovrWrite who) s (fun d => d.regs = s.dev.regs ∧ d.mor.ovr.getD i {} =
         ⟨s.dev.g B.moraine F.moraine_OVR_KEY, s.dev.g B.moraine F.moraine_OVR_TABLE,
          s.dev.g B.moraine F.moraine_OVR_OWNER, s.dev.gb B.moraine F.moraine_OVR_VALID, false,
          s.dev.g B.moraine F.moraine_OVR_EPOCH⟩)) ∧
     (refused → Runs (.ovrWrite who) s (fun d => d.mor = s.dev.mor ∧ d.regs = s.dev.regs ∧
       Told d 0x08 0 0x0505 (dtlWord s.dev.pkgId))) ∧
     Runs (.hotClr who) s (fun d => d.mor = { s.dev.mor with hot := [] } ∧ d.regs = s.dev.regs)) ∧
  (∀ (s : State) (who : Initiator) (t off v : Nat), t < 64 → off < 0x80 → Writes s.dev .moraine true who →
     let wr := Instr.tableDescriptorWrite who t off v
     let takes := fun (f : Fld) (d : Dev) => d.g B.moraine f t = v % 2 ^ f.w ∧ RegsBut s.dev d [f.key B.moraine t]
     let cfg := fun (d : Dev) =>
       d.g B.moraine F.moraine_KEY_KIND t = bits v 1 1 ∧ d.g B.moraine F.moraine_COMBINE t = bits v 3 2 ∧
       d.g B.moraine F.moraine_ELEM_FMT t = bits v 7 4 ∧ d.g B.moraine F.moraine_ROW_G t = bits v 12 8 ∧
       d.g B.moraine F.moraine_PEER_COUNT_M1 t = bits v 21 16 ∧ d.g B.moraine F.moraine_INDEX_LOG2 t = bits v 26 22 ∧
       d.gb B.moraine F.moraine_TBL_EN t = (bit v 0 && d.tableOk t) ∧
       (d.gb B.moraine F.moraine_TBL_EN t = true → d.g B.moraine F.moraine_NEXT_STEP t = 0 ∧
         d.g B.moraine F.moraine_NEXT_PART t = 0 ∧ d.g B.moraine F.moraine_DIR_CRC t = d.dirCrc t % 2 ^ 32)
     (s.dev.gb B.moraine F.moraine_TBL_EN t = false →
       (off = 0 → Runs wr s cfg) ∧ (off = 4 → Runs wr s (takes F.moraine_ROWS_LOCAL)) ∧
       (off = 8 → Runs wr s (takes F.moraine_STORE_VA)) ∧ (off = 0x10 → Runs wr s (takes F.moraine_INDEX_VA)) ∧
       (off = 0x1C → Runs wr s (takes F.moraine_CTX_MASK)) ∧
       (∀ j f, off = 0x40 + 4 * j → peerListFlds[j]? = some f → Runs wr s (takes f))) ∧
     (s.dev.gb B.moraine F.moraine_TBL_EN t = true → off = 0 → bit v 0 = false → (s.dev.morTab t).opened = [] →
       Runs wr s cfg) ∧
     (s.dev.gb B.moraine F.moraine_TBL_EN t = true → (off ≠ 0 ∨ bit v 0 = true ∨ (s.dev.morTab t).opened ≠ []) →
       Runs wr s (fun d => d.regs = s.dev.regs ∧ d.mor = s.dev.mor ∧ Told d 0x08 0 0x0503 (dtlWord t))))

/-! ### Vaults, flow engines, contexts -/

/-- VAULT_READ of a line without errors takes a vault tag; it answers the data of a line stored under the reader's
context and current key, zeros of a ZERO line, and leaves what is stored and the registers (R46, R240).

VAULT_WRITE of a full line stores it under the writer's context and that context's current key, poisoned where the
write is; every other stored line keeps what it holds (R238, R241).

Choices of the model in this statement: log entries 56, 57, 192. -/
def Obligations.VaultLines : Prop :=
  (∀ (s : State) (who : Initiator) (pa : Nat) (l : Line), pa % 64 = 0 →
     let v := (s.dev.vaultOf pa).1
     s.dev.vaultUp v = true → s.dev.vaultHolds v = false → s.dev.tagFree (.vault v) = true →
     s.dev.stalled.any (fun x => x.1 == .vault v && x.2.sid == who.sid) = false → s.dev.pcc.dramDead = false →
       s.dev.lineAt v (v * 0x6000000 + (s.dev.vaultOf pa).2 / 64) = some l → l.err = [] →
     l.data.length = 64 → l.ctx < 16 → l.gen < 256 → l.poison = false →
     (l.zero = false → l.ctx = who.ctx → (l.key, l.gen) = s.dev.keyOf who.ctx → l.pa = pa →
       Runs (.vaultRead who pa []) s (fun d => d.resp = some ⟨l.data, false, 0, 0⟩ ∧ d.dram = s.dev.dram ∧
         d.ram = s.dev.ram ∧ d.regs = s.dev.regs ∧ d.tags.length = s.dev.tags.length + 1)) ∧
     (l.zero = true → Runs (.vaultRead who pa []) s (fun d => d.resp = some ⟨zeros 64, false, 0, 0⟩ ∧
       d.dram = s.dev.dram ∧ d.ram = s.dev.ram ∧ d.regs = s.dev.regs ∧ d.tags.length = s.dev.tags.length + 1))) ∧
  (∀ (s : State) (w : LineWrite), w.pa % 64 = 0 → w.data.length = 64 →
     let v := (s.dev.vaultOf w.pa).1
     let key := v * 0x6000000 + (s.dev.vaultOf w.pa).2 / 64
     s.dev.vaultUp v = true → s.dev.vaultHolds v = false → s.dev.tagFree (.vault v) = true →
     s.dev.stalled.any (fun x => x.1 == .vault v && x.2.sid == w.who.sid) = false →
     Runs (.vaultWrite [w] []) s (fun d =>
       d.dram.get? key = some ⟨w.data, w.who.ctx, false, w.poison, (s.dev.keyOf w.who.ctx).2,
         (s.dev.keyOf w.who.ctx).1,
         w.pa, []⟩ ∧
       (∀ k, k ≠ key → d.dram.get? k = s.dev.dram.get? k) ∧ d.ram = s.dev.ram ∧
       d.tags.length = s.dev.tags.length + 1))

/-- VAULT_REFRESH changes nothing that software sees (R245). SCRUB_READ moves to the next line of every pseudo-channel,
and wraps (R246). VAULT_READY ends TRAINING and sets READY; with no access held it changes nothing else (R250).

INIT_START of a vault that is READY makes every line of it a ZERO line and sets INIT_BUSY; INIT_DONE clears it, sets
INIT_DONE and takes up the access that was held (R250).

Choices of the model in this statement: log entries 53, 55, 60. -/
def Obligations.VaultUpkeep : Prop :=
  (∀ (s : State) (v bank : Nat) (ups : List (Nat × List (Nat × Nat))),
     Runs (.vaultRefresh v bank) s (fun d => d = s.dev) ∧
     (s.dev.gb (B.vault v) F.vault_SCRUB_EN = true → s.dev.vaultUp v = true →
       s.dev.vaultHolds v = false → Runs (.scrubRead v ups) s (fun d =>
         (d.vlt v).scrubNext = (if (s.dev.vlt v).scrubNext + 1 = 3145728 then 0 else (s.dev.vlt v).scrubNext + 1) ∧
         d.ram = s.dev.ram)) ∧
     (s.dev.domUp (Dom.vault v) = true → s.dev.gb (B.vault v) F.vault_TRAINING = true →
       Runs (.vaultReady v) s (fun d =>
       d.gb (B.vault v) F.vault_TRAINING = false ∧ d.gb (B.vault v) F.vault_READY = true ∧
       (s.dev.heldReq.filter (fun q => (s.dev.vaultOf q.pa).1 == v) = [] → d.dram = s.dev.dram ∧ d.ram = s.dev.ram ∧
         RegsBut s.dev d [F.vault_TRAINING.key (B.vault v) 0, F.vault_READY.key (B.vault v) 0])))) ∧
  (∀ (s : State) (who : Initiator) (v : Nat),
     (Writes s.dev (.vault v) true who → s.dev.vaultUp v = true → s.dev.vaultHolds v = false →
       Runs (.initStart who v) s (fun d => d.gb (B.vault v) F.vault_INIT_BUSY = true ∧
         (∀ L, L < 0x6000000 → d.lineAt v (v * 0x6000000 + L) = some zeroLine) ∧
         RegsBut s.dev d [F.vault_INIT_BUSY.key (B.vault v) 0])) ∧
     (s.dev.gb (B.vault v) F.vault_INIT_BUSY = true →
       (s.dev.heldReq.filter (fun q => (s.dev.vaultOf q.pa).1 == v) = [] →
         Runs (.initDone v) s (fun d => d.gb (B.vault v) F.vault_INIT_BUSY = false ∧
           d.gb (B.vault v) F.vault_INIT_DONE = true ∧ d.dram = s.dev.dram ∧ d.ram = s.dev.ram ∧
           RegsBut s.dev d [F.vault_INIT_BUSY.key (B.vault v) 0, F.vault_INIT_DONE.key (B.vault v) 0])) ∧
       (∀ q, s.dev.heldReq.filter (fun q => (s.dev.vaultOf q.pa).1 == v) = [q] → s.dev.vaultUp v = true →
         s.dev.gb (B.vault v) F.vault_READY = true → s.dev.tagFree (.vault v) = true →
         s.dev.stalled.any (fun x => x.1 == .vault v && x.2.sid == q.sid) = false → Runs (.initDone v) s (fun d =>
           d.heldReq = s.dev.heldReq.filter (fun q => (s.dev.vaultOf q.pa).1 != v) ∧
           d.tags.length = s.dev.tags.length + 1))))

/-- RING_PROD_WRITE advances RING_PROD, or leaves it where more entries than the ring holds would be outstanding, and
says so (R255). RING_EN_WRITE takes RING_EN, and RING_CTX of a ring that neither serves nor is busy (R255, R259).

RING_ENTRY_START: a valid head whose wait and signal are settled and which nothing holds back runs, after those that
run already (R253, R255, R291). RING_ENTRY_COMPLETE: an entry all of whose granules
have moved and whose tags have retired leaves the ring (R254). Their accesses meet no vault that holds them and write no
register (R22, R250).

Choices of the model in this statement: log entry 64. -/
def Obligations.RingsRun : Prop :=
  (∀ (s : State) (who : Initiator) (f v : Nat), v < 2 ^ 32 →
     (Writes s.dev (.fe f) false who → s.dev.funcClosed (0x40 + f) = false →
       (sub32 v (s.dev.g (B.fe f) F.fe_CONS) ≤ 2 ^ s.dev.g (B.fe f) F.fe_RING_LOG2 →
         Runs (.ringProdWrite who f v) s (fun d => d.g (B.fe f) F.fe_PROD = v ∧
           RegsBut s.dev d [F.fe_PROD.key (B.fe f) 0])) ∧
       (2 ^ s.dev.g (B.fe f) F.fe_RING_LOG2 < sub32 v (s.dev.g (B.fe f) F.fe_CONS) →
         Runs (.ringProdWrite who f v) s (fun d => d.regs = s.dev.regs ∧ Told d 0x05 f 0x0227 (dtl [(1, 0x1C)])))) ∧
     (Writes s.dev (.fe f) true who → s.dev.gb B.mgmt F.mgmt_DIS_BUSY = false →
       Runs (.ringEnWrite who f v) s (fun d => d.gb (B.fe f) F.fe_RING_EN = bit v 0 ∧
         d.g (B.fe f) F.fe_RING_CTX = (if !s.dev.gb (B.fe f) F.fe_RING_EN && !s.dev.feBusy f then bits v 7 4
           else s.dev.g (B.fe f) F.fe_RING_CTX)))) ∧
  ((∀ (s : State) (f pa : Nat) (t : Dev), s.dev.gb (B.fe f) F.fe_RING_EN = true → s.dev.feReady f = true →
     (s.dev.eng f).headParked = false → s.dev.ringNext f ≠ s.dev.g (B.fe f) F.fe_PROD →
     let rc := s.dev.g (B.fe f) F.fe_RING_CTX
     let n := s.dev.ringNext f
     s.dev.ctxState rc = 1 →
     s.dev.translate (f / 8) rc (0x200 + f)
       (s.dev.g (B.fe f) F.fe_RING_VA + n % 2 ^ s.dev.g (B.fe f) F.fe_RING_LOG2 * 64) false = (t, .inr pa) →
     let r := t.localAccess { sid := 0x200 + f, ctx := rc, secure := t.ctxSecure rc, pa := pa, wr := false, size := 64,
                              inner := true }
     let x := r.2.data
     r.2.status ≠ 0x0204 → r.2.poison = false → r.1.feAborted f (tCtx x) = false → r.1.feAborted f rc = false →
     Tfr.invalid x (r.1.g (B.fe f) F.fe_RING_CTX) = false →
     ((r.1.eng f).headChecked = true ∨ (Tfr.waitEn x = false ∧ Tfr.sigEn x = false)) →
     (Tfr.waitEn x = true → (r.1.eng f).headReleased = true) → (r.1.ringWait f x).ringMayStart f n x = true →
     Undisturbed s.dev (s.dev.ringEntryStart f) →
     Runs (.ringEntryStart f) s (fun d => (d.eng f).run = (r.1.eng f).run ++ [{ entry := n, desc := x, pa := pa }] ∧
       (d.eng f).headChecked = false ∧ (d.eng f).headReleased = false)) ∧
   (∀ (s : State) (f n : Nat) (r : RingRun), s.dev.ringRun f n = some r → s.dev.remoteOf (.ring f n) = 0 →
     r.moved = true → Undisturbed s.dev (s.dev.ringComplete f n) →
       Runs (.ringEntryComplete f n) s (fun d => d.ringRun f n = none ∧ ∀ k, k ≠ n →
       d.ringRun f k = s.dev.ringRun f k)))

/-- COPY and FILL between scratchpads, with a tag of the engine free: every granule of a running entry moves, or a refused
access ends the transfer at the progress made (R252, R254, R268, R278).
A FILL of one granule stores the pattern there and leaves every other byte; a COPY of one granule without errors stores
its bytes (R252). SUBMIT_TRANSFER of one descriptor enqueues it at its core (R252).

Choices of the model in this statement: log entries 190, 195, 196. -/
def Obligations.TransfersMove : Prop :=
  (∀ (s : State) (f n rc : Nat) (r : RingRun)
    (i : Instr), (i, Tfr.op r.desc) ∈ [(Instr.copy f n, 1), (.fill f n, 2)] →
    s.dev.ringRun f n = some r → r.entry = n → s.dev.feReady f = true → s.dev.feTagFree f = true →
      s.dev.feAborted f (tCtx r.desc) = false →
    r.moved = false → r.parked = false → Tfr.invalid r.desc rc = false → Tfr.dstSp r.desc = true →
    (Tfr.op r.desc = 1 → Tfr.srcSp r.desc = true) →
    Runs i s (fun d => (∃ r', d.ringRun f n = some r' ∧ r'.desc = r.desc ∧ r'.moved = true ∧
      (r.progress ≤ Tfr.total r.desc → r'.progress = Tfr.total r.desc ∨ r'.met.any (fun m => m.1 == 0x0204) = true)) ∧
      d.dram = s.dev.dram ∧
      (Tfr.total r.desc = 1 → r.progress = 0 →
        let c := tCtx r.desc
        let q := fun (pa : Nat) (wr : Bool) => ({ sid := 0x200 + f, ctx := c, secure := s.dev.ctxSecure c, pa := pa,
                                                  wr := wr, size := 64, inner := true } : Req)
        let a := B.scratch (Tfr.spCore (Tfr.dst r.desc)) + Tfr.spGran (Tfr.dst r.desc) * 64
        let b := B.scratch (Tfr.spCore (Tfr.src r.desc)) + Tfr.spGran (Tfr.src r.desc) * 64
        s.dev.memUp a = some true → s.dev.pathUp (q a true) = true → (s.dev.fwCheck (q a true)).2 = true →
        (∀ e, (e < a ∨ a + 64 ≤ e) → Memory.read d.ram e = Memory.read s.dev.ram e) ∧
        (Tfr.op r.desc = 2 →
          Memory.readN d.ram a 64 = (List.replicate 16 (natLE 4 (Tfr.pattern r.desc))).flatten) ∧
        (Tfr.op r.desc = 1 → s.dev.memUp b = some true → s.dev.pathUp (q b false) = true →
          (s.dev.fwCheck (q b false)).2 = true → s.dev.sramErr b = [] →
          s.dev.sramErr (b + 32) = [] → Memory.readN d.ram a 64 = Memory.readN s.dev.ram b 64)))) ∧
  (∀ (s : State) (f n pa : Nat) (va : Option Nat) (t u : Dev) (r : RingRun) (y : Rsp), s.dev.ringRun f n = some r →
    Tfr.op r.desc = 3 → Tfr.rows r.desc = 1 → r.progress = 0 → r.moved = false → r.parked = false →
    let c := tCtx r.desc
    let core := Tfr.spCore (Tfr.dst r.desc)
    s.dev.feAborted f c = false → s.dev.remoteOf (.ring f n) = 0 → s.dev.feReady f = true →
    s.dev.feAddr f c false (Tfr.src r.desc) 0 false = (t, .inr (pa, va)) →
    t.feAccess f c pa va false 64 [] false (.submit core) (.ring f n) = (u, some (y, false)) → y.status = 0 →
    y.poison = false → u.ringRun f n = some r → u.clusterUp (clusterOf core) = true →
    u.submitStatus core c y.data = none → Undisturbed s.dev (s.dev.submitTransfer f n) →
    Runs (.submitTransfer f n) s (fun d => (∃ e : QEntry, (d.core core).q = (u.core core).q ++ [e] ∧ e.desc = y.data ∧
      e.st = .queued) ∧ ∃ r', d.ringRun f n = some r' ∧ r'.progress = 1 ∧ r'.moved = true ∧ r'.desc = r.desc))

/-- TRANSLATION_WALK: a cached leaf that permits the access gives its address; an address beyond VA_BITS faults with
0x020B, recorded and counted for the context (R264, R267, R481).

INV_GO removes the translations it names, those of a whole context or those of a range of addresses, from every cache
and sets INV_BUSY, a COUNT of 0 leaving the count as it was; XL_INV_DONE clears it once no tag holds a removed one
(R267). -/
def Obligations.Translation : Prop :=
  (∀ (s : State) (i c sid va : Nat) (wr : Bool),
     (∀ x, va < 2 ^ s.dev.g B.mgmt F.mgmt_VA_BITS c → (s.dev.tc i).leaf.find? (fun t => t.hits c va) = some x →
       (wr = true → x.write = true) → Runs (.translationWalk i c sid va wr) s (fun d =>
         d.resp = some ⟨natLE 8 (x.pa + va % (if x.large then 0x200000 else 0x10000)), false, 0, 0⟩ ∧
         d.tcaches = s.dev.tcaches ∧ d.ram = s.dev.ram ∧ d.dram = s.dev.dram)) ∧
     (2 ^ s.dev.g B.mgmt F.mgmt_VA_BITS c ≤ va → Runs (.translationWalk i c sid va wr) s (fun d =>
       d.resp = some ⟨zeros 8, true, 0x020B, va / 65536⟩ ∧ d.tcaches = s.dev.tcaches ∧
       d.g B.mgmt F.mgmt_CTX_FAULT_CNT c = min (s.dev.g B.mgmt F.mgmt_CTX_FAULT_CNT c + 1) (2 ^ 32 - 1)))) ∧
  (∀ (s : State) (who : Initiator) (v : Nat), v < 2 ^ 32 →
     (Writes s.dev .mgmt true who → s.dev.gb B.mgmt F.mgmt_INV_BUSY = false →
       let lo := s.dev.g B.mgmt F.mgmt_INV_VA * 0x200000
       let count := if v / 65536 = 0 then s.dev.g B.mgmt F.mgmt_INV_COUNT else v / 65536
       let r : InvRange := ⟨v % 16, bit v 4, lo, lo + count * 0x200000⟩
       Runs (.invGo who v) s (fun d => d.gb B.mgmt F.mgmt_INV_BUSY = true ∧ d.ram = s.dev.ram ∧
         ∀ i, i < 11 → (d.tc i).leaf = (s.dev.tc i).leaf.filter (fun t =>
             !r.names t.ctx (t.page * 0x10000) (if t.large then 0x200000 else 0x10000)) ∧
           (d.tc i).l1 = (s.dev.tc i).l1.filter (fun t => !r.names t.ctx (t.index * 2 ^ 29) (2 ^ 29)))) ∧
     (s.dev.gb B.mgmt F.mgmt_INV_BUSY = true → s.dev.tags.any (·.inv) = false → s.dev.remoteOps.any (·.inv) = false →
       Runs .xlInvDone s (fun d => d.gb B.mgmt F.mgmt_INV_BUSY = false ∧
         RegsBut s.dev d [F.mgmt_INV_BUSY.key B.mgmt 0])))

/-- ENABLE, SUSPEND and RESUME move a context between the states of Table 9.1: enabling empties its fault record and
clears its FUNC_OFF bit, and is ignored and counted in DIS_REJECT while the context is being disabled; suspending is
complete at once where nothing of it runs; resuming, with no contribution of a collective waiting, leaves no entry of it
parked (R261, R262, R271, R282).

FUNC_DISABLE of a context or block function under DRAIN or ABORT disables it at once where nothing of it is left, and
is BUSY with it otherwise, its policy kept; FUNC_ENABLE brings a block function that is off back (R280, R282).

REGION_DESCRIPTOR_WRITE: base and limit are taken, and the range of streams; RD_EN sets only over a range that is not
empty, and its other fields follow the word (R278, R279); an interleave enabled over no vault group is raised (R229).

Choices of the model in this statement: log entries 70, 71, 72. -/
def Obligations.Isolation : Prop :=
  (∀ (s : State) (who : Initiator) (c : Nat), 0 < c → c < 16 → Writes s.dev .mgmt true who →
     let off := s.dev.gb B.mgmt F.mgmt_DIS_BUSY = true ∧ s.dev.g B.mgmt F.mgmt_DIS_FUNC = c
     (s.dev.ctxState c = 0 → ¬ off → Runs (.enable who c) s (fun d => d.ctxState c = 1 ∧ d.funcOff c = false ∧
       d.gb B.mgmt F.mgmt_FAULT_VALID c = false ∧ d.ram = s.dev.ram ∧
       RegsBut s.dev d ([F.mgmt_STATE, F.mgmt_FAULT_VA, F.mgmt_FAULT_CODE, F.mgmt_FAULT_STREAM, F.mgmt_FAULT_WRITE,
         F.mgmt_FAULT_VALID, F.mgmt_FAULT_TIME].map (fun f => f.key B.mgmt c) ++ [F.mgmt_FUNC_OFF.key B.mgmt 0]))) ∧
     (off → Runs (.enable who c) s (fun d => RegsBut s.dev d [F.mgmt_DIS_REJECT.key B.mgmt 0] ∧
       d.g B.mgmt F.mgmt_DIS_REJECT = min (s.dev.g B.mgmt F.mgmt_DIS_REJECT + 1) 255)) ∧
     (s.dev.ctxState c = 1 → Runs (.suspend who c) s (fun d =>
       d.ctxState c = (if s.dev.ctxRunning c = 0 then 3 else 2) ∧ RegsBut s.dev d [F.mgmt_STATE.key B.mgmt c])) ∧
     ((s.dev.ctxState c = 2 ∨ s.dev.ctxState c = 3) →
       s.dev.colls.filter (fun x => x.2.ctx == c && x.2.mine.isNone) = [] → Undisturbed s.dev (s.dev.ctxResume c) →
       Runs (.resume who c) s (fun d => d.ctxState c = 1 ∧
         (∀ n slot e, d.entry n slot = some e → e.desc.ctx = c → e.parked = false) ∧
         Told d 0x11 0 0x0208 (dtl [(1, c), (4, s.dev.ctxParked c)])))) ∧
  (∀ (s : State) (who : Initiator) (fn : Nat) (abort : Bool), isFunc fn = true → Writes s.dev .mgmt true who →
     s.dev.gb B.mgmt F.mgmt_DIS_BUSY = false →
     (s.dev.isOff fn = false → Undisturbed s.dev (s.dev.funcDisableCmd fn abort) →
       Runs (.funcDisable who fn abort) s (fun d => d.g B.mgmt F.mgmt_DIS_FUNC = fn ∧
         d.gb B.mgmt F.mgmt_DIS_POLICY = abort ∧
         ((d.gb B.mgmt F.mgmt_DIS_BUSY = true ∧ d.isOff fn = false) ∨
          (d.gb B.mgmt F.mgmt_DIS_BUSY = false ∧ d.isOff fn = true ∧ d.gb B.mgmt F.mgmt_DIS_DONE = true)))) ∧
     (16 ≤ fn → s.dev.funcOff fn = true → Runs (.funcEnable who fn) s (fun d => d.funcOff fn = false ∧
       d.ram = s.dev.ram ∧ ∀ k, k ≠ fn → d.funcOff k = s.dev.funcOff k))) ∧
  (∀ (s : State) (who : Initiator) (k v : Nat), k < 64 → v < 2 ^ 48 → Writes s.dev .mgmt true who →
     Runs (.regionDescriptorWrite who k 0 v) s (fun d => d.g B.mgmt F.mgmt_RD_BASE k = v / 65536 ∧
       RegsBut s.dev d [F.mgmt_RD_BASE.key B.mgmt k]) ∧
     Runs (.regionDescriptorWrite who k 8 v) s (fun d => d.g B.mgmt F.mgmt_RD_LIMIT k = v / 65536 ∧
       RegsBut s.dev d [F.mgmt_RD_LIMIT.key B.mgmt k]) ∧
     Runs (.regionDescriptorWrite who k 0x14 v) s (fun d => d.g B.mgmt F.mgmt_SID_LO k = v % 4096 ∧
       d.g B.mgmt F.mgmt_SID_HI k = v / 65536 % 4096 ∧
       RegsBut s.dev d [F.mgmt_SID_LO.key B.mgmt k, F.mgmt_SID_HI.key B.mgmt k]) ∧
     Runs (.regionDescriptorWrite who k 0x10 v) s (fun d => d.gb B.mgmt F.mgmt_RD_EN k =
         (bit v 0 && (s.dev.gb B.mgmt F.mgmt_RD_EN k ||
           decide (s.dev.g B.mgmt F.mgmt_RD_BASE k ≤ s.dev.g B.mgmt F.mgmt_RD_LIMIT k))) ∧
       d.gb B.mgmt F.mgmt_RD_SECURE k = bit v 1 ∧ d.gb B.mgmt F.mgmt_PERM_R k = bit v 2 ∧
       d.gb B.mgmt F.mgmt_PERM_W k = bit v 3 ∧ d.g B.mgmt F.mgmt_ILV k = bits v 5 4 ∧
       d.gb B.mgmt F.mgmt_SID_ANY k = bit v 6 ∧ d.g B.mgmt F.mgmt_CTX_MASK k = v / 65536 % 65536 ∧
       RegsBut s.dev d ([F.mgmt_RD_EN, F.mgmt_RD_SECURE, F.mgmt_PERM_R, F.mgmt_PERM_W, F.mgmt_ILV, F.mgmt_SID_ANY,
         F.mgmt_CTX_MASK].map (fun f => f.key B.mgmt k)) ∧
       (d.gb B.mgmt F.mgmt_RD_EN k = true → s.dev.gb B.mgmt F.mgmt_RD_EN k = false → bits v 5 4 ≠ 0 →
         vaultGroup (s.dev.rdBase k) (s.dev.rdEnd k) = none → Told d 0x11 0 0x022A (dtl [(1, k)]))))

/-! ### Sync objects and mailboxes -/

/-- SIG_ADD: a non-zero increment that the object admits joins the changes waiting there; 0 is ignored; a refused one is
counted and raised with its reason (R290, R295, R297). SYNC_CHANGE_APPLY: the next change is applied, an increment held at
2⁶⁴ − 1, a clear giving 0 (R287, R289).

SYNC_CFG_WRITE by a secure initiator: with no waiter the object takes the configuration, and a
clear joins the changes waiting there where CLR is written; with waiters a change of it
is refused and raised with reason 4; a non-secure one reaches SAT alone (R14, R296).

Choices of the model in this statement: log entries 83, 86. -/
def Obligations.SyncObjects : Prop :=
  (∀ (s : State) (who : Initiator) (o v : Nat), v < 2 ^ 32 →
     (Writes s.dev (.sync o) false who →
       Runs (.sigAdd who o 0) s (fun d => d = s.dev) ∧
       (v ≠ 0 → s.dev.syncDeny o who.sid who.ctx = none → Runs (.sigAdd who o v) s (fun d =>
         d.syncPending.getD o [] = s.dev.syncPending.getD o [] ++ [⟨s.dev.fabCycle, who.sid, some v, false⟩] ∧
         ∀ p, p ≠ o → d.syncPending.getD p [] = s.dev.syncPending.getD p [])) ∧
       (∀ r, v ≠ 0 → s.dev.syncDeny o who.sid who.ctx = some r → Runs (.sigAdd who o v) s (fun d =>
         d.syncPending = s.dev.syncPending ∧ d.regs = s.dev.regs ∧
         d.dcnt 0x7010 0x01 = min (s.dev.dcnt 0x7010 0x01 + 1) (2 ^ 32 - 1) ∧
         Told d 0x0B (o / 2048) 0x0101 (dtlWord (o % 2 ^ 14 + 2 ^ 14 + 2 ^ 16 * r))))) ∧
     (∀ c rest, s.dev.domOn (Dom.region (o / 2048)) = true →
       nextChange (s.dev.syncPending.getD o []) = some (c, rest) →
       Runs (.syncChangeApply o) s (fun d => d.syncPending.getD o [] = rest ∧
         d.g (B.sync o) F.sync_COUNT = (match c.incr with
           | none => 0
           | some n => min (s.dev.g (B.sync o) F.sync_COUNT + n) (2 ^ 64 - 1)) ∧
         d.syncWatch o = (s.dev.syncWatch o).filter (fun w => !w.holds (d.g (B.sync o) F.sync_COUNT))))) ∧
  (∀ (s : State) (who : Initiator) (o v : Nat), v < 2 ^ 32 → Writes s.dev (.sync o) false who →
     let fs := [F.sync_OBJ_EN, F.sync_SCOPE, F.sync_CLUSTER, F.sync_OBJ_CTX, F.sync_CTX_ANY, F.sync_KEY_SLOT]
     (who.secure = true → s.dev.syncWatch o = [] → Runs (.syncCfgWrite who o v) s (fun d =>
       (∀ F ∈ fs, d.g (B.sync o) F = v / 2 ^ F.lo % 2 ^ F.w) ∧
       RegsBut s.dev d (F.sync_SAT.key (B.sync o) 0 :: fs.map (fun F => F.key (B.sync o) 0)) ∧
       d.syncPending.getD o [] = s.dev.syncPending.getD o [] ++
         (if bit v 10 then [⟨s.dev.fabCycle, who.sid, none, false⟩] else []))) ∧
     (who.secure = true → s.dev.syncWatch o ≠ [] → (∃ F ∈ fs, s.dev.g (B.sync o) F ≠ v / 2 ^ F.lo % 2 ^ F.w) →
       Runs (.syncCfgWrite who o v) s (fun d => RegsBut s.dev d [F.sync_SAT.key (B.sync o) 0] ∧
         Told d 0x0B (o / 2048) 0x0101 (dtlWord (o % 2 ^ 14 + 2 ^ 16 * 4)))) ∧
     (who.secure = false → Runs (.syncCfgWrite who o v) s (fun d =>
       RegsBut s.dev d [F.sync_SAT.key (B.sync o) 0, F.sec_SEC_WORLD_CNT.key B.sec 0] ∧
       (bit v 11 = true → d.gb (B.sync o) F.sync_SAT = false))))

/-- MAILBOX_SEND stores the message with its sender in the slot of a SHARED mailbox, counting a collision where it was FULL,
or in the sender's own empty channel;
a mailbox that is off refuses it (R299–R301). POP_CH empties a channel (R304). MBX_TIMEOUT sets the TMO bit of a slot that
has stayed FULL for TMO_US (R302).

Choices of the model in this statement: log entries 84, 177. -/
def Obligations.MailboxSlots : Prop :=
  ∀ (s : State) (who : Initiator) (m c : Nat) (msg : Bytes), c < 8 →
    (Writes s.dev (.mbx m) false who → s.dev.gb (B.mbx m) F.mbx_MBX_EN = true →
      (s.dev.gb (B.mbx m) F.mbx_MODE = false → Runs (.mailboxSend who m msg) s (fun d =>
        d.mbxSlot m 0 = ⟨padTo 64 msg, who.sid, s.dev.varve, true, false⟩ ∧
        ((s.dev.mbxSlot m 0).full = true → d.gb (B.mbx m) F.mbx_COLLISION = true ∧
          d.g (B.mbx m) F.mbx_COLL_CNT = min (s.dev.g (B.mbx m) F.mbx_COLL_CNT + 1) (2 ^ F.mbx_COLL_CNT.w - 1)))) ∧
      (s.dev.gb (B.mbx m) F.mbx_MODE = true → who.sid ≠ 0xFFF →
        (List.range 8).find? (fun k => s.dev.g (B.mbx m) F.mbx_CH_SID k == who.sid) = some c →
        (s.dev.mbxSlot m c).full = false → Runs (.mailboxSend who m msg) s (fun d =>
          d.mbxSlot m c = ⟨padTo 64 msg, who.sid, s.dev.varve, true, false⟩ ∧
          ∀ k, k < 8 → k ≠ c → d.mbxSlot m k = s.dev.mbxSlot m k)) ∧
      ((s.dev.mbxSlot m c).full = true → Runs (.popCh who m c) s (fun d => d.mbxSlot m c =
        { s.dev.mbxSlot m c with full := false, tmo := false }))) ∧
    (Writes s.dev (.mbx m) false who → s.dev.gb (B.mbx m) F.mbx_MBX_EN = false →
      Runs (.mailboxSend who m msg) s (fun d => d.mbxSlots = s.dev.mbxSlots ∧
        d.g (B.mbx m) F.mbx_REFUSE_CNT = min (s.dev.g (B.mbx m) F.mbx_REFUSE_CNT + 1) (2 ^ 32 - 1))) ∧
    (s.dev.answers (.mbx m) = true → (s.dev.mbxSlot m c).full = true → (s.dev.mbxSlot m c).tmo = false →
      (s.dev.mbxSlot m c).since + 1000 * s.dev.g (B.mbx m) F.mbx_TMO_US ≤ s.dev.varve →
      Runs (.mbxTimeout m c) s (fun d => d.mbxSlot m c = { s.dev.mbxSlot m c with tmo := true } ∧
        bit (d.g (B.mbx m) F.mbx_TMO) c = true ∧
        Told d 0x0C m 0x0111 (dtl [(1, m), (1, c), (2, (s.dev.mbxSlot m c).sid)])))

/-- The use of sync objects and mailboxes after reset (R298, R305): an object is usable when its region's infrastructure
domain is on, a mailbox when the management domain is, neither when its domain is off or fenced; a cold or warm reset
leaves every object with COUNT 0 and OBJ_EN 0, every mailbox disabled and every slot EMPTY. -/
def Obligations.SyncAndMailboxesAtReset : Prop :=
  (∀ (d : Dev) (o m : Nat), o < 16384 → d.domFenced Dom.spine = false →
    (d.domUp (Dom.region (o / 2048)) = true ↔ d.answers (.sync o) = true) ∧
    (d.domUp Dom.mgmt = true ↔ d.answers (.mbx m) = true)) ∧
  (∀ (s : State) (i : Instr), i ∈ [Instr.poresetNAssert, .powerLoss, .vddAonPor, .warmReset] →
    (i = .warmReset → s.dev.mgmtRuns = true) → Runs i s (fun d =>
      (∀ o < 16384, d.g (B.sync o) F.sync_COUNT = 0 ∧ d.gb (B.sync o) F.sync_OBJ_EN = false) ∧
      ∀ m < 64, d.gb (B.mbx m) F.mbx_MBX_EN = false ∧ ∀ c < 8, (d.mbxSlot m c).full = false))

/-! ### The host port -/

/-- The commands of a channel that change its banks and mode bits: ACT opens the row, PRE closes the bank or all banks,
REF is counted, self-refresh is entered and left, the last TRAINING command completes training, an unsupported command is
counted (R308, R311, R312, R326); a command spaced below the standard's minimum is counted and executed all the same.
HOST_RESET closes every bank and clears the channel's mode; staging and the host queues stay (R325).

MRW of a register keeps its value, unsupported features staying zero, and what it programs takes effect: a set point's
read latency, its clock, the active set point, link ECC; a read-only or undefined register ignores it and is counted; MRR
drives the value written, and the fixed one of MR5, MR6 and MR8 (R308, R309, R310). A command spaced below the standard's
minimum is counted and executed all the same (Table 11.8).

Choices of the model in this statement: log entries 107, 110, 112, 114. -/
def Obligations.ChannelCommands : Prop :=
  (∀ (s : State) (h bank r kind : Nat) (b early : Bool),
     let err := if early then [F.mmp_PROTO_ERR_CNT.key B.mmp h] else []
     let keeps := fun (d : Dev) (ks : List Nat) => d.ram = s.dev.ram ∧ d.dram = s.dev.dram ∧
       RegsBut s.dev d (ks ++ err)
     (s.dev.chTakes h = true → bank < 16 → r < 32768 →
       Runs (.act h bank r early) s (fun d => (d.chan h).rows.get? bank = some r ∧
         keeps d [F.mmp_PROTO_ERR_CNT.key B.mmp h] ∧
         ∀ k, k ≠ bank → (d.chan h).rows.get? k = (s.dev.chan h).rows.get? k) ∧
       Runs (.pre h bank b early) s (fun d => (d.chan h).rows.get? bank = none ∧ keeps d [] ∧
         ∀ k, k ≠ bank → (d.chan h).rows.get? k = if b then none else (s.dev.chan h).rows.get? k) ∧
       Runs (.ref h bank early) s (fun d => keeps d [F.mmp_REF_CNT.key B.mmp h] ∧
         d.g B.mmp F.mmp_REF_CNT h = min (s.dev.g B.mmp F.mmp_REF_CNT h + 1) (2 ^ 32 - 1) ∧
         (early = true → d.g B.mmp F.mmp_PROTO_ERR_CNT h = min (s.dev.g B.mmp F.mmp_PROTO_ERR_CNT h + 1)
           (2 ^ 32 - 1))) ∧
       Runs (.selfRefreshEntry h early) s (fun d => d.gb B.mmp F.mmp_IN_SR h = true ∧
         keeps d [F.mmp_IN_SR.key B.mmp h]) ∧
       Runs (.selfRefreshExit h early) s (fun d => d.gb B.mmp F.mmp_IN_SR h = false ∧
         keeps d [F.mmp_IN_SR.key B.mmp h]) ∧
       Runs (.training h kind b early) s (fun d => (d.chan h).out.isSome = true ∧
         d.gb B.mmp F.mmp_TRAINED h = (s.dev.gb B.mmp F.mmp_TRAINED h || b) ∧ keeps d [F.mmp_TRAINED.key B.mmp h]) ∧
       Runs (.unsupportedCommand h) s (fun d => keeps d [F.mmp_PROTO_ERR_CNT.key B.mmp h] ∧
         d.g B.mmp F.mmp_PROTO_ERR_CNT h = min (s.dev.g B.mmp F.mmp_PROTO_ERR_CNT h + 1) (2 ^ 32 - 1))) ∧
     (s.dev.chServes h = true → Runs (.hostReset h) s (fun d => (d.chan h).rows = [] ∧ (d.chan h).mrs = [] ∧
       d.gb B.mmp F.mmp_HALT h = false ∧ d.gb B.mmp F.mmp_IN_SR h = false ∧ d.ram = s.dev.ram ∧ d.hq = s.dev.hq))) ∧
  (∀ (s : State) (h reg v mask f x : Nat) (p w early : Bool), s.dev.chServes h = true → f < 3 →
     let err := if early then [F.mmp_PROTO_ERR_CNT.key B.mmp h] else []
     let sets := fun (d : Dev) => (d.chan h).mrs.get? reg = some (v % 256) ∧ d.ram = s.dev.ram ∧
       ∀ k, k ≠ reg → (d.chan h).mrs.get? k = (s.dev.chan h).mrs.get? k
     (reg ≠ 5 → reg ≠ 6 → reg ≠ 8 →
       Runs (.mrw h reg v .plain early) s (fun d => sets d ∧ RegsBut s.dev d err) ∧
       Runs (.mrw h reg v (.unsupported mask) early) s (fun d => ∃ y, (d.chan h).mrs.get? reg = some y ∧
         ∀ i, bit mask i = true → bit y i = false) ∧
       Runs (.mrw h reg v (.latency f x) early) s (fun d => sets d ∧ (d.chan h).rls.getD f 0 = x % 256) ∧
       Runs (.mrw h reg v (.clock f x w) early) s (fun d => sets d ∧ (d.chan h).rates.get? f = some (x % 65536, w)) ∧
       Runs (.mrw h reg v (.activate f) early) s (fun d => sets d ∧ d.g B.mmp F.mmp_FSP h = f) ∧
       Runs (.mrw h reg v (.linkEcc p w) early) s (fun d => sets d ∧ d.gb B.mmp F.mmp_LECC_RD h = p ∧
         d.gb B.mmp F.mmp_LECC_WR h = w ∧
         RegsBut s.dev d (err ++ [F.mmp_LECC_RD.key B.mmp h, F.mmp_LECC_WR.key B.mmp h])) ∧
       (∀ y, (s.dev.chan h).mrs.get? reg = some y → Runs (.mrr h reg early) s (fun d =>
         (d.chan h).out = some [byte y] ∧ RegsBut s.dev d err ∧ d.ram = s.dev.ram))) ∧
     (∀ e, (e = .readOnly ∨ reg ∈ [5, 6, 8]) →
       Runs (.mrw h reg v e early) s (fun d => (d.chan h).mrs = (s.dev.chan h).mrs ∧
       d.g B.mmp F.mmp_PROTO_ERR_CNT h = min (s.dev.g B.mmp F.mmp_PROTO_ERR_CNT h + 1 + b2n early) (2 ^ 32 - 1) ∧
       RegsBut s.dev d [F.mmp_PROTO_ERR_CNT.key B.mmp h] ∧ d.ram = s.dev.ram)) ∧
     (∀ y, s.dev.modeFixed s.otp reg = some y → Runs (.mrr h reg early) s (fun d =>
       (d.chan h).out = some [byte y] ∧ RegsBut s.dev d err ∧ d.ram = s.dev.ram)))

/-- RD drives what staging holds at the open row, WR stores the burst there, MASKED_WRITE stores the bytes its mask
enables; every other byte stays; a write burst that link ECC finds uncorrectable is dropped and counted. RD drives zeros,
and is counted, below the minimum read latency, at a closed bank and in dead space (R310, R312, R313, R316, R326). A command
spaced below the standard's minimum is executed all the same (Table 11.8).

SQ_PROD_WRITE and CQ_ACK_WRITE: a doorbell value that neither overflows the ring nor goes back behind it is recorded
and counted; any other is refused, counted and raised (R319).

Choices of the model in this statement: log entries 110, 113, 116. -/
def Obligations.StagingBursts : Prop :=
  (∀ (s : State) (h bank col row ecc : Nat) (bl32 early : Bool) (data : Bytes) (mask : Nat), s.dev.chTakes h = true →
     bank < 16 → s.dev.gb B.mmp F.mmp_IN_SR h = false → s.dev.gb B.mmp F.mmp_TRAINED h = true →
     let n := if bl32 then 64 else 32
     let zeroed := fun (d : Dev) => (d.chan h).out = some (zeros n) ∧ d.ram = s.dev.ram
     ((s.dev.chan h).rows.get? bank = none → Runs (.rd h bank col bl32 early) s zeroed) ∧
     ((s.dev.chan h).rows.get? bank = some row →
     let ca := chanAddr row bank col n
     let a := B.staging h + ca
     let c := chanAddr row bank col 32
     let w := B.staging h + c
     let lost := s.dev.gb B.mmp F.mmp_LECC_WR h = true ∧ ecc = 2
     let drops := fun (d : Dev) => d.ram = s.dev.ram ∧
       d.g B.mmp F.mmp_LECC_UE_CNT h = min (s.dev.g B.mmp F.mmp_LECC_UE_CNT h + 1) (2 ^ 32 - 1)
     (s.dev.rlShort h = true ∨ 0x4100000 ≤ ca → Runs (.rd h bank col bl32 early) s zeroed) ∧
     (ca < 0x4000000 → s.dev.rlShort h = false → (∀ i, i < n / 32 → s.dev.sramErr (a + 32 * i) = []) →
       Runs (.rd h bank col bl32 early) s (fun d => (d.chan h).out = some (Memory.readN s.dev.ram a n) ∧
         d.ram = s.dev.ram ∧ RegsBut s.dev d (if early then [F.mmp_PROTO_ERR_CNT.key B.mmp h] else []))) ∧
     (ca < 0x4000000 → ¬ lost → Runs (.wr h bank col bl32 data ecc early) s (fun d =>
       Memory.readN d.ram a n = padTo n data ∧
       ∀ e, (e < a ∨ a + n ≤ e) → Memory.read d.ram e = Memory.read s.dev.ram e)) ∧
     (c < 0x4000000 → ¬ lost → s.dev.sramErr w = [] → Runs (.maskedWrite h bank col data mask ecc early) s (fun d =>
       (∀ i, i < 32 → Memory.read d.ram (w + i) =
         if bit mask i then (padTo 32 data).getD i 0 else Memory.read s.dev.ram (w + i)) ∧
       ∀ e, (e < w ∨ w + 32 ≤ e) → Memory.read d.ram e = Memory.read s.dev.ram e)) ∧
     (lost → Runs (.wr h bank col bl32 data ecc early) s drops ∧
       Runs (.maskedWrite h bank col data mask ecc early) s drops))) ∧
  (∀ (s : State) (q v : Nat), q < 32 → v < 2 ^ 32 → s.dev.chWrites (q / 16) = true →
     (sub32 v (s.dev.g B.mmp F.mmp_SQ_CONS q) ≤ 2 ^ s.dev.g B.mmp F.mmp_SQ_LOG2 q →
       Runs (.sqProdWrite q v) s (fun d =>
       d.g B.mmp F.mmp_SQ_PROD_SEEN q = v ∧
       d.g B.mmp F.mmp_DB_CNT (q / 16) = min (s.dev.g B.mmp F.mmp_DB_CNT (q / 16) + 1) (2 ^ 32 - 1) ∧
       RegsBut s.dev d [F.mmp_SQ_PROD_SEEN.key B.mmp q, F.mmp_DB_CNT.key B.mmp (q / 16)])) ∧
     let counts := fun (d : Dev) (f : Fld) => d.g B.mmp f (q / 16) = min (s.dev.g B.mmp f (q / 16) + 1) (2 ^ 32 - 1)
     (2 ^ s.dev.g B.mmp F.mmp_SQ_LOG2 q < sub32 v (s.dev.g B.mmp F.mmp_SQ_CONS q) →
       Runs (.sqProdWrite q v) s (fun d =>
       counts d F.mmp_DB_REJECT_CNT ∧ RegsBut s.dev d [F.mmp_DB_REJECT_CNT.key B.mmp (q / 16)] ∧
         Told d 0x14 q 0x0B03 (dtl [(2, q), (4, v)]))) ∧
     (0 ≤ sint 32 (sub32 (s.dev.g B.mmp F.mmp_CQ_PROD q) v) → Runs (.cqAckWrite q v) s (fun d =>
       d.g B.mmp F.mmp_CQ_ACK_SEEN q = v ∧ counts d F.mmp_DB_CNT ∧
       RegsBut s.dev d [F.mmp_CQ_ACK_SEEN.key B.mmp q, F.mmp_DB_CNT.key B.mmp (q / 16)])) ∧
     (sint 32 (sub32 (s.dev.g B.mmp F.mmp_CQ_PROD q) v) < 0 → Runs (.cqAckWrite q v) s (fun d =>
       counts d F.mmp_DB_REJECT_CNT ∧ RegsBut s.dev d [F.mmp_DB_REJECT_CNT.key B.mmp (q / 16)] ∧
         Told d 0x14 q 0x0B03 (dtl [(2, q), (4, v)]))))

/-- Firmware takes a host command (R318–R320): one of an OFF or DISABLING context ends with 0x0205, and an ill-formed one
with its status and DETAIL; of the well-formed, HOST_NOP ends with 0; COPY_IN and COPY_OUT of one granule at a mapped
address of the package run to their end on the engine named, a refused access among them (R268); FRAME, MAP and RUN hand
their descriptors to the core, or end with the fault of their request; PUBLISH copies its output and holds the request for
Rime. Their accesses meet no vault that holds them and write no register (R22, R250).

HQ_COMPLETE of a command that has ended: its completion entry stands in the completion ring, CQ_PROD advances, and
firmware no longer holds the command (R321).

Choices of the model in this statement: log entries 118, 119, 120, 121, 122, 190, 195. -/
def Obligations.HostCommands : Prop :=
  (∀ (s : State) (q f core gran hdr rfl fc ts : Nat) (x : Bytes) (l : TcEntry),
     let ctx := s.dev.g B.mmp F.mmp_HQ_CTX q
     let pa := l.pa + Hc.va x % (if l.large then 0x200000 else 0x10000)
     let copies := fun (d : Dev) => Newest d q x (fun c => c.fe = f ∧ c.copied = true ∧
       (c.moved = 1 ∨ c.met.any (fun m => m.1 == 0x0204) = true))
     let mapped := s.dev.hqEngine f = some f ∧ s.dev.feTagFree f = true ∧ s.dev.feAborted f ctx = false ∧
       Hc.len x = 64 ∧
       Hc.va x % 64 = 0 ∧ Hc.va x < 2 ^ s.dev.g B.mgmt F.mgmt_VA_BITS ctx ∧
       (s.dev.tc (f / 8)).leaf.find? (fun t => t.hits ctx (Hc.va x)) = some l ∧ l.write = true ∧ pa < 0xC00000000
     (∀ i kind, (i, kind) ∈ [(Instr.hostNop q, 0), (.copyIn q f, 1), (.copyOut q f, 2), (.frame q core gran, 3),
         (.map q core gran hdr, 4), (.run q, 5), (.publish q f rfl fc ts, 6)] → HostHead s.dev q kind x → core < 512 →
       gran + 17 ≤ 16384 → hdr < 2 ^ 48 →
       (s.dev.ctxState ctx = 0 ∨ s.dev.ctxState ctx = 4 →
         Runs i s (fun d => Newest d q x (fun c => c.fin = some (0x0205, 0)) ∧ d.ram = s.dev.ram ∧
           d.dram = s.dev.dram)) ∧
       (∀ b, s.dev.ctxState ctx = 1 → s.dev.hqBad (q / 16) x false = some b →
         Runs i s (fun d => Newest d q x (fun c => c.fin = some b) ∧ d.ram = s.dev.ram ∧ d.dram = s.dev.dram))) ∧
     (HostCommand s.dev q 0 x → Runs (.hostNop q) s (fun d => Newest d q x (fun c => c.fin = some (0, 0)) ∧
       d.ram = s.dev.ram ∧ d.dram = s.dev.dram ∧
       d.g B.mmp F.mmp_SQ_CONS q = (s.dev.g B.mmp F.mmp_SQ_CONS q + 1) % 2 ^ 32 ∧
       RegsBut s.dev d [F.mmp_SQ_CONS.key B.mmp q])) ∧
     (HostCommand s.dev q 1 x → mapped → Undisturbed s.dev (s.dev.copyIn q f) → Runs (.copyIn q f) s copies) ∧
     (HostCommand s.dev q 2 x → mapped → Undisturbed s.dev (s.dev.copyOut q f) → Runs (.copyOut q f) s copies) ∧
     (HostCommand s.dev q 3 x → core < 512 → gran + 17 ≤ 16384 → Undisturbed s.dev (s.dev.hostFrame q core gran) →
       Runs (.frame q core gran) s (fun d => Newest d q x (fun c => c.fin.isSome = true ∨
         (c.core = core ∧ c.dst = gran + min (max (Hc.sweeps x) 1) 16)))) ∧
     (HostCommand s.dev q 4 x → core < 512 → gran < 16384 → hdr < 2 ^ 48 →
       Undisturbed s.dev (s.dev.hostMap q core gran hdr) → Runs (.map q core gran hdr) s (fun d =>
         Newest d q x (fun c => c.fin.isSome = true ∨ (c.core = core ∧ c.dst = gran)))) ∧
     (HostCommand s.dev q 5 x → Undisturbed s.dev (s.dev.hostRun q) → Runs (.run q) s (fun d =>
       Newest d q x (fun c => c.fin.isSome = true ∨ c.core = Hc.core x))) ∧
     (HostCommand s.dev q 6 x → mapped → Undisturbed s.dev (s.dev.hostPublish q f rfl fc ts) →
       Runs (.publish q f rfl fc ts) s (fun d => copies d ∧ Newest d q x (fun c =>
         c.req = natLE 2 (Hc.stream x) ++ natLE 2 (rfl % 16) ++ natLE 4 fc ++ natLE 8 ts ++ natLE 4 (Hc.stg x) ++
           natLE 4 (Hc.len x) ++ natLE 4 (s.dev.hqIds + 1) ++ zeros 36)))) ∧
  (∀ (s : State) (q k st det : Nat) (c : HCmd), q < 32 → s.dev.hqServed q = true →
     (s.dev.hqueue q).cmds[k]? = some c → s.dev.hcmd q c.id = some c → c.fin = some (st, det) →
     s.dev.g B.mmp F.mmp_CQ_BASE q % 64 = 0 →
     let n := s.dev.g B.mmp F.mmp_CQ_PROD q
     sub32 n (s.dev.g B.mmp F.mmp_CQ_ACK_SEEN q) < 2 ^ s.dev.g B.mmp F.mmp_CQ_LOG2 q →
     let a := B.staging (q / 16) + ringOff (s.dev.g B.mmp F.mmp_CQ_BASE q) (s.dev.g B.mmp F.mmp_CQ_LOG2 q) n
     Runs (.hqComplete q k) s (fun d => d.hcmd q c.id = none ∧ d.g B.mmp F.mmp_CQ_PROD q = add32 n 1 ∧
       Memory.readN d.ram a 64 = cqEntry c q (add32 n 1) st det s.dev.t32 ∧
       ∀ e, (e < a ∨ a + 64 ≤ e) → Memory.read d.ram e = Memory.read s.dev.ram e))

/-! ### Links -/

/-- The port states of Table 12.3 (R330, R333): a write of PORT_EN trains a DISABLED port, drains an UP one and disables
any other; lanes that train to a mode the port accepts lead from TRAINING to CHECK, where this end sends its identity
(R334), and from RETRAIN within 10 ms back to UP, what was not acknowledged being sent again; a RETRAIN that does not end
returns to TRAINING before its third failure and fails then; a drained port is DISABLED. Where a port is left with
something under way, what becomes of it is not said here.

Entering and leaving UP: RETRAIN and a lost lane lock move an UP port to RETRAIN, counted; a partner whose identity is
right brings the port UP, and what waits is sent; a wrong one leaves it ISOLATED and is raised, where nothing is under way
(R333, R334). After the port's own change come the notices that firmware sends of it (`linkNotice`, R346).

Choices of the model in this statement: log entries 95, 208. -/
def Obligations.Ports : Prop :=
  (∀ (s : State) (who : Initiator) (p width : Nat) (en : Bool), p < 6 → s.dev.jobsLost = [] →
     let b := B.link p
     let x := s.dev.port p
     let st := s.dev.portState p
     let quiet := (∀ w ∈ x.txq, w.started = false) ∧ x.msgs = [] ∧ x.partialRx = [] ∧ x.fwd = []
     let gone := fun (end_ : Nat) (d : Dev) => d.portState p = end_ ∧ (d.port p).arrived = x.arrived ∧
       (d.port p).txq = x.txq ∧
       (d.port p).replay = []
     (Writes s.dev (.link p) true who → LinkUndisturbed s.dev (s.dev.portEn p en) →
       (en = true → Runs (.portEnWrite who p en) s (fun d => d.portState p = (if st = 0 then 1 else st) ∧
         d.gb b F.link_PORT_EN = true ∧ RegsBut s.dev d [F.link_STATE.key b 0, F.link_PORT_EN.key b 0])) ∧
       (en = false → st = 0 → Runs (.portEnWrite who p en) s (fun d => d.portState p = 0 ∧
         d.gb b F.link_PORT_EN = false ∧ RegsBut s.dev d [F.link_PORT_EN.key b 0])) ∧
       (en = false → st = 3 → Runs (.portEnWrite who p en) s (fun d => ∃ e, d = e.linkNotice ∧ e.portState p = 7 ∧
         e.gb b F.link_PORT_EN = false ∧ (e.port p).since = s.dev.varve ∧
         RegsBut s.dev e [F.link_STATE.key b 0, F.link_PORT_EN.key b 0])) ∧
       (en = false → st ≠ 0 → st ≠ 3 → quiet → Runs (.portEnWrite who p en) s (fun d => gone 0 d ∧
         d.gb b F.link_PORT_EN = false ∧ (st ≠ 7 → Told d 0x06 p 0x0710 (dtl [(1, p), (1, 0)]))))) ∧
     (s.dev.domUp (Dom.port p) = true →
       ((width = 16 ∨ (width = 8 ∧ s.dev.gb b F.link_ALLOW_W8 = true)) →
         (st = 1 → s.dev.gb B.link0 F.link0_TOPO_EN = true →
           Runs (.lanesTrained p width) s (fun d => d.portState p = 2 ∧
           d.gb b F.link_WIDTH8 = decide (width = 8) ∧ d.gb b F.link_RATE_HALF = s.dev.gb b F.link_RATE_56 ∧
           d.identOut = s.dev.identOut ++ [(p, s.dev.identity)] ∧
           RegsBut s.dev d [F.link_STATE.key b 0, F.link_WIDTH8.key b 0, F.link_RATE_HALF.key b 0])) ∧
         (st = 4 → s.dev.varve ≤ x.since + 10000000 → LinkUndisturbed s.dev (s.dev.lanesTrained p width) →
           Runs (.lanesTrained p width) s (fun d => ∃ e, d = e.linkNotice.pump p ∧ e.portState p = 3 ∧
             e.gb b F.link_WIDTH8 = decide (width = 8) ∧ (e.port p).retrainFails = 0 ∧
             e.linkOut = s.dev.linkOut ++ x.replay.map (fun f => (p, f)) ∧
             RegsBut s.dev e [F.link_STATE.key b 0, F.link_WIDTH8.key b 0]))) ∧
       (st = 4 → x.since + 10000000 ≤ s.dev.varve →
         (x.retrainFails < 2 → Runs (.retrainTimeout p) s (fun d => d.portState p = 1 ∧
           (d.port p).retrainFails = x.retrainFails + 1 ∧ d.linkOut = s.dev.linkOut ∧
           RegsBut s.dev d [F.link_STATE.key b 0])) ∧
         (2 ≤ x.retrainFails → quiet → LinkUndisturbed s.dev (s.dev.retrainTimeout p) →
           Runs (.retrainTimeout p) s (fun d => gone 6 d ∧ Told d 0x06 p 0x0710 (dtl [(1, p), (1, 6)])))) ∧
       (st = 7 → (x.replay = [] ∨ x.since + 1000000 ≤ s.dev.varve) → quiet →
         Runs (.drainEnd p) s (fun d => gone 0 d ∧ d.evq = s.dev.evq ∧ d.linkOut = s.dev.linkOut ∧
           RegsBut s.dev d [F.link_STATE.key b 0])))) ∧
  (∀ (s : State) (who : Initiator) (p id x y z dx dy dz : Nat), p < 6 →
     let b := B.link p
     let n := s.dev.neighbour s.dev.pkgId p
     let ok := dx = s.dev.g B.link0 F.link0_DIM_X ∧ dy = s.dev.g B.link0 F.link0_DIM_Y ∧
       dz = s.dev.g B.link0 F.link0_DIM_Z ∧ id ≠ s.dev.pkgId ∧ x = s.dev.at_ n 0 ∧ y = s.dev.at_ n 1 ∧
         z = s.dev.at_ n 2
     let retrains := fun (d : Dev) => ∃ e, d = e.linkNotice ∧ e.portState p = 4 ∧ (e.port p).since = s.dev.varve ∧
       e.g b F.link_RETRAIN_CNT = min (s.dev.g b F.link_RETRAIN_CNT + 1) (2 ^ 32 - 1) ∧
       RegsBut s.dev e [F.link_STATE.key b 0, F.link_RETRAIN_CNT.key b 0]
     (s.dev.portState p = 3 → s.dev.domUp (Dom.port p) = true →
       (LinkUndisturbed s.dev (s.dev.laneLockLoss p) → Runs (.laneLockLoss p) s retrains) ∧
       (Writes s.dev (.link p) true who → LinkUndisturbed s.dev (s.dev.retrainWrite p) →
         Runs (.retrain who p) s retrains)) ∧
     (s.dev.portState p = 2 → s.dev.domUp (Dom.port p) = true →
       LinkUndisturbed s.dev (s.dev.partnerIdentity p id x y z dx dy dz) →
       (ok → Runs (.partnerIdentity p id x y z dx dy dz) s (fun d => ∃ e, d = e.linkNotice.pump p ∧
         e.portState p = 3 ∧
         e.g b F.link_NBR_PKG = id % 64 ∧ e.gb b F.link_NBR_VALID = true ∧
         RegsBut s.dev e [F.link_STATE.key b 0, F.link_NBR_PKG.key b 0, F.link_NBR_VALID.key b 0])) ∧
       (¬ ok → (∀ w ∈ (s.dev.port p).txq, w.started = false) → (s.dev.port p).msgs = [] →
         (s.dev.port p).partialRx = [] →
         (s.dev.port p).fwd = [] → Runs (.partnerIdentity p id x y z dx dy dz) s (fun d => d.portState p = 5 ∧
           Told d 0x06 p 0x0710 (dtl [(1, p), (1, 5)])))))

/-- FLIT_RECEIVE at a port that is UP or DRAINING: a DATA flit that decodes and is next in sequence is accepted, its
corrected symbols are counted, and a packet that begins and ends in it has arrived; an uncorrectable flit is counted,
answered by a NAK with the SEQ expected, and flits are discarded until the replay (R331, R332, R339). NAK, before the eighth
replay in a row: what the replay buffer still holds is sent again first, and counted (R332).

PACKET_FORWARD: the oldest packet that has come in at a port for another package, whole or in part, is counted and put
on its UP port, the class that crosses the dateline of its dimension being 1 (R337). ESCAPE_TIMEOUT: the oldest packet that
waits for an escape and has taken none takes the one that qualifies, counted; where none qualifies, a packet of another
package is dropped, counted and raised, and its source told (R338).

Choices of the model in this statement: log entries 88, 89, 90, 198. -/
def Obligations.PacketsMove : Prop :=
  (∀ (s : State) (p : Nat) (raw : Bytes) (errs : List (Nat × ErrPat)), p < 6 → s.dev.jobsLost = [] →
     s.dev.domUp (Dom.port p) = true → (s.dev.portState p = 3 ∨ s.dev.portState p = 7) →
     let x := s.dev.port p
     let b := B.link p
     (∀ (c : Bytes) (n m : Nat) (k : Pkt), flitDecode (padTo 256 raw) errs = some (c, n, m) →
       let f := { Flit.parse c with marks := m }
       f.ftype = 1 → bit f.flags 0 = true → bit f.flags 1 = true → bit f.flags 2 = false → bit f.flags 3 = false →
       f.seq = x.rxSeq → Pkt.parse f.payload = some k →
       Runs (.flitReceive p raw errs) s (fun d => (d.port p).rxSeq = (f.seq + 1) % 4096 ∧
         (d.port p).rxDiscard = false ∧
         (d.port p).arrived = x.arrived ++
           [⟨k, f.vc, if bit f.flags 5 then 2 else if bit f.flags 4 then 1 else 0, [(f.payload, m)], false⟩] ∧
         d.g b F.link_CE_SYM_CNT = min (s.dev.g b F.link_CE_SYM_CNT + n) (2 ^ 32 - 1) ∧ d.ram = s.dev.ram ∧
         d.dram = s.dev.dram)) ∧
     (flitDecode (padTo 256 raw) errs = none → Runs (.flitReceive p raw errs) s (fun d =>
       (d.port p).rxDiscard = true ∧ (d.port p).rxSeq = x.rxSeq ∧ (d.port p).arrived = x.arrived ∧
       d.g b F.link_UE_FLIT_CNT = min (s.dev.g b F.link_UE_FLIT_CNT + 1) (2 ^ 32 - 1) ∧
       ∃ f new, d.linkOut = s.dev.linkOut ++ (p, f) :: new ∧ f.ftype = 0 ∧ bit f.flags 3 = true ∧ f.ack = x.rxSeq)) ∧
     (∀ seq, seq < 4096 → (x.replaySeq = seq → x.replayRuns < 7) →
       let left := x.replay.dropWhile (fun f => decide (((seq + 4095) % 4096 + 4096 - f.seq) % 4096 < 2048))
       Runs (.nak p seq) s (fun d => d.g b F.link_REPLAY_CNT = min (s.dev.g b F.link_REPLAY_CNT + 1) (2 ^ 32 - 1) ∧
         ∃ new, d.linkOut = s.dev.linkOut ++ left.map (fun f => (p, f)) ++ new ∧
           (d.port p).replay = left ++ new.map (fun f => f.2)))) ∧
  (∀ (s : State) (p o : Nat), p < 6 → s.dev.jobsLost = [] → s.dev.domUp (Dom.port p) = true →
     let x := s.dev.port p
     (∀ a more, x.oldestFwd s.dev.pkgId = some (a, more) → s.dev.detPort a.pkt.dst = some o → s.dev.portUp o = true →
       let cls := if a.pkt.escaped then 2 else if s.dev.wraps o || (p / 2 == o / 2 && a.cls == 1) then 1 else 0
       Runs (.packetForward p) s (fun d => (d.port p).arrived = x.arrived.erase a ∧
         d.g (B.link p) F.link_FWD_PKT_CNT = min (s.dev.g (B.link p) F.link_FWD_PKT_CNT + 1) (2 ^ 32 - 1) ∧
         (more = true → (d.port p).fwd.get? (a.vc * 3 + a.cls) = some o) ∧
         (more = false → ∃ e : Dev, e.regs = s.dev.regs ∧ (e.port p).arrived = x.arrived.erase a ∧
           d = (e.enqueue o { pkt := a.pkt, vc := a.vc, cls := cls, from_ := some p, inCls := a.cls, data := a.data
                              bad := a.bad }).inc (B.link p) F.link_FWD_PKT_CNT))) ∧
     (∀ w, x.txq.find? (fun w => s.dev.wantsEscape p w) = some w → w.pkt.escaped = false → w.cls ≠ 2 →
       (s.dev.escapePort w.pkt.dst = some o → Runs (.escapeTimeout p) s (fun d =>
         d.g (B.link o) F.link_ESCAPE_CNT = min (s.dev.g (B.link o) F.link_ESCAPE_CNT + 1) (2 ^ 32 - 1) ∧
         ∃ e : Dev, e.regs = s.dev.regs ∧ (e.port p).txq = x.txq.erase w ∧
           d = (e.inc (B.link o) F.link_ESCAPE_CNT).enqueue o
             { w with pkt := { w.pkt with escaped := true }, cls := 2, data := escData w.data })) ∧
       (s.dev.escapePort w.pkt.dst = none → w.from_.isSome = true → w.bad = false →
         Runs (.escapeTimeout p) s (fun d =>
         ∃ e : Dev, d = e.unreachSend w.pkt ∧ (e.port p).txq = x.txq.erase w ∧
           e.g (B.link p) F.link_ROUTE_DROP_CNT = min (s.dev.g (B.link p) F.link_ROUTE_DROP_CNT + 1) (2 ^ 32 - 1) ∧
           Told e 0x06 p 0x0714 (dtl [(1, w.pkt.dst), (1, p)])))))

/-- WINDOW_ACCESS, RD_REQ and REMOTE_WRITE of a packet that R341 admits, for one granule of a scratchpad through an open
window that admits it: a write stores the granule, a read leaves memory; either is answered under the slot with the next
nonce (R111, R340, R341, R344).

What ends a remote access retires its tag: RD_RESP and WR_ACK that R341 admits, NAK_AUTH, UNREACH of one of its
packets, and REMOTE_TIMEOUT after REMOTE_TMO. Its operation then has the data: what an admitted read response carries, or
poisoned zeros; and its status where it failed: LINK_AUTH_FAIL, PEER_UNREACHABLE or REMOTE_TIMEOUT (R338, R341, R345). An
RD_RESP whose data goes on to another package waits for a link tag first (R48).

Choices of the model in this statement: log entries 91, 92, 93, 94, 197. -/
def Obligations.RemoteAccesses : Prop :=
  (∀ (s : State) (p : Nat) (i : Instr) (wr : Bool) (x : RxPkt) (k : Pkt) (t u : Dev) (w : Nat),
     (i, wr) ∈ [(Instr.windowAccess p, true), (.windowAccess p, false), (.rdReq p, false), (.remoteWrite p, true)] →
     let want : Pkt → Bool := if i = .windowAccess p then
         (fun k => (k.kind == 1 || k.kind == 2) && decide (0xC00000000 ≤ k.addr) && decide (k.addr < 0xC20000000))
       else if wr then (fun k => k.kind == 1) else (fun k => k.kind == 2)
     s.dev.takePkt p want = some (x, t) → t.authRx p x = (u, some k) → s.dev.peerReady k = true →
     0xC00000000 ≤ k.addr → k.addr < 0xC20000000 → k.addr % 64 = 0 → k.kind = (if wr then 1 else 2) →
       k.accessSize = 64 →
     let o := k.addr - 0xC00000000
     let n := o / 0x100000
     let pa := B.scratch n + o % 0x100000
     s.dev.winFor n (o % 0x100000 / 64) 1 k.src k.slot wr = some w →
     s.dev.domFenced Dom.spine = false → s.dev.memUp pa = some true →
     (s.dev.fwCheck { sid := 0x240 + p, ctx := s.dev.g (B.core n) F.core_WIN_CONTEXT w
                      secure := s.dev.gb (B.core n) F.core_WIN_SECURE w, pa := pa, wr := wr, size := 64 }).2 = true →
     (wr = false → s.dev.sramErr pa = [] ∧ s.dev.sramErr (pa + 32) = []) → s.dev.jobsLost = [] →
     Runs i s (fun d => (d.port p).arrived = (t.port p).arrived ∧
       d.nonceCtr.getD k.slot 0 = s.dev.nonceCtr.getD k.slot 0 + 1 ∧ d.dram = s.dev.dram ∧
       (wr = true → Memory.readN d.ram pa 64 = k.payload ∧
         ∀ e, (e < pa ∨ pa + 64 ≤ e) → Memory.read d.ram e = Memory.read s.dev.ram e) ∧
       (wr = false → d.ram = s.dev.ram))) ∧
  (∀ (s : State) (p : Nat) (r : RemoteOp),
     let left := s.dev.remoteOps.filter (fun o => !(o.port == r.port && o.tag == r.tag))
     let goesOn := fun (d e : Dev) (x : Rsp) => d = ((e.remoteDeliver r x).resumeMsgs r.port).disableSettle
     let ends := fun (x : Rsp) (d : Dev) => ∃ e : Dev, e.remoteOps = left ∧ e.ram = s.dev.ram ∧
       goesOn d e x
     let fails := fun (status : Nat) (d : Dev) => ∃ e : Dev, e.remoteOps = left ∧
       e.ram = s.dev.ram ∧ goesOn d (e.opMet r.op status r.peer) ⟨if r.wr then [] else zeros r.size, !r.wr, status,
         r.peer⟩
     (∀ a k t u, s.dev.takePkt p (fun k => k.kind == 3) = some (a, t) → t.authRx p a = (u, some k) →
       s.dev.remoteFor k.src k.tag = some r → r.wr = false → s.dev.remoteWaits r = false →
       LinkUndisturbed s.dev (s.dev.rdResp p) →
       (k.rstat = 2 → Runs (.rdResp p) s (fails 0x0701)) ∧
       (k.rstat = 0 → k.payload.length = r.size → Runs (.rdResp p) s (ends ⟨k.payload, k.pmap != 0, 0, 0⟩)) ∧
       (k.rstat ≠ 2 → (k.rstat ≠ 0 ∨ k.payload.length ≠ r.size) →
         Runs (.rdResp p) s (ends ⟨zeros r.size, true, 0, 0⟩))) ∧
     (∀ a k t u, s.dev.takePkt p (fun k => k.kind == 4) = some (a, t) → t.authRx p a = (u, some k) →
       s.dev.remoteFor k.src k.tag = some r → r.wr = true → LinkUndisturbed s.dev (s.dev.wrAck p) →
       Runs (.wrAck p) s (if k.rstat = 2 then fails 0x0701 else ends ⟨[], false, 0, 0⟩)) ∧
     (∀ a t, s.dev.takePkt p (fun k => k.kind == 9) = some (a, t) → s.dev.remoteFor a.pkt.src a.pkt.tag = some r →
       LinkUndisturbed s.dev (s.dev.nakAuth p) → Runs (.nakAuth p) s (fails 0x0703)) ∧
     (∀ a h t, s.dev.takePkt p (fun k => k.kind == 0x0A) = some (a, t) →
       Pkt.parse (a.pkt.payload ++ zeros 2064) = some h → (h.kind = 1 ∨ h.kind = 2) →
       s.dev.remoteFor h.dst a.pkt.tag = some r → LinkUndisturbed s.dev (s.dev.unreach p) →
       Runs (.unreach p) s (fails 0x0701)) ∧
     (∀ tag, s.dev.remoteOps.find? (fun r => r.port == p && r.tag == tag) = some r →
       r.since + 1000 * s.dev.g B.link0 F.link0_REMOTE_TMO ≤ s.dev.varve →
       LinkUndisturbed s.dev (s.dev.remoteTimeout p tag) → Runs (.remoteTimeout p tag) s (fails 0x0702)))

/-- Packets handed on once R341 admits them: SIGNAL joins the changes waiting at its object, MBX is stored in the slot of a
SHARED mailbox, the last packet of a MORAINE message gives Moraine the message, RIME_STATUS becomes the latest record of
its peer; LINK_STATE, in the clear, is remembered by running firmware, which brings REACH up to date (R197, R293, R301,
R346, R405).

Choices of the model in this statement: log entries 87, 197. -/
def Obligations.PacketsDelivered : Prop :=
  ∀ (s : State) (p : Nat) (x : RxPkt) (k : Pkt) (t u : Dev), p < 6 → s.dev.jobsLost = [] →
    (s.dev.takePkt p (fun k => k.kind == 5) = some (x, t) → t.authRx p x = (u, some k) →
      let o := k.addr % 2 ^ 14
      s.dev.domUp (Dom.region (o / 2048)) = true →
      s.dev.syncDeny o (0x240 + p) 0 (some k.slot) = none → Runs (.signal p) s (fun d => d.ram = s.dev.ram ∧
        d.regs = s.dev.regs ∧ d.syncPending.getD o [] = s.dev.syncPending.getD o [] ++
          [⟨s.dev.fabCycle, 0x240 + p, some (fieldN k.payload 0 4), true⟩])) ∧
    (s.dev.takePkt p (fun k => k.kind == 6) = some (x, t) → t.authRx p x = (u, some k) →
      let o := k.addr - 0xC20000000
      let m := o / 0x400
      0xC20000000 ≤ k.addr → o < 0x10000 → o % 0x400 = 0x40 → k.payload.length = 64 →
      s.dev.domUp Dom.mgmt = true → s.dev.gb (B.mbx m) F.mbx_MBX_EN = true →
      s.dev.gb (B.mbx m) F.mbx_MODE = false → LinkUndisturbed s.dev (s.dev.mbxPkt p) → Runs (.mbx p) s (fun d =>
        d.mbxSlot m 0 = ⟨k.payload, 0x240 + p, s.dev.varve, true, false⟩ ∧
        d.g (B.mbx m) F.mbx_LAST_SID = 0x240 + p)) ∧
    (s.dev.takePkt p (fun k => k.kind == 7) = some (x, t) → t.authRx p x = (u, some k) →
      s.dev.domUp Dom.moraine = true → k.addr = 0 → Runs (.moraine p) s (fun d =>
        ∃ m, m.src = k.src ∧ d.mor.inbox = s.dev.mor.inbox ++ [m] ∧ d.regs = s.dev.regs ∧ d.ram = s.dev.ram)) ∧
    (s.dev.takePkt p (fun k => k.kind == 0x0C) = some (x, t) → t.authRx p x = (u, some k) →
      s.dev.rimeRuns = true → s.dev.gb B.rime F.rime_RIME_PEER_EN = true →
      k.slot = s.dev.g B.rime F.rime_RIME_SLOT → k.addr = 0xC20010000 + k.src * 0x40 → k.payload.length = 64 →
      Runs (.rimeStatus p) s (fun d => d.rime.peers.get? k.src = some (k.payload, s.dev.varve) ∧ d.regs = s.dev.regs ∧
        d.ram = s.dev.ram)) ∧
    (s.dev.takePkt p (fun k => k.kind == 0x0B) = some (x, t) → s.dev.mgmtRuns = true →
      LinkUndisturbed s.dev (s.dev.linkState p) → Runs (.linkState p) s (fun d => ∃ e : Dev, d = e.reachUpdate ∧
        e.regs = s.dev.regs ∧ e.linkMap.getD x.pkt.src 63 = fieldN x.pkt.payload 0 1 % 64))

/-! ### Collectives -/

/-- BARRIER, REDUCE, COLL_TOPK_MERGE and ALL_TO_ALL: a request that Table 12.6 admits, whose identity is not in use, whose
slot is LOADED and whose context takes submissions, is held from its submission on; it waits where eight collectives are in
flight, and otherwise, where no other waits, starts (R262, R347, R348, R351). One that breaks Table 12.6, whose identity is
in use or whose slot is not LOADED is refused with COLL_INVALID (R347).

COLL: the first copy of a piece is kept, and its collective goes on. COLL_ABORT: a collective in flight whose result is
not complete completes with COLL_ABORTED, one not known is remembered. COLL_RETRANSMIT sends a piece again after 1 ms, at
most three times. COLL_TIMEOUT ends its collective with COLL_TIMEOUT once TMO_MS have passed, COLL_COMPLETE one whose result
is held. Room so made is used by a request that waits (R347, R348, R350, R351). Collectives that a suspended context holds
back are not spoken of here (R273).

Choices of the model in this statement: log entries 100, 101, 102, 103, 104, 105. -/
def Obligations.Collectives : Prop :=
  (∀ (s : State) (who : Initiator) (i : Instr) (op : Nat) (x : Bytes), x.length = 64 → CollReq.op x = op →
     (i, op) ∈ [(Instr.barrier who x, 1), (.reduce who x, 2), (.collTopkMerge who x, 3), (.allToAll who x, 4)] →
     Writes s.dev (.link 0) true who → LinkUndisturbed s.dev (s.dev.collRequest op x) →
     let key := CollReq.key x
     let used := s.dev.colls.any (fun c => c.1 == key)
     let flying := (s.dev.colls.filter (fun c => c.2.started)).length
     let c : Coll := { req := x, since := s.dev.varve }
     (CollReq.bad x = none → used = false → s.dev.slotState (CollReq.slot x) = 1 →
       s.dev.collAborts.find? (fun a => a.1 == key) = none →
       s.dev.ctxState (CollReq.ctx x) ≠ 0 → s.dev.ctxState (CollReq.ctx x) ≠ 4 →
       (8 ≤ flying → Runs i s (fun d => d.colls = s.dev.colls ++ [(key, c)] ∧ d.ram = s.dev.ram ∧
         d.regs = s.dev.regs)) ∧
       (flying < 8 → (∀ c ∈ s.dev.colls, c.2.started = true) → Runs i s (fun d => ∃ e : Dev, e.regs = s.dev.regs ∧
         e.ram = s.dev.ram ∧ e.colls = s.dev.colls ++ [(key, { c with started := true })] ∧
         d = (e.collStep key).collNext s.dev.colls.length))) ∧
     (∀ o, CollReq.bad x = some o → Runs i s (fun d => d = s.dev.collReport x 0x0706 o)) ∧
     (CollReq.bad x = none → used = true → Runs i s (fun d => d = s.dev.collReport x 0x0706 0xFF)) ∧
     (CollReq.bad x = none → used = false → s.dev.slotState (CollReq.slot x) ≠ 1 →
       Runs i s (fun d => d = s.dev.collReport x 0x0706 0xFE))) ∧
  (∀ (s : State) (p id : Nat) (x : RxPkt) (k : Pkt) (t u : Dev) (c : Coll),
     let held := c.started && c.mine.isNone && (s.dev.ctxState c.ctx == 2 || s.dev.ctxState c.ctx == 3)
     let ends := fun (d : Dev) => ∃ e : Dev, d = e.collRoom ∧ e.coll id = none ∧ e.collDone.contains id = true
     (s.dev.takePkt p (fun k => k.kind == 8) = some (x, t) → t.authRx p x = (u, some k) → 16 ≤ k.payload.length →
       id = k.slot * 2 ^ 32 + fieldN k.payload 4 4 →
       let r : CollRx := { coll := id, dir := fieldN k.payload 0 1, rank := fieldN k.payload 1 1
                           chunk := fieldN k.payload 2 2, count := fieldN k.payload 8 4, data := k.payload.drop 16
                           pmap := k.pmap }
       ∀ i, (i = .coll p ∧ LinkUndisturbed s.dev (s.dev.collPkt p)) ∨
           (i = .collAbort p ∧ LinkUndisturbed s.dev (s.dev.collAbortPkt p)) →
         (r.dir ≤ 2 → s.dev.collDone.contains id = false →
           s.dev.collRx.any (fun a => a.coll == id && a.dir == r.dir && a.rank == r.rank && a.chunk == r.chunk) = false →
           Runs i s (fun d => ∃ e : Dev, d = (e.collStep id).collRoom ∧ e.collRx = s.dev.collRx ++ [r] ∧
             e.colls = s.dev.colls ∧ e.ram = s.dev.ram)) ∧
         (r.dir = 6 → s.dev.coll id = some c → c.result = none → held = false → Runs i s ends) ∧
         (r.dir = 6 → s.dev.coll id = none → s.dev.collDone.contains id = false →
           Runs i s (fun d => ∃ e : Dev, d = e.collRoom ∧ e.collAborts.contains (id, r.rank) = true ∧
             e.colls = s.dev.colls ∧ e.ram = s.dev.ram))) ∧
     (∀ j m, s.dev.collTx[j]? = some m → m.resends < 3 → m.since + 1000000 ≤ s.dev.varve → s.dev.jobsLost = [] →
       Runs (.collRetransmit j) s (fun d =>
         d.collTx = s.dev.collTx.set j { m with resends := m.resends + 1, since := s.dev.varve } ∧
         d.colls = s.dev.colls ∧ d.ram = s.dev.ram)) ∧
     (s.dev.coll id = some c → c.result = none → c.ended = none → held = false →
       c.since + CollReq.tmo c.req ≤ s.dev.varve → LinkUndisturbed s.dev (s.dev.collTimeout id) →
       Runs (.collTimeout id) s ends) ∧
     (s.dev.coll id = some c → c.result.isSome = true → c.mine.isSome = true →
       LinkUndisturbed s.dev (s.dev.collComplete id) → Runs (.collComplete id) s ends))

/-! ### Rime -/

/-- PUB_REQ: the oldest request, where it is well formed, no pair post of its stream's context is pending, the stream's
deadline is yet to come and its output is not stale, is published under the next PUB_SEQ, which stands at both ends of the
slot, and answered with status 0; a stale one is answered with 0x0801 and a bad one with 0x0802, and they publish nothing;
one with a pair post pending waits, at most PAIR_WIN_US (R389, R392, R393, R399). PUB_RSP_POP takes the oldest response where
its REQ_ID is named (R392). RIME_DEADLINE publishes a stream whose deadline has come, and raises it (R395).

Choices of the model in this statement: log entries 136, 137, 138. -/
def Obligations.RimePublishes : Prop :=
  ∀ (s : State) (who : Initiator) (k : Nat),
    let next := ((s.dev.stream k).seq + 1) % 2 ^ 32
    let a := B.staging (s.dev.g B.rime F.rime_PUB_CH k) + s.dev.g B.rime F.rime_PUB_OFF k
    let published := fun (d : Dev) => (d.stream k).seq = next ∧ (∀ j, j ≠ k → d.stream j = s.dev.stream j) ∧
      d.g B.rime F.rime_PUB_CNT k = min (s.dev.g B.rime F.rime_PUB_CNT k + 1) (2 ^ 32 - 1) ∧
      (s.dev.domUp Dom.mmp = true → s.dev.g B.rime F.rime_PUB_OFF k % 64 = 0 →
        fieldN (Memory.readN d.ram a 64) 0 4 = next ∧ fieldN (Memory.readN d.ram a 64) 4 2 = k ∧
        fieldN (Memory.readN d.ram a 64) 0x3C 4 = next ∧
        ∀ e, (e < a ∨ a + 64 ≤ e) → Memory.read d.ram e = Memory.read s.dev.ram e)
    (∀ q since rest, s.dev.rimeRuns = true → s.dev.rime.reqs = (q, since) :: rest → q.length = 64 →
      let answered := fun (status : Nat) (d : Dev) => d.rime.reqs = rest ∧ d.rime.streams = s.dev.rime.streams ∧
        d.ram = s.dev.ram ∧ ∃ r o, d.rime.rsps = s.dev.rime.rsps ++ [(r, o)] ∧ fieldN r 4 2 = status
      let waits := s.dev.pairsPending (s.dev.g B.rime F.rime_CHECK_CTX k) = true ∧
        s.dev.varve < since + 1000 * s.dev.g B.rime F.rime_PAIR_WIN_US
      let stale := s.dev.gb B.rime F.rime_KIND k = true ∧ ∃ t, (s.dev.stream k).tLast = some t ∧ fieldN q 8 8 ≤ t
      (∀ o, s.dev.pubBad q = some o → Runs .pubReq s (fun d => answered 0x0802 d ∧ d.regs = s.dev.regs)) ∧
      (s.dev.pubBad q = none → fieldN q 0 2 = k → waits → Runs .pubReq s (fun d => d = s.dev)) ∧
      (s.dev.pubBad q = none → fieldN q 0 2 = k → ¬ waits → (∀ t, (s.dev.stream k).due = some t → s.dev.varve < t) →
        (stale → Runs .pubReq s (fun d => answered 0x0801 d ∧ RegsBut s.dev d [F.rime_STALE_CNT.key B.rime k])) ∧
        (¬ stale → Runs .pubReq s (fun d => d.rime.reqs = rest ∧ published d ∧
          ∃ r, d.rime.rsps = s.dev.rime.rsps ++ [(r, 0)] ∧ fieldN r 4 2 = 0 ∧ fieldN r 8 4 = next)))) ∧
    (∀ r rs, Writes s.dev .rime true who → s.dev.rime.rsps = r :: rs → fieldN r.1 0 4 = k →
      Runs (.pubRspPop who k) s (fun d => d.rime.rsps = rs ∧ d.regs = s.dev.regs ∧ d.ram = s.dev.ram)) ∧
    (∀ t, s.dev.rimeRuns = true → s.dev.gb B.rime F.rime_STR_EN k = true → (s.dev.stream k).due = some t →
      t ≤ s.dev.varve → k < 16 → Runs (.rimeDeadline k) s (fun d => published d ∧
        d.g B.rime F.rime_DEADLINE_CNT k = min (s.dev.g B.rime F.rime_DEADLINE_CNT k + 1) (2 ^ 32 - 1) ∧
        Told d 0x0E 0 0x0812 (dtl [(1, k), (4, next)])))

/-- WHITEOUT_START takes the newest count-grid buffer; WHITEOUT_DONE releases it (R394). CHECK_POST: the oldest post of a
core joins the check queue while it has room, counted, and is dropped and counted otherwise (R398). READBACK_DONE compares
the tile with its CRC and counts the read-back, and a difference; READBACK_TIMEOUT skips a read-back after 20 µs, counted;
PAIR_ORPHAN gives up a post that has waited PAIR_WIN_US for its partner, counted as a mismatch (R399).

Choices of the model in this statement: log entry 140. -/
def Obligations.RimeChecks : Prop :=
  ∀ (s : State) (n j : Nat),
    let up := fun (d : Dev) (F : Fld) => d.g B.rime F = min (s.dev.g B.rime F + 1) (2 ^ 32 - 1)
    let keys := fun (fs : List Fld) => fs.map (fun F => F.key B.rime 0)
    (s.dev.rimeRuns = true → s.dev.rime.woWait = true → s.dev.gb B.rime F.rime_WO_BUSY = false →
      s.dev.gb B.firn F.firn_GRID_VALID = true → Runs .whiteoutStart s (fun d => d.gb B.rime F.rime_WO_BUSY = true ∧
        d.gridRead = some (s.dev.g B.firn F.firn_GRID_NEWEST) ∧ d.rime.woWait = false ∧ d.rime.woRun.isSome = true ∧
        RegsBut s.dev d [F.rime_WO_BUSY.key B.rime 0] ∧ d.ram = s.dev.ram)) ∧
    (∀ w, s.dev.rimeRuns = true → s.dev.rime.woRun = some w → Runs .whiteoutDone s (fun d => d.rime.woRun = none ∧
      d.gridRead = none ∧ d.rime.woNum = w.num + 1 ∧ d.gb B.rime F.rime_WO_BUSY = false ∧ up d F.rime_WO_RUN_CNT)) ∧
    (∀ p rest, s.dev.domUp Dom.rime = true → (s.dev.core n).posts = p :: rest →
      (s.dev.rime.posts.length < 1024 → Runs (.checkPost n) s (fun d => (d.core n).posts = rest ∧
        (d.core n).postCnt = (s.dev.core n).postCnt + 1 ∧ up d F.rime_CHECK_POST_CNT ∧ d.ram = s.dev.ram)) ∧
      (1024 ≤ s.dev.rime.posts.length → Runs (.checkPost n) s (fun d => (d.core n).posts = rest ∧
        d.rime.posts = s.dev.rime.posts ∧ up d F.rime_POST_DROP_CNT ∧ RegsBut s.dev d (keys [F.rime_POST_DROP_CNT]) ∧
        d.ram = s.dev.ram))) ∧
    (∀ q, s.dev.readback j = some q →
      let left := (s.dev.rime.posts.map (fun x => if x == q then { x with rb := false } else x)).filter
        (fun p => p.rb || p.pair)
      let tile := (Memory.readN s.dev.ram (B.scratch q.post.home + 64 * q.post.gran)
        (64 * q.post.lenG)).take q.post.len
      (s.dev.rimeRuns = true → s.dev.clusterUp (clusterOf q.post.home) = true →
        Sound s.dev q.post.home q.post.gran (64 * q.post.lenG) →
        Runs (.readbackDone j) s (fun d => d.rime.posts = left ∧ d.ram = s.dev.ram ∧ up d F.rime_READBACK_CNT ∧
          (if Crypto.crc32c tile = q.post.crc then RegsBut s.dev d (keys [F.rime_READBACK_CNT])
           else up d F.rime_RB_MISMATCH_CNT))) ∧
      (q.since + 20000 ≤ s.dev.varve → Runs (.readbackTimeout j) s (fun d => d.rime.posts = left ∧
        up d F.rime_CHECK_SKIP_CNT ∧ RegsBut s.dev d (keys [F.rime_CHECK_SKIP_CNT]) ∧ d.ram = s.dev.ram))) ∧
    (∀ q, s.dev.rime.posts.find? (·.pair) = some q →
      q.since + 1000 * s.dev.g B.rime F.rime_PAIR_WIN_US ≤ s.dev.varve → Runs .pairOrphan s (fun d =>
        d.rime.posts = (s.dev.rime.posts.map (fun x => if x == q then { x with pair := false } else x)).filter
          (fun p => p.rb || p.pair) ∧
        up d F.rime_PAIR_ORPHAN_CNT ∧ up d F.rime_PAIR_MISMATCH_CNT ∧ d.ram = s.dev.ram))

/-- HB_KICK restarts a management core's timer; HB_LOST finds a core whose timer has passed HB_TMO_US silent and sets the
cause (R404). LOCKSTEP asserts both pins; RIME_CLK and RIME_SRAM set their causes (R400, R402). FAULT_CAUSE_CLEAR clears
the causes written 1 whose condition has gone, and neither LOCKSTEP nor RIME_RESET; SAFE_MASK_WRITE only adds bits (R401).
RIME_START sets RUN (R402). RIME_RESTART after a lost state holds RIME_RESET and asserts both pins (R403); that LOCKSTEP
stays is the model's own choice (log entry 202).

Choices of the model in this statement: log entries 136, 145, 202. -/
def Obligations.RimeFaults : Prop :=
  ∀ (s : State) (who : Initiator) (k v still : Nat),
    (Writes s.dev .rime true who → s.dev.rimeRuns = true → who.sid = 0x270 + k → k < 4 →
      Runs (.hbKick who) s (fun d => d.rime.kicks =
          (if s.dev.rime.kicks = [] then List.replicate 4 s.dev.varve else s.dev.rime.kicks).set k s.dev.varve ∧
        bit d.rime.silent k = false ∧ d.regs = s.dev.regs ∧ d.ram = s.dev.ram)) ∧
    (∀ t, s.dev.rimeRuns = true → s.dev.rime.kicks[k]? = some t → bit s.dev.rime.silent k = false →
      t + 1000 * s.dev.g B.rime F.rime_HB_TMO_US < s.dev.varve → Runs .hbLost s (fun d =>
        bit d.rime.silent k = true ∧ bit (d.g B.rime F.rime_CAUSE) 2 = true ∧ d.ram = s.dev.ram)) ∧
    (s.dev.domUp Dom.rime = true →
      Runs .lockstep s (fun d => d.gb B.rime F.rime_LOCKSTEP = true ∧ d.faultPin = true ∧ d.safePin = true ∧
        d.rimeRuns = false ∧ d.ram = s.dev.ram) ∧
      Runs .rimeClk s (fun d => bit (d.g B.rime F.rime_CAUSE) 0 = true ∧ d.ram = s.dev.ram) ∧
      Runs .rimeSram s (fun d => bit (d.g B.rime F.rime_CAUSE) 1 = true ∧ d.ram = s.dev.ram)) ∧
    (Writes s.dev .rime false who → Runs (.faultCauseClear who v still) s (fun d =>
      let old := s.dev.g B.rime F.rime_CAUSE
      let new := d.g B.rime F.rime_CAUSE
      let holds := [bit still 1, bit still 2, decide (s.dev.rime.silent ≠ 0), s.dev.anyPersist, false,
        (List.range 32).any (fun c => s.dev.gb B.rime F.rime_OVERDUE c)]
      (∀ i, i < 6 → bit new i = (bit old i && (!bit v (i + 1) || holds.getD i false))) ∧
      d.g B.rime F.rime_LOCKSTEP = s.dev.g B.rime F.rime_LOCKSTEP ∧
      d.g B.rime F.rime_RIME_RESET = s.dev.g B.rime F.rime_RIME_RESET ∧ d.ram = s.dev.ram)) ∧
    (Writes s.dev .rime true who → k < 7 → Runs (.safeMaskWrite who v) s (fun d =>
      bit (d.g B.rime F.rime_SMASK) k = (bit (s.dev.g B.rime F.rime_SMASK) k || bit v k) ∧ d.ram = s.dev.ram)) ∧
    (s.dev.domUp Dom.rime = true → s.dev.gb B.rime F.rime_RUN = false → s.dev.gb B.rime F.rime_RIME_RESET = false →
      s.dev.gb B.rime F.rime_LOCKSTEP = false → Runs .rimeStart s (fun d => d.gb B.rime F.rime_RUN = true ∧
        d.ram = s.dev.ram)) ∧
    (bit (s.dev.fence.getD Dom.rime 0) 4 = true → Runs .rimeRestart s (fun d =>
      d.gb B.rime F.rime_RIME_RESET = true ∧ d.gb B.rime F.rime_RUN = false ∧
      d.g B.rime F.rime_LOCKSTEP = s.dev.g B.rime F.rime_LOCKSTEP ∧ d.rime = {} ∧ d.faultPin = true ∧
      d.safePin = true ∧ bit (d.fence.getD Dom.rime 0) 4 = false ∧ d.ram = s.dev.ram))

/-- RIME_PEER_SEND sends the status record to the one other package of RIME_SLOT's peer set, under that slot and a link tag
of VC SAFETY, or waits for such a tag; a peer silent for 50 ms is named (R46–R49, R405). SELF_TEST_SLICE_START begins the
next slice of an idle cluster outside every safety task window, counted, and is deferred, counted, where a window meets it;
SELF_TEST_SLICE_END goes on to the next slice, ends a full test, or sets the cause of a failure, as ST_OVERDUE does; ST_REQ
keeps a request, and RELEASE begins the test anew (R406–R409). STREAM_ENABLE takes the stream's configuration and sets
STR_EN over a legal one, and clears it (R412).

Choices of the model in this statement: log entries 142, 143, 144, 197. -/
def Obligations.RimeSupervises : Prop :=
  ∀ (s : State) (who : Initiator) (c q o v : Nat),
    let up := fun (d : Dev) (F : Fld) => d.g B.rime F = min (s.dev.g B.rime F + 1) (2 ^ 32 - 1)
    (s.dev.rimeRuns = true → s.dev.gb B.rime F.rime_RIME_PEER_EN = true →
      (let slot := s.dev.g B.rime F.rime_RIME_SLOT
       (members (s.dev.slotPeers slot)).filter (· != s.dev.pkgId) = [q] → s.dev.slotState slot = 1 →
        s.dev.outPort q = some o →
        (s.dev.tagFree (.port o) 0 = true → Runs .rimePeerSend s (fun d => d.rime = s.dev.rime ∧ d.ram = s.dev.ram ∧
          d.nonceCtr.getD slot 0 = s.dev.nonceCtr.getD slot 0 + 1 ∧
          ∃ t, d.tags = s.dev.tags ++ [t] ∧ t.owner = .port o ∧ t.vc = 0)) ∧
        (s.dev.tagFree (.port o) 0 = false → Runs .rimePeerSend s (fun d => d.rime = s.dev.rime ∧
          d.regs = s.dev.regs ∧
          d.ram = s.dev.ram ∧ ∃ m, d.unsent = s.dev.unsent ++ [m] ∧ m.port = o ∧ m.vc = 0 ∧ m.pkt.dst = q ∧
            m.pkt.slot = slot ∧ m.pkt.kind = 0x0C))) ∧
      (q < 64 → q ≠ s.dev.pkgId → bit (s.dev.slotPeers (s.dev.g B.rime F.rime_RIME_SLOT)) q = true →
        bit s.dev.rime.peerTold q = false →
        (match s.dev.rime.peers.get? q with
          | some r => r.2
          | none => s.dev.rime.peerFrom) + 50000000 ≤ s.dev.varve →
        Runs (.rimePeerSilent q) s (fun d => bit (d.g B.rime F.rime_SILENT) q = true ∧ d.ram = s.dev.ram ∧
          Told d 0x0E 0 0x0817 (dtl [(1, q)])))) ∧
    (s.dev.rimeRuns = true → c < 32 →
      (let slice := s.dev.g B.rime F.rime_NEXT_SLICE c
       s.dev.gb B.rime F.rime_ST_EN = true → s.dev.gb B.rime F.rime_SLICE_BUSY = false → s.dev.testable c = true →
        s.dev.gb B.pcc F.pcc_MEAS_BUSY (c / 4) = false →
        (∀ r, s.dev.stReq = some r → r.cluster = c ∨
          (s.dev.clusterIdle r.cluster && s.dev.testable r.cluster) = false) →
        s.dev.clusterIdle c = true → s.dev.deferredTo c slice = false →
        (s.dev.windowEnd s.dev.varve (sliceNs slice) = none → Runs (.selfTestSliceStart c) s (fun d =>
          d.gb B.rime F.rime_SLICE_BUSY = true ∧ d.g B.rime F.rime_SLICE_CLUSTER = c ∧
          d.g B.rime F.rime_SLICE_NUM = slice ∧ up d F.rime_ST_SLICE_CNT ∧
          RegsBut s.dev d ([F.rime_SLICE_BUSY, F.rime_SLICE_CLUSTER, F.rime_SLICE_NUM, F.rime_ST_SLICE_CNT].map
            (fun F => F.key B.rime 0)) ∧ d.ram = s.dev.ram)) ∧
        (∀ e, s.dev.windowEnd s.dev.varve (sliceNs slice) = some e → Runs (.selfTestSliceStart c) s (fun d =>
          up d F.rime_ST_DEFER_CNT ∧ RegsBut s.dev d [F.rime_ST_DEFER_CNT.key B.rime 0] ∧ d.ram = s.dev.ram))) ∧
      (s.dev.gb B.rime F.rime_SLICE_BUSY = true → s.dev.g B.rime F.rime_SLICE_CLUSTER = c →
        let slice := s.dev.g B.rime F.rime_SLICE_NUM
        (slice < 23 → Runs (.selfTestSliceEnd true) s (fun d => d.gb B.rime F.rime_SLICE_BUSY = false ∧
          d.g B.rime F.rime_NEXT_SLICE c =
            (if s.dev.beforeReq c then s.dev.g B.rime F.rime_NEXT_SLICE c else slice + 1) ∧ d.ram = s.dev.ram)) ∧
        (23 ≤ slice → Runs (.selfTestSliceEnd true) s (fun d => d.gb B.rime F.rime_SLICE_BUSY = false ∧
          d.gb B.rime F.rime_PASS c = true ∧ d.gb B.rime F.rime_FAIL c = false ∧ d.g B.rime F.rime_NEXT_SLICE c = 0 ∧
          d.gb B.rime F.rime_OVERDUE c = false ∧ (∀ n, n / 16 = c → d.gb (B.core n) F.core_ST_PASS = true) ∧
          d.ram = s.dev.ram)) ∧
        Runs (.selfTestSliceEnd false) s (fun d => bit (d.g B.rime F.rime_CAUSE) 4 = true)) ∧
      (s.dev.gb B.rime F.rime_OVERDUE c = false →
        s.dev.rime.fullAt.getD c 0 + 1000000000 * s.dev.g B.rime F.rime_ST_MAX_S < s.dev.varve →
        Runs (.stOverdue c) s (fun d => d.gb B.rime F.rime_OVERDUE c = true ∧
          bit (d.g B.rime F.rime_CAUSE) 5 = true ∧ d.ram = s.dev.ram))) ∧
    (Writes s.dev .rime true who →
      (bit v 7 = true → s.dev.gb B.rime F.rime_REQ_PENDING = false → Runs (.stReq who v) s (fun d =>
        d.gb B.rime F.rime_REQ_PENDING = true ∧ (bit v 6 = true → d.g B.rime F.rime_NEXT_SLICE (v % 32) = 0) ∧
        d.stReq = some ⟨v % 32, bit v 5, bit v 6, bit v 6 && (s.dev.gb B.rime F.rime_SLICE_BUSY &&
          s.dev.g B.rime F.rime_SLICE_CLUSTER == v % 32)⟩ ∧ d.ram = s.dev.ram)) ∧
      (c < 16 → s.dev.gb B.rime F.rime_STR_EN c = false → Runs (.streamEnable who c v) s (fun d =>
        d.gb B.rime F.rime_STR_EN c = (bit v 0 && s.dev.streamFits c (bits v 15 8) (bits v 23 16)) ∧
        d.gb B.rime F.rime_KIND c = bit v 1 ∧ d.g B.rime F.rime_CHECK_CTX c = bits v 5 2 ∧
        d.g B.rime F.rime_PUB_CH c = bits v 6 6 ∧ d.g B.rime F.rime_MIS_N c = bits v 15 8 ∧
        d.g B.rime F.rime_MIS_M c = bits v 23 16 ∧
        (d.gb B.rime F.rime_STR_EN c = true → d.stream c = {}) ∧ d.ram = s.dev.ram)) ∧
      (c < 16 → s.dev.gb B.rime F.rime_STR_EN c = true → Runs (.streamEnable who c v) s (fun d =>
        d.gb B.rime F.rime_STR_EN c = bit v 0 ∧ RegsBut s.dev d [F.rime_STR_EN.key B.rime c] ∧ d.ram = s.dev.ram)))

/-! ### Security, boot and reset -/

/-- The fuse commands (R435, Table 15.1). SVN_ADVANCE raises SVN_MIN to an argument above it and at or below the SVN of
the running firmware; REVOKE_ROOT sets the bit of a root that is not the running firmware's; PROVISION_LOCK blows
LIFECYCLE to PROVISIONED with a KEK and a management key VALID; RETIRE blows it to RETIRED. Each answers SEC_RESULT 0;
refused, it answers SEC_STATE and blows nothing. That PROVISION_LOCK asks for UNPROVISIONED, and that a root above 3 is
refused, is the model's choice (log entry 75). -/
def Obligations.FuseCommands : Prop :=
  ∀ (s : State) (who : Initiator) (a : Nat), Writes s.dev .sec true who → a < 128 →
    (s.otp.svnMin < a → a ≤ s.dev.sec.fwSvn → a ≤ 64 → Blows (.svnAdvance who a) s { s.otp with svnMin := a } 0) ∧
    (a ≤ s.otp.svnMin ∨ s.dev.sec.fwSvn < a ∨ 64 < a → Blows (.svnAdvance who a) s s.otp 0x0905) ∧
    (a < 4 → a ≠ s.dev.sec.fwRoot →
      Blows (.revokeRoot who a) s { s.otp with rootRevoke := Nat.lor s.otp.rootRevoke (2 ^ a) } 0) ∧
    (a = s.dev.sec.fwRoot ∨ 4 ≤ a → Blows (.revokeRoot who a) s s.otp 0x0905) ∧
    (s.otp.lifecycle = 0 → s.dev.sec.keks ≠ [] → s.dev.sec.mkeys ≠ [] →
      Blows (.provisionLock who) s { s.otp with lifecycle := 1 } 0) ∧
    (s.otp.lifecycle ≠ 0 ∨ s.dev.sec.keks = [] ∨ s.dev.sec.mkeys = [] →
      Blows (.provisionLock who) s s.otp 0x0905) ∧
    (s.otp.lifecycle ≤ 2 → Blows (.retire who) s { s.otp with lifecycle := 2 } 0)

/-- CK_GO draws keys never drawn before for an OFF context and increments its KEY_GEN; refused, it changes no key (R430).
SEC_ENTROPY: DRBG_OK falls, counted and reported; ENTROPY_SOURCE_PASS raises it again (R429). KEK_COMMIT derives a KEK from
the slot's ciphertext; KEK_ERASE empties the slot and its ciphertext; the dictionary takes a half of the ciphertext only while
the slot is EMPTY, and answers KR_STATE otherwise (R431). MANAGEMENT_KEY_UNWRAP unwraps a key, or leaves
its slot EMPTY, counted and reported (R432).

Choices of the model in this statement: log entries 147, 148, 151. -/
def Obligations.SecurityKeys : Prop :=
  ∀ (s : State) (who : Initiator) (c k m t : Nat),
    (Writes s.dev .sec true who → c < 16 →
      (s.dev.ctxState c = 0 → s.dev.gb B.sec F.sec_DRBG_OK = true → Runs (.ckGo who c) s (fun d =>
        d.ctxKey.getD c 0 = s.dev.keyDraws + 1 ∧ d.keyDraws = s.dev.keyDraws + 1 ∧
        d.g B.sec F.sec_KEY_GEN c = (s.dev.g B.sec F.sec_KEY_GEN c + 1) % 256 ∧ d.g B.sec F.sec_SEC_RESULT = 0 ∧
        RegsBut s.dev d [F.sec_CK_CTX.key B.sec 0, F.sec_KEY_GEN.key B.sec c, F.sec_SEC_RESULT.key B.sec 0])) ∧
      (s.dev.ctxState c ≠ 0 ∨ s.dev.gb B.sec F.sec_DRBG_OK = false → Runs (.ckGo who c) s (fun d =>
        d.ctxKey = s.dev.ctxKey ∧
        d.g B.sec F.sec_SEC_RESULT = (if s.dev.ctxState c ≠ 0 then 0x0905 else 0x0909) ∧
        RegsBut s.dev d [F.sec_CK_CTX.key B.sec 0, F.sec_SEC_RESULT.key B.sec 0]))) ∧
    (s.dev.domUp Dom.security = true →
      Runs (.secEntropy t) s (fun d => d.gb B.sec F.sec_DRBG_OK = false ∧
        d.g B.sec F.sec_ENTROPY_FAIL_CNT = min (s.dev.g B.sec F.sec_ENTROPY_FAIL_CNT + 1) (2 ^ 32 - 1) ∧
        Told d 0x0D 0 0x0909 (dtl [(1, t)]) ∧
        RegsBut s.dev d [F.sec_DRBG_OK.key B.sec 0, F.sec_ENTROPY_FAIL_CNT.key B.sec 0]) ∧
      Runs .entropySourcePass s (fun d => d.gb B.sec F.sec_DRBG_OK = true ∧
        RegsBut s.dev d [F.sec_DRBG_OK.key B.sec 0]) ∧
      (k < 4 →
        Runs (.kekCommit k) s (fun d => d.sec.keks.get? k =
            some (Crypto.kdf (Config.mlkemDecap kemSeed (s.dev.kekCipher k)) (ascii "AF7-KEK") 1) ∧
          d.regs = s.dev.regs ∧ d.sec.mkeys = s.dev.sec.mkeys) ∧
        Runs (.kekErase k) s (fun d => d.sec.keks.get? k = none ∧ d.kekCipher k = zeros 1568 ∧
          d.regs = s.dev.regs ∧ d.sec.mkeys = s.dev.sec.mkeys)) ∧
      (k < 4 → m < 8 →
        let new := (s.dev.sec.keks.get? k).bind (fun key =>
          Crypto.kwUnwrap key (s.dev.persD (0x8020 + m) 1 (zeros 40)))
        Runs (.managementKeyUnwrap m k) s (fun d => d.sec.mkeys.get? m = new ∧ d.sec.keks = s.dev.sec.keks ∧
          RegsBut s.dev d [F.sec_UNWRAP_FAIL_CNT.key B.sec 0] ∧
          (new = none → Told d 0x0D 0 0x0904 (dtl [(1, m), (1, k)]) ∧
            d.g B.sec F.sec_UNWRAP_FAIL_CNT = min (s.dev.g B.sec F.sec_UNWRAP_FAIL_CNT + 1) (2 ^ 32 - 1))))) ∧
    (k < 4 → ∀ (o : Otp) (sub : Nat) (v : Bytes), sub = 1 ∨ sub = 2 → v.length = 784 →
      let r := s.dev.dictPut o (0x8010 + k) sub v true
      ((s.dev.sec.keks.get? k).isSome = true → r = (s.dev, 8)) ∧
      (s.dev.sec.keks.get? k = none → r.2 = 0 ∧ r.1.persD (0x8010 + k) sub (zeros 784) = v ∧ r.1.sec = s.dev.sec ∧
        r.1.regs = s.dev.regs))

/-- LOAD: a job-key blob is unwrapped under the checks of R433: a LOADED slot, a KEK that does not unwrap it, another
package's blob, a job number at or below the slot's high-water mark and a failed record write are refused, each with its
status; else the slot is LOADED with its key and peers. ERASE leaves the slot EMPTY, what was in flight under it having
ended; FAIL moves a LOADED slot to FAILED and ends what was in flight under it (`slotLost`), and is refused for any other
(R346, R434). What the slot itself then holds is said where nothing was in flight under it and no collective waits.

Choices of the model in this statement: log entry 150. -/
def Obligations.JobKeySlots : Prop :=
  ∀ (s : State) (who : Initiator) (k : Nat) (ok : Bool), Writes s.dev .sec true who → k < 256 →
    let blob := s.dev.sec.jkData
    let key := (s.dev.sec.keks.get? (fieldN blob 0 1)).bind (fun x => Crypto.kwUnwrap x ((blob.drop 8).take 56))
    let idle := s.dev.remoteOps.filter (fun r => r.slot == k) = [] ∧ (∀ c ∈ s.dev.colls, c.2.started = true) ∧
      s.dev.colls.filter (fun c => c.1 / 2 ^ 32 == k && c.2.result.isNone) = []
    let erased := (s.dev.jkSelect 1 k).slotErase k
    let failed := (s.dev.jkSelect 2 k).slotFail k s.dev.pkgId
    let sel := [F.sec_JK_SLOT.key B.sec 0, F.sec_JK_OP.key B.sec 0, F.sec_JK_STATUS.key B.sec 0]
    let answers := fun (i : Instr) (st : Nat) => Runs i s (fun d => d.g B.sec F.sec_JK_STATUS = st ∧
      d.jobKeys = s.dev.jobKeys ∧ ∀ j < 256, d.slotState j = s.dev.slotState j)
    (s.dev.slotState k = 1 → answers (.load who k ok) 0x0905) ∧
    (s.dev.slotState k ≠ 1 →
      (key = none → answers (.load who k ok) 0x0904) ∧
      (∀ p, key = some p →
        let mine := fieldN p 36 1 = s.dev.pkgId ∧ bit (fieldN p 40 8) s.dev.pkgId = true
        let old := s.dev.flash.hwm.getD (fieldN blob 0 1) 0
        (¬ mine → answers (.load who k ok) 0x0904) ∧
        (mine → fieldN p 32 4 ≤ old → answers (.load who k ok) 0x090A) ∧
        (mine → old < fieldN p 32 4 → ok = false → answers (.load who k ok) 0x090B) ∧
        (mine → old < fieldN p 32 4 → ok = true → Runs (.load who k ok) s (fun d => d.g B.sec F.sec_JK_STATUS = 0 ∧
          d.slotState k = 1 ∧ d.slotPeers k = fieldN p 40 8 % 2 ^ 64 ∧ d.jobKeys.get? k = some (p.take 32)))) ∧
      Runs (.erase who k) s (fun d => d.slotState k = 0 ∧ d.slotPeers k = 0 ∧ d.jobKeys.get? k = none ∧
        d.g B.sec F.sec_JK_STATUS = 0 ∧
        RegsBut s.dev d (sel ++ [F.sec_JK_STATE.key B.sec k, F.sec_JK_PEERS.key B.sec k])) ∧
      answers (.fail who k) 0x0905) ∧
    (s.dev.slotState k = 1 →
      (Undisturbed s.dev erased → Runs (.erase who k) s (fun d => d = erased ∧
        erased = ((s.dev.jkSelect 1 k).slotLost k s.dev.pkgId).jkErase k)) ∧
      (Undisturbed s.dev failed → Runs (.fail who k) s (fun d => d = failed ∧
        failed = ((s.dev.jkSelect 2 k).jkFail k).slotLost k s.dev.pkgId))) ∧
    (s.dev.slotState k = 1 → idle →
      Runs (.erase who k) s (fun d => d.slotState k = 0 ∧ d.jobKeys.get? k = none ∧ d.g B.sec F.sec_JK_STATUS = 0) ∧
      Runs (.fail who k) s (fun d => d.slotState k = 2 ∧ d.g B.sec F.sec_JK_STATUS = 0 ∧
        d.jobKeys = s.dev.jobKeys ∧ RegsBut s.dev d (sel ++ [F.sec_JK_STATE.key B.sec k])))

/-- A NONCE write starts a quote, and changes nothing while one runs, no leaf is ready, none is left, or QUOTE_MIN_MS have
not passed since the last; a completed quote takes the next leaf, signs the body of Table 15.6 and advances QUOTE_SEQ (R427). LOWER_TREE_DONE raises ID_READY (R426).
IDENTITY_RESERVE takes 1,024 leaves, raising ID_EPOCH, or finds none left; a failed write of the record is reported
(R425).

Choices of the model in this statement: log entries 149, 151. -/
def Obligations.QuotesAndLeaves : Prop :=
  ∀ (s : State) (n : Bytes) (ok : Bool), s.dev.domUp Dom.security = true →
    (s.dev.sec.exhausted = false → s.dev.gb B.sec F.sec_ID_READY = true → s.dev.sec.quoteRun = none →
      (∀ t, s.dev.sec.nonceAt = some t → t + leNat (s.dev.persD 0x1050 6 (natLE 2 1000)) * 1000000 ≤ s.dev.varve) →
      Runs (.nonceWrite n) s (fun d => d.sec.quoteRun = some (padTo 32 n) ∧ d.sec.nonceAt = some s.dev.varve ∧
        d.regs = s.dev.regs ∧ d.ram = s.dev.ram)) ∧
    (s.dev.sec.exhausted = true ∨ s.dev.gb B.sec F.sec_ID_READY = false ∨ s.dev.sec.quoteRun ≠ none ∨
      (∃ t, s.dev.sec.nonceAt = some t ∧ s.dev.varve < t + leNat (s.dev.persD 0x1050 6 (natLE 2 1000)) * 1000000) →
      Runs (.nonceWrite n) s (fun d => d = s.dev)) ∧
    (s.dev.sec.quoteRun = some n → s.dev.gb B.sec F.sec_ID_READY = true →
      let leaf := s.dev.g B.sec F.sec_ID_NEXT_LEAF
      let seq := (s.dev.sec.quoteSeq + 1) % 2 ^ 32
      let body := quoteBody s.dev s.otp n seq leaf
      Runs .quoteComplete s (fun d => d.sec.quoteRun = none ∧ d.sec.quoteSeq = seq ∧
        d.g B.sec F.sec_ID_NEXT_LEAF = (leaf + 1) % 2 ^ 32 ∧ d.ram = s.dev.ram ∧
        d.sec.quote = padTo 4096 (body ++ padTo 3284 (Config.identitySign identitySeed leaf body)))) ∧
    (∀ t, s.dev.sec.treeGen = some t → Runs .lowerTreeDone s (fun d => d.sec.tree = some t ∧ d.sec.treeGen = none ∧
      d.gb B.sec F.sec_ID_READY = (decide (s.dev.g B.sec F.sec_ID_NEXT_LEAF < s.dev.sec.blockEnd) &&
        decide (t = s.dev.g B.sec F.sec_ID_NEXT_LEAF / 2 ^ 15)) ∧
      RegsBut s.dev d [F.sec_ID_READY.key B.sec 0])) ∧
    (s.dev.sec.exhausted = false → s.dev.sec.blockEnd ≤ s.dev.g B.sec F.sec_ID_NEXT_LEAF →
      6 ≤ s.dev.g B.sec F.sec_BOOT_STEP →
      let first := match s.dev.flash.idCurrent with
        | some c => max (fieldN c.2 8 4) (s.otp.idEpoch * 2 ^ 22)
        | none => (s.otp.idEpoch + 1) * 2 ^ 22
      ∃ t, exec (.identityReserve ok) s = .next t ∧ t.pending = s.pending ∧
        (2 ^ 30 ≤ first → t.otp = s.otp ∧ t.dev.sec.exhausted = true ∧ t.dev.gb B.sec F.sec_ID_READY = false ∧
          Told t.dev 0x0D 0 0x0907 (zeros 16)) ∧
        (first < 2 ^ 30 → t.otp = { s.otp with idEpoch := max s.otp.idEpoch (min 255 (first / 2 ^ 22)) } ∧
          (ok = true → t.dev.g B.sec F.sec_ID_NEXT_LEAF = first ∧
            t.dev.g B.sec F.sec_ID_NEXT_FREE = first + 1024 ∧ t.dev.sec.blockEnd = first + 1024) ∧
          (ok = false → t.dev.g B.sec F.sec_ID_NEXT_LEAF = s.dev.g B.sec F.sec_ID_NEXT_LEAF ∧
            Told t.dev 0x0D 0 0x090B (dtl [(1, s.dev.idSlot)]))))

/-- BOOT_CHAIN from step 0: a retired package stops at step 1 with SEC_STATE, as does one whose entropy source fails, with
SEC_ENTROPY; with no valid firmware image it stops at step 3 with the cause of set A; CP_STATE is then 3. With a valid
firmware, Rime image and microprogram it reaches step 8 and CP_STATE 2 (R420–R422, R429, R435).

PORESET_N asserted, power lost, or VDD_AON below 0.68 V: every register field but PWR_ON at its reset value, no memory
kept, the images, identity records and Creep log of the flash kept (R460, R468, R469). PORESET_N released: the always-on,
boot/config and Rime domains are on and the persistent entries hold the store's values (R464, R361). A warm reset keeps
the Varve time and STEPPED, the rate where TIME_SOURCE does not hold it at 0, POWERED_S, the DRAM's lines and the flash, and
gives every context keys never drawn before; Rime restarts after it (R377, R380, R403, R459).

Choices of the model in this statement: log entries 153, 154, 155, 156, 157, 158, 204. -/
def Obligations.BootAndResets : Prop :=
  (∀ (s : State) (images : Option (List (Nat × Bytes))) (entropyOk flashOk : Bool) (sweeps : List Nat),
     s.dev.pcc.poreset = false → s.dev.domOn Dom.boot = true → s.dev.g B.sec F.sec_BOOT_STEP = 0 →
     s.dev.gb B.sec F.sec_BOOT_CAUSE = false →
     let d0 := match images with
       | some l => { s.dev with flash := { s.dev.flash with
           images := l.foldl (fun t (x : Nat × Bytes) => t.put x.1 x.2) [] } }
       | none => s.dev
     let stops := fun (step cause : Nat) => ∃ t, exec (.bootChain images entropyOk flashOk sweeps) s = .next t ∧
       t.pending = s.pending ∧ t.otp = s.otp ∧ t.dev.g B.sec F.sec_BOOT_STEP = step ∧
       t.dev.g B.sec F.sec_BOOT_CAUSE = cause ∧ (t.dev.chan 0).cpState = 3 ∧ (t.dev.chan 1).cpState = 3
     (s.otp.lifecycle = 2 → stops 1 0x0905) ∧
     (s.otp.lifecycle ≠ 2 → entropyOk = false → stops 1 0x0909) ∧
     (s.otp.lifecycle ≠ 2 → entropyOk = true → d0.bootSet s.otp = none → stops 3 (imgCause s.otp 1 (d0.image 0 1))) ∧
     (∀ k rime ucode, s.otp.lifecycle ≠ 2 → entropyOk = true → d0.bootSet s.otp = some k →
       d0.pickImage s.otp k 2 = .inl rime → d0.pickImage s.otp k 3 = .inl ucode →
       ∃ t, exec (.bootChain images entropyOk flashOk sweeps) s = .next t ∧ t.pending = s.pending ∧
         t.dev.g B.sec F.sec_BOOT_STEP = 8 ∧ (t.dev.chan 0).cpState = 2 ∧ (t.dev.chan 1).cpState = 2)) ∧
  (∀ s : State,
     (∀ i ∈ [Instr.poresetNAssert, .powerLoss, .vddAonPor], Runs i s (fun d => d.pcc.poreset = true ∧
       d.g B.pcc F.pcc_PWR_ON = 2 ^ 63 ∧
       (∀ (b : Nat) (fld : Fld) (k : Nat), fld.key b k ≠ F.pcc_PWR_ON.key B.pcc 0 → d.g b fld k = fld.reset k) ∧
       d.ram = [] ∧ d.dram = [] ∧ d.flash.images = s.dev.flash.images ∧ d.flash.ids = s.dev.flash.ids ∧
       d.flash.creep = s.dev.flash.creep ∧ d.keyDraws = s.dev.keyDraws)) ∧
     (s.dev.pcc.poreset = true → Runs .poresetNRelease s (fun d => d.pcc.poreset = false ∧
       d.g B.pcc F.pcc_PWR_ON = 0xD000000000000000 ∧ d.pers = s.dev.storedValues ∧
       (s.otp.gradeS = true → d.g B.pcc F.pcc_WARN_C = 0x5F ∧ d.g B.pcc F.pcc_THROTTLE_C = 0x64) ∧
       RegsBut s.dev d [F.pcc_PWR_ON.key B.pcc 0, F.pcc_WARN_C.key B.pcc 0, F.pcc_THROTTLE_C.key B.pcc 0])) ∧
     (s.dev.mgmtRuns = true → Runs .warmReset s (fun d => d.varve = s.dev.varve ∧ d.dram = s.dev.dram ∧ d.ram = [] ∧
       d.flash = s.dev.flash ∧ d.g B.pcc F.pcc_POWERED_S = s.dev.g B.pcc F.pcc_POWERED_S ∧
       d.g B.mgmt F.mgmt_RATE_ADJ = (if leNat (s.dev.storedValues.getD (0x5001 * 256 + 1) [1]) = 0 then 0
         else s.dev.g B.mgmt F.mgmt_RATE_ADJ) ∧ d.varveFrac = s.dev.varveFrac ∧
       d.g B.mgmt F.mgmt_STEPPED = s.dev.g B.mgmt F.mgmt_STEPPED ∧ d.g B.sec F.sec_BOOT_STEP = 0 ∧
       d.g B.pcc F.pcc_PWR_ON = 0xD000000000000000 ∧ d.pers = s.dev.storedValues ∧
       (∀ c < 16, s.dev.keyDraws < d.ctxKey.getD c 0) ∧ bit (d.fence.getD Dom.rime 0) 4 = true)))

/-! ### Power, clocks and Creep -/

/-- SWITCH_ON and SWITCH_OFF of domain `k`: counted while a transition runs; ended at once for a state already held;
refused with PWR_STATUS 0x0A20 and a reason of Table 16.4; else PWR_BUSY is 1 and the transition runs (R445).
PWR_TRANSITION_DONE: a transition that something keeps waiting goes on (R47, R457); a domain that may still change is on or
off as asked, with PWR_DONE 1; one that may not is refused with its reason (R445, R446).

Choices of the model in this statement: log entries 160, 161. -/
def Obligations.PowerDomains : Prop :=
  ∀ (s : State) (who : Initiator) (k : Nat) (on : Bool), k < 64 →
    let i := if on then Instr.switchOn who k else .switchOff who k
    let ended := fun (d : Dev) (why : Nat) => d.g B.pcc F.pcc_PWR_RES_DOM = k ∧ d.g B.pcc F.pcc_PWR_REASON = why ∧
      d.g B.pcc F.pcc_PWR_STATUS = (if why = 0 then 0 else 0x0A20) ∧ d.gb B.pcc F.pcc_PWR_BUSY = false ∧
      d.gb B.pcc F.pcc_PWR_DONE = true
    (Writes s.dev .pcc true who →
      (s.dev.gb B.pcc F.pcc_PWR_BUSY = true → Runs i s (fun d =>
        d.g B.pcc F.pcc_PWR_REFUSE_CNT = min (s.dev.g B.pcc F.pcc_PWR_REFUSE_CNT + 1) (2 ^ 32 - 1) ∧
        RegsBut s.dev d [F.pcc_PWR_DOM.key B.pcc 0, F.pcc_PWR_ON_REQ.key B.pcc 0,
          F.pcc_PWR_REFUSE_CNT.key B.pcc 0])) ∧
      (s.dev.gb B.pcc F.pcc_PWR_BUSY = false →
        (s.dev.domOn k = on → Runs i s (fun d => ended d 0 ∧ d.domOn k = on)) ∧
        (s.dev.domOn k ≠ on → s.dev.pwrReason k on ≠ 0 → Runs i s (fun d => ended d (s.dev.pwrReason k on) ∧
          d.domOn k ≠ on ∧
          d.g B.pcc F.pcc_PWR_REFUSE_CNT = min (s.dev.g B.pcc F.pcc_PWR_REFUSE_CNT + 1) (2 ^ 32 - 1))) ∧
        (s.dev.domOn k ≠ on → s.dev.pwrReason k on = 0 → Runs i s (fun d => d.gb B.pcc F.pcc_PWR_BUSY = true ∧
          d.pcc.trans = some (k, on))))) ∧
    (s.dev.pcc.trans = some (k, on) →
      (s.dev.pwrWaits k on = true → Runs .pwrTransitionDone s (fun d => d = s.dev)) ∧
      (s.dev.pwrWaits k on = false → (s.dev.domOn k = on ∨ s.dev.pwrReason k on = 0) →
        Runs .pwrTransitionDone s (fun d => ended d 0 ∧ d.domOn k = on ∧ d.pcc.trans = none)) ∧
      (s.dev.pwrWaits k on = false → s.dev.domOn k ≠ on → s.dev.pwrReason k on ≠ 0 →
        Runs .pwrTransitionDone s (fun d => ended d (s.dev.pwrReason k on) ∧ d.domOn k ≠ on ∧ d.pcc.trans = none)))

/-- PLL_UNLOCK of a locked PLL: its lock bit falls, counted, and what it feeds is fenced: a region's clusters, the fabric's
blocks, the vaults, or the management and boot domains; an UP port is retrained, firmware's notices of it following (R333,
R346, R450). PLL_LOCK raises a lock bit, or REFCLK_OK, and releases no fence. REFCLK_LOSS clears REFCLK_OK and fences what
its PLLs feed, and not the management cluster; the links' PLLs are lost after these (R451).

TEMP_SAMPLE: TJ and the highest TJ of each region, the throttle at THROTTLE_C and its release 5 °C below, and the
hottest tier of each vault (R452).

Choices of the model in this statement: log entries 159, 166, 178. -/
def Obligations.ClocksAndTemperatures : Prop :=
  (∀ (s : State) (n khz : Nat),
     (∀ fld i, n < 11 → pllBit n = some (fld, i) → bit (s.dev.g B.pcc fld) i = true → Runs (.pllUnlock n) s (fun d =>
       bit (d.g B.pcc fld) i = false ∧
       d.g B.pcc F.pcc_PLL_UNLOCK_CNT = min (s.dev.g B.pcc F.pcc_PLL_UNLOCK_CNT + 1) (2 ^ 32 - 1) ∧
       (n < 8 → ∀ c, c / 4 = n → bit (d.fence.getD c 0) 0 = true) ∧
       (n = 8 → ∀ k ∈ fabricDoms, d.domFenced k = true) ∧
       (n = 9 → ∀ v < 8, d.domFenced (Dom.vault v) = true) ∧
       (n = 10 → d.domFenced Dom.mgmt = true ∧ d.domFenced Dom.boot = true) ∧ d.ram = s.dev.ram ∧
       d.dram = s.dev.dram)) ∧
     (∀ p, p < 6 → bit (s.dev.g B.pcc F.pcc_PORT_LOCK) p = true → Undisturbed s.dev (s.dev.pllUnlock (16 + p)) →
       let fallen := fun (d : Dev) => bit (d.g B.pcc F.pcc_PORT_LOCK) p = false ∧ d.fence = s.dev.fence ∧
         d.g B.pcc F.pcc_PLL_UNLOCK_CNT = min (s.dev.g B.pcc F.pcc_PLL_UNLOCK_CNT + 1) (2 ^ 32 - 1)
       (s.dev.portState p = 3 → Runs (.pllUnlock (16 + p)) s (fun d => ∃ e, d = e.linkNotice ∧ fallen e ∧
         e.portState p = 4)) ∧
       (s.dev.portState p ≠ 3 → Runs (.pllUnlock (16 + p)) s (fun d => fallen d ∧
         d.portState p = s.dev.portState p))) ∧
     (s.dev.pcc.poreset = false →
       (∀ fld i, pllBit n = some (fld, i) → (n = 10 ∨ s.dev.gb B.pcc F.pcc_REFCLK_OK = true) → Runs (.pllLock n) s
         (fun d => bit (d.g B.pcc fld) i = true ∧ d.fence = s.dev.fence ∧ RegsBut s.dev d [fld.key B.pcc 0])) ∧
       Runs (.pllLock 11) s (fun d => d.gb B.pcc F.pcc_REFCLK_OK = true ∧ d.fence = s.dev.fence ∧
         RegsBut s.dev d [F.pcc_REFCLK_OK.key B.pcc 0])) ∧
     (s.dev.gb B.pcc F.pcc_REFCLK_OK = true → Undisturbed s.dev (s.dev.refclkLoss khz) →
       Runs (.refclkLoss khz) s (fun d => ∃ e : Dev, d = (List.range 6).foldl (fun d p => d.pllUnlock (16 + p)) e ∧
         e.gb B.pcc F.pcc_REFCLK_OK = false ∧
         (∀ r c, r < 8 → bit (s.dev.g B.pcc F.pcc_ARITH_LOCK) r = true → c / 4 = r → e.domFenced c = true) ∧
         (bit (s.dev.g B.pcc F.pcc_FABRIC_LOCK) 0 = true → ∀ k ∈ fabricDoms, e.domFenced k = true) ∧
         (bit (s.dev.g B.pcc F.pcc_VAULT_LOCK) 0 = true → ∀ v < 8, e.domFenced (Dom.vault v) = true) ∧
         e.domFenced Dom.mgmt = s.dev.domFenced Dom.mgmt))) ∧
  (∀ (s : State) (rs : List Nat) (vs : List (Nat × Nat)), s.dev.pcc.poreset = false →
     Runs (.tempSample rs vs) s (fun d =>
       (∀ r x, r < 8 → rs[r]? = some x →
         d.g B.pcc F.pcc_TJ r = x % 4096 ∧
         sint 12 (d.g B.pcc F.pcc_TJ_MAX r) = max (sint 12 (s.dev.g B.pcc F.pcc_TJ_MAX r)) (sint 12 x) ∧
         (s.dev.gb B.pcc F.pcc_THROTTLE_EN = true → 8 * (s.dev.g B.pcc F.pcc_THROTTLE_C : Int) ≤ sint 12 x →
           d.gb B.pcc F.pcc_THROTTLED r = true) ∧
         (s.dev.gb B.pcc F.pcc_THROTTLE_EN = false ∨ sint 12 x ≤ 8 * (s.dev.g B.pcc F.pcc_THROTTLE_C : Int) - 40 →
           d.gb B.pcc F.pcc_THROTTLED r = false)) ∧ d.ram = s.dev.ram ∧ d.dram = s.dev.dram ∧
       (∀ v x, v < 8 → vs[v]? = some x → d.g B.pcc F.pcc_VLT_TEMP v = x.1 % 256 ∧
         d.g B.pcc F.pcc_HOT_TIER v = x.2 % 4)))

/-- When a region is measured (R454): POWERED_SECOND makes a region due whose interval has passed; REQ_GO makes one due at
once; CREEP_MEASURE_START, with ST_EN 1, of a due, idle, cool region outside every safety task window begins its
measurement at VTGT_MV, and a window defers it; CREEP_OVERDUE reports one that stays due for a further INTERVAL_H.

CREEP_SWEEP_STEP: the sweep goes 5 mV lower after a pass, and stops at the first failure or at 0.50 V (R453).
CREEP_MEASURE_END: VMIN_MV is the lowest voltage that passed; the target is that and the guard, rounded up to 5 mV and at
most 650; EXHAUSTED where it would be higher; HEADROOM_LOW under the threshold (R455). CREEP_LOG_WRITE appends the oldest
record not logged, or reports a write that failed (R458).

Choices of the model in this statement: log entries 163, 165. -/
def Obligations.CreepMeasurements : Prop :=
  (∀ (s : State) (who : Initiator) (r : Nat) (drain : Bool), r < 8 →
     (s.dev.pcc.poreset = false → Runs .poweredSecond s (fun d =>
       let now := (s.dev.g B.pcc F.pcc_POWERED_S + 1) % 2 ^ 64
       d.g B.pcc F.pcc_POWERED_S = now ∧
       (s.dev.pcc.due.get? r = none → s.dev.gb B.pcc F.pcc_MEAS_BUSY r = false →
         s.dev.g B.pcc F.pcc_LAST_MEAS_S r + 3600 * s.dev.g B.pcc F.pcc_INTERVAL_H ≤ now →
         d.gb B.pcc F.pcc_MEAS_DUE r = true ∧ d.pcc.due.get? r = some (1, now)))) ∧
     (Writes s.dev .pcc true who → Runs (.reqGo who r drain) s (fun d => d.gb B.pcc F.pcc_MEAS_DUE r = true ∧
       (∃ t, d.pcc.due.get? r = some (2, t)) ∧ bit d.pcc.drain r = drain ∧
       RegsBut s.dev d [F.pcc_REQ_REGION.key B.pcc 0, F.pcc_REQ_DRAIN.key B.pcc 0, F.pcc_MEAS_DUE.key B.pcc r])) ∧
     (∀ x, s.dev.pcc.due.get? r = some x →
       (s.dev.gb B.rime F.rime_ST_EN = true → s.dev.measDeferred r = false →
         s.dev.gb B.pcc F.pcc_MEAS_BUSY r = false → s.dev.gb B.pcc F.pcc_THROTTLED r = false →
         (s.dev.gb B.rime F.rime_SLICE_BUSY = true → s.dev.g B.rime F.rime_SLICE_CLUSTER / 4 ≠ r) →
         s.dev.regionFenced r = false → (∀ c, c / 4 = r → s.dev.clusterIdle c = true) →
         (s.dev.windowEnd s.dev.varve 2000000 = none → Runs (.creepMeasureStart r) s (fun d =>
           d.gb B.pcc F.pcc_MEAS_BUSY r = true ∧
           d.pcc.meas.get? r = some { cause := x.1, v := s.dev.g B.pcc F.pcc_VTGT_MV r })) ∧
         (∀ e, s.dev.windowEnd s.dev.varve 2000000 = some e →
           Runs (.creepMeasureStart r) s (fun d => d.pcc.meas = s.dev.pcc.meas ∧
             d.g B.pcc F.pcc_CREEP_DEFER_CNT = min (s.dev.g B.pcc F.pcc_CREEP_DEFER_CNT + 1) (2 ^ 32 - 1) ∧
             RegsBut s.dev d [F.pcc_CREEP_DEFER_CNT.key B.pcc 0]))) ∧
       (x.2 + 3600 * s.dev.g B.pcc F.pcc_INTERVAL_H ≤ s.dev.g B.pcc F.pcc_POWERED_S →
         s.dev.gb B.pcc F.pcc_MEAS_OVERDUE r = false → Runs (.creepOverdue r) s (fun d =>
           d.gb B.pcc F.pcc_MEAS_OVERDUE r = true ∧
           Told d 0x0F r 0x0A32 (dtl [(1, r), (4, s.dev.g B.pcc F.pcc_LAST_MEAS_S r)]) ∧
           RegsBut s.dev d [F.pcc_MEAS_OVERDUE.key B.pcc r])))) ∧
  (∀ (s : State) (r : Nat) (ok : Bool), r < 8 →
     (∀ m, s.dev.pcc.meas.get? r = some m →
       (m.swept = false → s.dev.pcc.avs.get? r = none →
         Runs (.creepSweepStep r ok) s (fun d => d.pcc.meas.get? r = some
         (if ok = false then { m with swept := true }
          else if m.v < 505 then { m with vmin := some m.v, swept := true }
          else { m with v := m.v - 5, vmin := some m.v }))) ∧
       (m.swept = true → Runs (.creepMeasureEnd r) s (fun d =>
         d.pcc.meas.get? r = none ∧ d.pcc.due.get? r = none ∧ d.gb B.pcc F.pcc_MEAS_BUSY r = false ∧
         d.gb B.pcc F.pcc_MEAS_DUE r = false ∧
         d.g B.pcc F.pcc_LAST_MEAS_S r = s.dev.g B.pcc F.pcc_POWERED_S % 2 ^ 32 ∧
         ∃ v, (∀ x, m.vmin = some x → v = x) ∧
           let t := (v + s.dev.g B.pcc F.pcc_GUARD_MV + 4) / 5 * 5
           let tgt := if s.dev.gb B.pcc F.pcc_CREEP_EN then min t 650 else 650
           d.g B.pcc F.pcc_VMIN_MV r = v % 1024 ∧ d.g B.pcc F.pcc_VTGT_MV r = tgt ∧
           d.g B.pcc F.pcc_HEADROOM_MV r = (650 - tgt) % 256 ∧
           d.gb B.pcc F.pcc_EXHAUSTED r = decide (650 < t) ∧
           d.gb B.pcc F.pcc_HEADROOM_LOW r =
             decide (d.g B.pcc F.pcc_HEADROOM_MV r < s.dev.g B.pcc F.pcc_HEADROOM_THRESH_MV)))) ∧
     (∀ x rest, s.dev.pcc.logQ = x :: rest → s.dev.mgmtRuns = true → s.dev.pcc.ioDead = false →
       let at_ := s.dev.creepSlot.2
       Runs (.creepLogWrite ok) s (fun d => d.pcc.logQ = rest ∧
         d.flash.creep.get? at_.1 = (if ok then some (x.bytes at_.2) else none) ∧ d.regs = s.dev.regs ∧
         (ok = false → Told d 0x0F 0xFF 0x0A33 (dtl [(4, at_.2)])))))

/-- RAIL_RAMP_STEP moves a rail 1 mV toward its target; VOLT_WINDOW outside ± 25 mV fences the region's clusters, counted
(R456). AVS_ACK ends an AVSBus command, its target then in force; AVS_RETRY repeats it after 100 µs, counted, the first
time reported (R442). RAIL_OUT_OF_RANGE: what the rail feeds serves nothing, and the fault is reported, under which code
being left open (log entry 203; R41, R468); VDD_SAFE_DIP: Rime is in reset and the
pull-downs assert both pins (R468).

Choices of the model in this statement: log entries 164, 167, 203, 215. -/
def Obligations.Rails : Prop :=
  ∀ (s : State) (r mv : Nat),
    (r < 8 →
      (s.dev.setPoint r ≠ s.dev.railTo r → Runs (.railRampStep r) s (fun d =>
        d.setPoint r = (if s.dev.setPoint r < s.dev.railTo r then s.dev.setPoint r + 1 else s.dev.setPoint r - 1) ∧
        d.g B.pcc F.pcc_VMEAS_MV r = d.setPoint r % 1024 ∧
        RegsBut s.dev d [F.pcc_VMEAS_MV.key B.pcc r, F.pcc_ARITH_100.key B.pcc r])) ∧
      (s.dev.pcc.poreset = false →
        (s.dev.setPoint r ≤ mv + 25 → mv ≤ s.dev.setPoint r + 25 → Runs (.voltWindow r mv) s (fun d =>
          d.gb B.pcc F.pcc_VWIN_OK r = true ∧ d.g B.pcc F.pcc_VMEAS_MV r = mv % 1024 ∧ d.fence = s.dev.fence)) ∧
        (mv + 25 < s.dev.setPoint r ∨ s.dev.setPoint r + 25 < mv →
          s.dev.gb B.pcc F.pcc_VWIN_OK r = true ∨ s.dev.voltFenced r = false →
          Runs (.voltWindow r mv) s (fun d => d.gb B.pcc F.pcc_VWIN_OK r = false ∧
            d.g B.pcc F.pcc_VWIN_CNT = min (s.dev.g B.pcc F.pcc_VWIN_CNT + 1) (2 ^ 32 - 1) ∧
            ∀ c, c / 4 = r → bit (d.fence.getD c 0) 1 = true))) ∧
      (∀ a, s.dev.pcc.avs.get? r = some a →
        Runs (.avsAck r) s (fun d => d.pcc.avs.get? r = none ∧ d.railTo r = a.mv ∧
          d.gb B.pcc F.pcc_AVS_PENDING r = false) ∧
        (a.since + 100000 ≤ s.dev.varve → Runs (.avsRetry r) s (fun d =>
          d.pcc.avs.get? r = some ⟨a.mv, a.repeats + 1, s.dev.varve⟩ ∧
          d.g B.pcc F.pcc_AVS_RETRY_CNT = min (s.dev.g B.pcc F.pcc_AVS_RETRY_CNT + 1) (2 ^ 32 - 1) ∧
          (a.repeats = 0 → Told d 0x0F r 0x0A13 (dtl [(1, r), (2, a.mv)])))))) ∧
    (s.dev.pcc.poreset = false →
      Runs (.railOutOfRange r) s (fun d => (∀ k ∈ railDoms r, d.domFenced k = true) ∧
        (r = 4 → d.pcc.mmpIoDead = true) ∧
        (r = 5 ∨ r = 6 → d.pcc.dramDead = true) ∧ (r = 7 → d.pcc.ioDead = true) ∧ d.regs = s.dev.regs ∧
        Told d 0x0F 0xFF (railCode r) (dtl [(1, r)])) ∧
      Runs .vddSafeDip s (fun d => d.domUp Dom.rime = false ∧ d.faultPin = true ∧
        d.safePin = true ∧ d.regs = s.dev.regs))

/-! ### Dictionary, field networks, time -/

/-- An access item's result (Table 13.5, R359, R360, R364): KR_BAD_OP for an operation that is not READ, WRITE or INFO; an
item on 0x8000–0x8FFF only in the secure world; KR_NO_OBJECT and KR_NO_SUB; KR_ACCESS for a write to a CONST or RO entry
and a read of a WO one; KR_WORLD for a non-secure write to an RWS one; then type, length and range. An item refused
changes nothing; a READ answers the entry's value.

Choices of the model in this statement: log entry 126. -/
def Obligations.DictionaryItems : Prop :=
  ∀ (d : Dev) (o : Otp) (secure : Bool) (i : Item),
    let r := d.dictItem o secure i
    (i.op ∉ [1, 2, 3] ∨ i.result ≠ 0 → r = (d, i.ty, 0x0B, [])) ∧
    (i.op ∈ [1, 2, 3] → i.result = 0 →
      (0x8000 ≤ i.idx → i.idx < 0x9000 → secure = false → r = (d, i.ty, 4, [])) ∧
      (secure = true ∨ i.idx < 0x8000 ∨ 0x9000 ≤ i.idx →
        (dictRow i.idx = none → r = (d, i.ty, 1, [])) ∧
        ((dictRow i.idx).isSome = true → dictEnt i.idx i.sub = none → r = (d, i.ty, 2, [])) ∧
        (∀ e, dictEnt i.idx i.sub = some e →
          (i.op = 2 →
            (e.acc ≤ 1 → r = (d, i.ty, 3, [])) ∧
            (e.acc = 4 → secure = false → r = (d, i.ty, 4, [])) ∧
            (2 ≤ e.acc → (e.acc = 4 → secure = true) →
              (i.ty ≠ e.ty → r = (d, i.ty, 5, [])) ∧
              (i.ty = e.ty → i.data.length ≠ e.size → r = (d, i.ty, 6, [])) ∧
              (i.ty = e.ty → i.data.length = e.size → dictInRange i.idx i.sub i.data = false →
                r = (d, i.ty, 7, [])))) ∧
          (i.op = 1 → e.acc = 3 → r = (d, i.ty, 3, [])) ∧
          (i.op = 1 → e.acc ≠ 3 → i.ty = 0 ∨ i.ty = e.ty → i.data = [] →
            r = (d, e.ty, 0, d.dictGet o i.idx i.sub)))))

/-- The access codes of Table 13.2 (R359), of items whose type, length and value are right: a CONST, RO, RW or RWS entry is
read in either world, and a read of a WO one is answered with KR_ACCESS; a write of a CONST or RO entry is answered with
KR_ACCESS, one of an RWS entry in the non-secure world with KR_WORLD, and no other for its access code, but that a WO
entry acts as its description states. A non-secure request to 0x8000–0x8FFF is answered with KR_WORLD, whether or not the
entry exists. A request so refused changes nothing. -/
def Obligations.DictionaryAccess : Prop :=
  ∀ (d : Dev) (o : Otp) (secure : Bool) (i : Item), i.op = 1 ∨ i.op = 2 → i.result = 0 →
    let r := d.dictItem o secure i
    (0x8000 ≤ i.idx → i.idx < 0x9000 → secure = false → r.1 = d ∧ r.2.2.1 = 4) ∧
    (∀ e, secure = true ∨ i.idx < 0x8000 ∨ 0x9000 ≤ i.idx → dictEnt i.idx i.sub = some e →
      (i.op = 1 → i.ty = 0 ∨ i.ty = e.ty → i.data = [] → r.1 = d ∧ r.2.2.1 = if e.acc = 3 then 3 else 0) ∧
      (i.op = 2 → i.ty = e.ty → i.data.length = e.size → dictInRange i.idx i.sub i.data = true →
        (e.acc ≤ 1 → r.1 = d ∧ r.2.2.1 = 3) ∧
        (e.acc = 4 → secure = false → r.1 = d ∧ r.2.2.1 = 4) ∧
        (e.acc = 2 ∨ (e.acc = 4 ∧ secure = true) → r.2.2.1 ≠ 3 ∧ r.2.2.1 ≠ 4) ∧
        (e.acc = 3 → r.2.2.1 ≠ 3)))

/-- REQ_SEQ_WRITE: one above RSP_SEQ submits a slot's request, which waits behind those that have arrived, counted by its
path; another value, or one while a request is served, is ignored (R365, R374). MIRROR_RESPONSE of the oldest message
applies its items and answers it under its REQ_SEQ, after which CAN FD requests next in line are served (R364–R366, R374).
SNAPSHOT copies the entries into both channels, SNAP_GEN two higher (R375). HEARTBEAT rewrites both headers (Table 11.4).

With the service up, DICT_STORE takes the persistent entries as they stand, and is ignored while a store runs;
DICT_RESTORE sets every persistent entry to its default; before, neither does anything (R361, R362, R386). DICT_STORE_DONE
writes the entries over the older copy as the next generation, or, read back wrong, leaves the current copy (R362).

Choices of the model in this statement: log entries 127, 133, 169, 206, 207. -/
def Obligations.MirrorAndStore : Prop :=
  (∀ (s : State) (k v : Nat) (secure : Bool),
     let x := s.dev.mirSlot k
     (k < 12 → v < 2 ^ 32 → s.dev.domUp Dom.mgmt = true → (k < 8 → s.dev.chWrites (k / 4) = true) →
       s.dev.gb B.dictm F.dictm_DM_READY = true →
       (x.busy = false → v = (x.rspSeq + 1) % 2 ^ 32 →
         Runs (.reqSeqWrite k v secure) s (fun d => d.mirSlot k = { x with
             reqSeq := v, busy := true
             secure := if k < 8 then s.dev.gb B.mmp F.mmp_HOST_SECURE (k / 4) else secure } ∧
           d.dict.arrived = s.dev.dict.arrived ++ [.slot k] ∧
           d.dcnt 0x7004 (if k < 4 then 1 else if k < 8 then 2 else 3) =
             min (s.dev.dcnt 0x7004 (if k < 4 then 1 else if k < 8 then 2 else 3) + 1) (2 ^ 32 - 1) ∧
           d.regs = s.dev.regs ∧ d.ram = s.dev.ram)) ∧
       (x.busy = true ∨ v ≠ (x.rspSeq + 1) % 2 ^ 32 → Runs (.reqSeqWrite k v secure) s (fun d => d = s.dev))) ∧
     (s.dev.dictReady = true → x.busy = true → s.dev.dict.arrived.head? = some (.slot k) →
       Undisturbed s.dev (s.dev.mirrorResponse s.otp k) →
       let b := padTo 1984 x.req
       let items := kopItems (b.take (16 + fieldN b 0xE 2)) 0
       Runs (.mirrorResponse k) s (fun d => ∃ e : Dev, d = e.msgServed s.otp ∧ (e.mirSlot k).rspSeq = x.reqSeq ∧
         (e.mirSlot k).busy = false ∧ (e.mirSlot k).rsp.length = 1984 ∧
         ∀ l, items = some l →
           let r := s.dev.takeMsg.dictMessage s.otp (dictWorld s.otp x.secure) 1968 l
           e.regs = r.1.regs ∧ e.pers = r.1.pers ∧
           (e.mirSlot k).rsp = padTo 1984 (kopHeader 1 b r.2.length ++ r.2))) ∧
     (s.dev.dictReady = true → s.dev.gb B.dictm F.dictm_SNAP_EN = true → Runs .snapshot s (fun d =>
       let l := snapIdx.flatMap (fun i => s.dev.snapRecs s.otp i)
       d.regs = s.dev.regs ∧ d.ram = s.dev.ram ∧ ∀ h < 2, d.dict.snaps.get? h =
         some ⟨((s.dev.dict.snaps.getD h {}).gen + 2) % 2 ^ 32, l.take 28672, decide (28672 < l.length)⟩)) ∧
     (s.dev.mgmtRuns = true → (s.dev.chan 0).cpState ≠ 0 → Runs .heartbeat s (fun d => d.regs = s.dev.regs ∧
       ∀ h < 2, d.chan h = { s.dev.chan h with heartbeat := s.dev.varve % 2 ^ 32 }))) ∧
  (∀ s : State,
     (s.dev.dictReady = false → Runs .dictStore s (fun d => d = s.dev) ∧ Runs .dictRestore s (fun d => d = s.dev)) ∧
     (s.dev.dictReady = true →
       (s.dev.dict.store = none → Runs .dictStore s (fun d => d.dict.store = some s.dev.pers ∧ d.dict.storeState = 1 ∧
         d.pers = s.dev.pers ∧ d.flash = s.dev.flash ∧ d.regs = s.dev.regs)) ∧
       (s.dev.dict.store ≠ none → Runs .dictStore s (fun d => d = s.dev)) ∧
       Runs .dictRestore s (fun d => d.pers = [] ∧ d.flash = s.dev.flash ∧ d.ram = s.dev.ram ∧
         d.g B.pcc F.pcc_WARN_C = (if s.otp.gradeS then 0x5F else 0x73) ∧
         d.g B.pcc F.pcc_THROTTLE_C = (if s.otp.gradeS then 0x64 else 0x78))) ∧
     (∀ vals, s.dev.dict.store = some vals → s.dev.mgmtRuns = true →
       let cur := s.dev.flash.storeCurrent
       (s.dev.pcc.ioDead = false → Runs (.dictStoreDone true) s (fun d => d.dict.store = none ∧
         d.dict.storeState = 2 ∧ d.regs = s.dev.regs ∧
         (∀ k c, cur = some (k, c) → d.flash.stores.get? (1 - k) = some (storeCopy ((c.gen + 1) % 2 ^ 32) vals) ∧
           d.flash.stores.get? k = some c) ∧
         (cur = none → d.flash.stores.get? 0 = some (storeCopy 1 vals)))) ∧
       (∀ ok, ok = false ∨ s.dev.pcc.ioDead = true → Runs (.dictStoreDone ok) s (fun d => d.dict.store = none ∧
         d.dict.storeState = 3 ∧ d.dict.storeGen = s.dev.dict.storeGen ∧ d.flash.storeCurrent = cur ∧
         d.regs = s.dev.regs))))

/-- ETHERNET_FRAME: counted; dropped and counted on a wrong FCS; an ARP request for the package is answered (R367).
ETHERNET_LINK_CHANGE: the link's state, and a count of the times it went down (R363). KOP_MESSAGE of the oldest message: a
malformed datagram is counted and not answered; nor are an unauthenticated one where the dictionary asks for
authentication, one whose key, tag or boot ID is wrong, and a repeated one, each counted; any other is answered to its
sender, an authenticated one having its sequence number kept (R365, R368, R369). CAN FD requests next in line are then
served.

CAN_FRAME: a classical frame is counted; a first segment opens a request and a next one joins it; a segment of no open
request discards, counted, and answers; a single frame, or the last of a request, makes a request, which is answered where
its items do not end within it, and otherwise waits behind the messages that have arrived, served at once where there are
none (R365, R371, R372). CAN_SEGMENT_TIMEOUT discards a request whose segments stopped for 100 ms, counted and answered
(R372). CAN_ERROR_STATE and CAN_BUS_OFF_RECOVERY move a controller, each entry counted (R370).

Choices of the model in this statement: log entries 128, 131, 135, 207. -/
def Obligations.FieldNetworks : Prop :=
  (∀ (s : State) (f : Bytes) (up : Bool),
     let cnt := fun (d : Dev) (i j : Nat) => d.dcnt i j = min (s.dev.dcnt i j + 1) (2 ^ 32 - 1)
     (s.dev.macUp = true →
       Runs (.ethernetFrame f false) s (fun d => cnt d 0x7005 1 ∧ cnt d 0x7005 3 ∧ d.dict = s.dev.dict ∧
         d.regs = s.dev.regs) ∧
       (14 ≤ f.length → f.length ≤ 1514 → beField f 12 2 = 0x0806 → s.dev.dictReady = true →
         beField (f.drop 14) 0 2 = 1 → beField (f.drop 14) 2 2 = 0x0800 → beField (f.drop 14) 6 2 = 1 →
         beField (f.drop 14) 24 4 = s.dev.inForce s.otp 0x1030 1 →
         Runs (.ethernetFrame f true) s (fun d => cnt d 0x7005 1 ∧ d.regs = s.dev.regs ∧
           d.dict.ethOut = s.dev.dict.ethOut ++
             [.arpReply (beField (f.drop 14) 8 6) (beField (f.drop 14) 14 4)]))) ∧
     (s.dev.mgmtRuns = true → Runs (.ethernetLinkChange up) s (fun d => d.dict = { s.dev.dict with ethUp := up } ∧
       d.regs = s.dev.regs ∧ (s.dev.dict.ethUp = true → up = false → cnt d 0x7005 4) ∧
       (s.dev.dict.ethUp = false ∨ up = true → d.dictCnt = s.dev.dictCnt))) ∧
     (∀ k rest, s.dev.dict.arrived = .udp k :: rest → s.dev.dictReady = true →
       Undisturbed s.dev (s.dev.kopMessage s.otp) →
       let auth := bit (fieldN k.data 3 1) 1
       let items := kopItems k.data (if auth then 8 else 0)
       let n := k.data.length - 8
       let key := s.dev.sec.mkeys.get? (fieldN k.data 0xD 1)
       let right := ∃ x, key = some x ∧ (Crypto.cmac x (k.data.take n)).take 8 = k.data.drop n ∧
         fieldN k.data 8 4 = s.dev.sec.bootId
       let again := ∃ q, s.dev.dict.kopSeq.get? (fieldN k.data 0xD 1) = some q ∧ fieldN k.data 4 4 ≤ q
       let silent := fun (c : Nat) (d : Dev) => ∃ e : Dev, d = e.msgServed s.otp ∧ cnt e 0x7001 c ∧
         e.dict = { s.dev.dict with arrived := rest } ∧ e.regs = s.dev.regs
       let answers := fun (d : Dev) => ∃ (e : Dev) (m : Bytes), d = e.msgServed s.otp ∧ e.dict.arrived = rest ∧
         e.dict.ethOut = s.dev.dict.ethOut ++ [.kop k.mac k.ip k.port m] ∧
         (auth = true → e.dict.kopSeq.get? (fieldN k.data 0xD 1) = some (fieldN k.data 4 4))
       (items = none → Runs .kopMessage s (silent 4)) ∧
       (items.isSome = true → auth = false →
         Runs .kopMessage s (if s.dev.inForce s.otp 0x1030 7 = 0 then silent 5 else answers)) ∧
       (items.isSome = true → auth = true →
         (¬ right → Runs .kopMessage s (silent 5)) ∧
         (right → again → Runs .kopMessage s (silent 6)) ∧
         (right → ¬ again → Runs .kopMessage s answers)))) ∧
  (∀ (s : State) (c st : Nat) (ctl : Byte) (seg : Bytes), c < 2 →
     let x := s.dev.can c
     let id := s.dev.canId s.otp c
     let i := Instr.canFrame c id true (ctl :: seg)
     let cnt := fun (d : Dev) (j : Nat) => d.dcnt (0x7002 + c) j = min (s.dev.dcnt (0x7002 + c) j + 1) (2 ^ 32 - 1)
     let answered := fun (d : Dev) => (d.can c).part = none ∧ ∃ m, d.dict.canOut = s.dev.dict.canOut ++
       (canFrames m).map (fun b => (c, id + 1, b))
     let requested := fun (m : Bytes) =>
       (canItems m = none → Runs i s (fun d => cnt d 2 ∧ answered d)) ∧
       ((canItems m).isSome = true → Undisturbed s.dev (s.dev.canFrame s.otp c id true (ctl :: seg)) →
         (s.dev.dict.arrived = [] → Runs i s answered) ∧
         Runs i s (fun d => ∃ e : Dev, d = e.msgServed s.otp ∧ (e.can c).part = none ∧ e.regs = s.dev.regs ∧
           e.dict.arrived = s.dev.dict.arrived ++ [.can c m]))
     (s.dev.dictReady = true → x.state < 2 → s.dev.pcc.ioDead = false →
       Runs (.canFrame c id false (ctl :: seg)) s (fun d => cnt d 3 ∧ d.dict = s.dev.dict ∧ d.regs = s.dev.regs) ∧
       (x.part = none → ctl.toNat = 64 → Runs i s (fun d =>
         (d.can c).part = some ⟨seg.take 63, 1, s.dev.varve⟩ ∧ d.dict.canOut = s.dev.dict.canOut ∧
         d.regs = s.dev.regs)) ∧
       (∀ p, x.part = some p → ctl.toNat = 128 + p.next → p.next < 64 → s.dev.varve ≤ p.since + 100000000 →
         p.data.length + (seg.take 63).length ≤ 2016 → Runs i s (fun d => d.regs = s.dev.regs ∧
           (d.can c).part = some ⟨p.data ++ seg.take 63, p.next + 1, s.dev.varve⟩)) ∧
       (x.part = none → 128 ≤ ctl.toNat → Runs i s (fun d => cnt d 2 ∧ answered d)) ∧
       (x.part = none → ctl.toNat = 0 → requested (seg.take 63)) ∧
       (∀ p, x.part = some p → ctl.toNat = 192 + p.next → p.next < 64 → s.dev.varve ≤ p.since + 100000000 →
         p.data.length < 2016 → requested ((p.data ++ seg.take 63).take 2016))) ∧
     (∀ p, x.part = some p → s.dev.dictReady = true → p.since + 100000000 < s.dev.varve →
       Runs (.canSegmentTimeout c) s (fun d => cnt d 2 ∧ answered d ∧ d.regs = s.dev.regs)) ∧
     (s.dev.mgmtRuns = true →
       (x.state < 2 → st < 3 → st ≠ x.state → Runs (.canErrorState c st) s (fun d => (d.can c).state = st ∧
         d.regs = s.dev.regs ∧ (st = 1 → cnt d 5) ∧ (st = 2 → cnt d 4 ∧ (d.can c).part = none))) ∧
       (x.state = 2 → Runs (.canBusOffRecovery c) s (fun d => (d.can c).state = 0 ∧ d.regs = s.dev.regs))))

/-- The limit of ±858,993 on RATE_ADJ, and what a written rate does (R378), where TIME_SOURCE lets a rate be written: a
write beyond the limit stores the limit and sets LIMIT_HIT, one within it stores its value, and neither moves the counter
by itself; each AON tick moves the counter by 40 ns at the rate in force then (R377); a warm reset keeps the rate. -/
def Obligations.RateAdjustment : Prop :=
  ∀ (s : State) (who : Initiator) (v : Nat),
    (Writes s.dev .mgmt true who → s.dev.timeSource ≠ 0 → Runs (.rateAdjWrite who v) s (fun d =>
        sint 32 (d.g B.mgmt F.mgmt_RATE_ADJ) = max (-858993) (min 858993 (sint 32 v)) ∧
        d.gb B.mgmt F.mgmt_LIMIT_HIT = (s.dev.gb B.mgmt F.mgmt_LIMIT_HIT || decide (sint 32 v < -858993) ||
          decide (858993 < sint 32 v)) ∧ d.varve = s.dev.varve ∧ d.varveFrac = s.dev.varveFrac ∧
        RegsBut s.dev d [F.mgmt_RATE_ADJ.key B.mgmt 0, F.mgmt_LIMIT_HIT.key B.mgmt 0])) ∧
    (s.dev.pcc.poreset = false → Runs .aonTick s (fun d =>
      ((d.varve * 2 ^ 32 + d.varveFrac : Nat) : Int) = (((s.dev.varve * 2 ^ 32 + s.dev.varveFrac : Nat) : Int) +
        40 * (2 ^ 32 + sint 32 (s.dev.g B.mgmt F.mgmt_RATE_ADJ))) % 2 ^ 96 ∧ d.regs = s.dev.regs ∧
      d.ram = s.dev.ram)) ∧
    (s.dev.mgmtRuns = true → leNat (s.dev.storedValues.getD (0x5001 * 256 + 1) [1]) ≠ 0 →
      Runs .warmReset s (fun d => d.varve = s.dev.varve ∧
        d.g B.mgmt F.mgmt_RATE_ADJ = s.dev.g B.mgmt F.mgmt_RATE_ADJ))

/-- STEP_GO adds STEP_OFFSET once between two cold resets, and is ignored while STEPPED is 1 (R379); its event has class
0x11 and instance 0 by the model's choice (log entry 134). Under TIME_SOURCE 0 the rate stays 0 and no step is taken (R380):
that a write of RATE_ADJ and a STEP_GO change nothing there, and that a warm reset into it leaves 0, is the model's own
choice (log entry 204).

SYNC from the port followed, on an asCapable link: the first offset measured is stepped away and later ones steered
within the rate limit; a two-step one waits for its Follow_Up; one from another port or on another link changes no register
(R380–R382). PDELAY_REQ is answered; PDELAY_RESP to the request in flight sets the mean link delay from its four timestamps,
the ingress one in units of 8 ns within the link mode's uncertainty (R381, R383); ANNOUNCE is heeded (R381). SYNC_LOSS enters
HOLDOVER and reports the rate (R382).

Choices of the model in this statement: log entries 130, 132, 134, 204, 205. -/
def Obligations.TimeServes : Prop :=
  (∀ (s : State) (who : Initiator) (v : Nat),
     (s.dev.mgmtRuns = true → leNat (s.dev.storedValues.getD (0x5001 * 256 + 1) [1]) = 0 →
       Runs .warmReset s (fun d => d.varve = s.dev.varve ∧ d.g B.mgmt F.mgmt_RATE_ADJ = 0)) ∧
     (Writes s.dev .mgmt true who →
     (s.dev.timeSource = 0 → Runs (.rateAdjWrite who v) s (fun d => d = s.dev)) ∧
     (s.dev.gb B.mgmt F.mgmt_STEPPED = true ∨ s.dev.timeSource = 0 → Runs (.stepGo who) s (fun d => d = s.dev)) ∧
     (s.dev.gb B.mgmt F.mgmt_STEPPED = false → s.dev.timeSource ≠ 0 → s.dev.varve < 2 ^ 64 →
       s.dev.varveFrac < 2 ^ 32 →
       Runs (.stepGo who) s (fun d =>
         (d.varve : Int) = ((s.dev.varve : Int) + sint 64 (s.dev.g B.mgmt F.mgmt_STEP_OFFSET)) % 2 ^ 64 ∧
         d.gb B.mgmt F.mgmt_STEPPED = true ∧ d.g B.mgmt F.mgmt_STEP_BEFORE = s.dev.varve ∧
         d.g B.mgmt F.mgmt_STEP_AFTER = d.varve ∧
         Told d 0x11 0 0x0A40 (dtl [(8, s.dev.varve), (8, d.varve)]))))) ∧
  (∀ (s : State) (seq src t1 t2 t3 : Nat) (b : Bytes),
     let counted := fun (d : Dev) (n : Nat) => d.dcnt 0x7005 1 = min (s.dev.dcnt 0x7005 1 + n) (2 ^ 32 - 1) ∧
       d.ram = s.dev.ram
     (s.dev.timeRuns = true →
       (∀ origin, s.dev.dict.meanDelay ≤ 800 → s.dev.follows src = true →
         Runs (.sync ⟨seq, src, origin⟩) s (fun d => counted d 1 ∧
           (s.dev.gb B.mgmt F.mgmt_STEPPED = true → d.dict.lastSync = s.dev.varve ∧ d.dict.syncState = 2) ∧
           (s.dev.gb B.mgmt F.mgmt_STEPPED = true → origin.isSome = true →
             -858993 ≤ sint 32 (d.g B.mgmt F.mgmt_RATE_ADJ) ∧ sint 32 (d.g B.mgmt F.mgmt_RATE_ADJ) ≤ 858993 ∧
             RegsBut s.dev d [F.mgmt_RATE_ADJ.key B.mgmt 0]) ∧
           (s.dev.gb B.mgmt F.mgmt_STEPPED = false → origin.isSome = true →
             d.gb B.mgmt F.mgmt_STEPPED = true ∧ d.dict.syncState = 2) ∧
           (origin = none → d.regs = s.dev.regs ∧ (∃ t, d.dict.syncWait = some (seq, t)) ∧
             (s.dev.gb B.mgmt F.mgmt_STEPPED = false →
               d.dict.syncState = (if s.dev.dict.syncState = 0 then 1 else s.dev.dict.syncState))))) ∧
       (∀ origin, 800 < s.dev.dict.meanDelay ∨ s.dev.follows src = false →
         Runs (.sync ⟨seq, src, origin⟩) s (fun d => counted d 1 ∧ d.regs = s.dev.regs ∧
           d.dict.syncState = s.dev.dict.syncState ∧ d.dict.lastSync = s.dev.dict.lastSync)) ∧
       Runs (.pdelayReq seq) s (fun d => counted d 1 ∧ d.regs = s.dev.regs ∧ ∃ x y,
         d.dict.ethOut = s.dev.dict.ethOut ++ [.pdelayResp seq x y]) ∧
       (s.dev.dict.pdReq = some (seq, t1) → Runs (.pdelayResp seq t2 t3) s (fun d => counted d 2 ∧
         d.regs = s.dev.regs ∧ d.dict.pdReq = none ∧ ∃ n : Nat,
         let fix := s.dev.stampFix s.otp
         n ≤ 2 * (fix.2.2 / 8) ∧
         let t4 : Int := ((8 * (s.dev.varve / 8 + n) : Nat) : Int) - fix.2.2 - fix.2.1 -
           leNat (s.dev.persV s.otp 0x5001 3)
         d.dict.meanDelay =
           min ((sint 64 (unsint 64 t4) - sint 64 t1 - ((t3 : Int) - t2)) / 2).toNat (2 ^ 32 - 1))) ∧
       Runs (.announce b) s (fun d => counted d 1 ∧ d.regs = s.dev.regs ∧
         d.dict = { s.dev.dict with announce := b })) ∧
     (s.dev.mgmtRuns = true → s.dev.timeSource = 1 → s.dev.dict.syncState = 2 →
       s.dev.dict.lastSync + 1000000 * leNat (s.dev.persV s.otp 0x5001 2) ≤ s.dev.varve →
       Runs .syncLoss s (fun d => d.dict.syncState = 3 ∧ d.regs = s.dev.regs ∧
         Told d 0x11 0 0x0A42 (dtl [(4, s.dev.g B.mgmt F.mgmt_RATE_ADJ)]))))
end

