-- ==== Sys2Proof/Laws/Tab.lean ====
section
/-!
SUPPORT. Sparse tables: what is read after a write, and the canonical form kept.
-/

namespace Sys2Proof.Tab

variable {α : Type}

@[simp] theorem get?_nil (i : Nat) : get? ([] : Tab α) i = none := rfl

theorem get?_put_same (t : Tab α) (i : Nat) (v : α) : (t.put i v).get? i = some v := by
  induction t with
  | nil => simp [put, get?]
  | cons e t ih =>
    obtain ⟨k, w⟩ := e
    simp only [put]
    split
    · simp [get?]
    · split
      · simp [get?]
      · simp_all [get?]

theorem get?_put_other (t : Tab α) (i j : Nat) (v : α) (h : i ≠ j) : (t.put i v).get? j = t.get? j := by
  induction t with
  | nil => simp [put, get?, h]
  | cons e t ih =>
    obtain ⟨k, w⟩ := e
    simp only [put]
    split
    · subst_vars; simp [get?, h]
    · split
      · simp [get?, h]
      · simp [get?, ih]

theorem get?_del_same (t : Tab α) (i : Nat) : (t.del i).get? i = none := by
  induction t with
  | nil => rfl
  | cons e t ih =>
    obtain ⟨k, w⟩ := e
    simp only [del]
    split
    · exact ih
    · simp_all [get?]

theorem get?_del_other (t : Tab α) (i j : Nat) (h : i ≠ j) : (t.del i).get? j = t.get? j := by
  induction t with
  | nil => rfl
  | cons e t ih =>
    obtain ⟨k, w⟩ := e
    simp only [del]
    split
    · subst_vars; simp [get?, h, ih]
    · simp [get?, ih]

/-- Reading the key just stored gives the value stored. -/
@[simp] theorem getD_set_same [DecidableEq α] (d : α) (t : Tab α) (i : Nat) (v : α) : (set d t i v).getD i d = v := by
  unfold set getD
  split
  · simp_all [get?_del_same]
  · simp [get?_put_same]

/-- Storing one key leaves every other as it was. -/
theorem getD_set_other [DecidableEq α] (d d' : α) (t : Tab α) (i j : Nat) (v : α) (h : i ≠ j) :
    (set d t i v).getD j d' = t.getD j d' := by
  unfold set getD
  split
  · rw [get?_del_other t i j h]
  · rw [get?_put_other t i j v h]

/-- Every key of a table lies above a bound. -/
def above (n : Nat) (t : Tab α) : Prop := ∀ e ∈ t, n < e.1

theorem sorted_cons (a : Nat × α) (t : Tab α) : sorted (a :: t) = true ↔ (∀ b ∈ t.head?, a.1 < b.1) ∧
  t.sorted = true := by
  cases t <;> simp [sorted]

theorem sorted_above (a : Nat × α) (t : Tab α) (h : sorted (a :: t) = true) : above a.1 t := by
  induction t generalizing a with
  | nil => simp [above]
  | cons b t ih =>
    simp [sorted] at h
    intro e he
    rcases List.mem_cons.mp he with rfl | he
    · exact h.1
    · exact Nat.lt_trans h.1 (ih b h.2 e he)

theorem sorted_of_above (a : Nat × α) (t : Tab α) (h : above a.1 t)
  (ht : t.sorted = true) : sorted (a :: t) = true := by
  cases t with
  | nil => rfl
  | cons b t => simp [sorted, ht, h b (by simp)]

theorem mem_put (t : Tab α) (i : Nat) (v : α) (e : Nat × α) (h : e ∈ t.put i v) : e = (i, v) ∨ e ∈ t := by
  induction t with
  | nil => simp_all [put]
  | cons a t ih =>
    obtain ⟨k, w⟩ := a
    simp only [put] at h
    split at h
    · rcases List.mem_cons.mp h with rfl | h <;> simp_all
    · split at h
      · rcases List.mem_cons.mp h with rfl | h <;> simp_all
      · rcases List.mem_cons.mp h with rfl | h
        · simp
        · rcases ih h with h | h <;> simp_all

theorem sorted_put (t : Tab α) (i : Nat) (v : α) (h : t.sorted = true) : (t.put i v).sorted = true := by
  induction t with
  | nil => rfl
  | cons a t ih =>
    obtain ⟨k, w⟩ := a
    have hab := sorted_above _ _ h
    have ht := ((sorted_cons _ _).mp h).2
    simp only [put]
    split
    · subst_vars; exact sorted_of_above _ _ hab ht
    · split
      · rename_i h1 h2
        refine sorted_of_above _ _ ?_ h
        intro e he
        rcases List.mem_cons.mp he with rfl | he
        · exact h2
        · exact Nat.lt_trans h2 (hab e he)
      · rename_i h1 h2
        refine sorted_of_above _ _ ?_ (ih ht)
        intro e he
        rcases mem_put t i v e he with rfl | he
        · show k < i; omega
        · exact hab e he

theorem mem_del (t : Tab α) (i : Nat) (e : Nat × α) (h : e ∈ t.del i) : e ∈ t := by
  induction t with
  | nil => simp_all [del]
  | cons a t ih =>
    obtain ⟨k, w⟩ := a
    simp only [del] at h
    split at h
    · exact List.mem_cons_of_mem _ (ih h)
    · rcases List.mem_cons.mp h with rfl | h
      · simp
      · exact List.mem_cons_of_mem _ (ih h)

theorem sorted_del (t : Tab α) (i : Nat) (h : t.sorted = true) : (t.del i).sorted = true := by
  induction t with
  | nil => rfl
  | cons a t ih =>
    obtain ⟨k, w⟩ := a
    have ht := ((sorted_cons _ _).mp h).2
    simp only [del]
    split
    · exact ih ht
    · exact sorted_of_above _ _ (fun e he => sorted_above _ _ h e (mem_del t i e he)) (ih ht)

theorem sorted_filter (t : Tab α) (p : Nat × α → Bool) (h : t.sorted = true) : sorted (t.filter p) = true := by
  induction t with
  | nil => rfl
  | cons a t ih =>
    have ht := ((sorted_cons _ _).mp h).2
    simp only [List.filter_cons]
    split
    · exact sorted_of_above _ _ (fun e he => sorted_above _ _ h e ((List.mem_filter.mp he).1)) (ih ht)
    · exact ih ht

/-- Storing a value keeps the canonical form. -/
theorem wf_set [DecidableEq α] (d : α) (t : Tab α) (i : Nat) (v : α)
  (h : wf d t = true) : wf d (set d t i v) = true := by
  simp only [wf, Bool.and_eq_true, List.all_eq_true, decide_eq_true_eq] at h ⊢
  unfold set
  split
  · exact ⟨sorted_del t i h.1, fun e he => h.2 e (mem_del t i e he)⟩
  · rename_i hv
    refine ⟨sorted_put t i v h.1, fun e he => ?_⟩
    rcases mem_put t i v e he with rfl | he
    · exact hv
    · exact h.2 e he

/-- Clearing a range of keys keeps the canonical form. -/
theorem wf_clear [DecidableEq α] (d : α) (t : Tab α) (lo hi : Nat)
  (h : wf d t = true) : wf d (t.clear lo hi) = true := by
  simp only [wf, Bool.and_eq_true, List.all_eq_true, decide_eq_true_eq] at h ⊢
  exact ⟨sorted_filter t _ h.1, fun e he => h.2 e ((List.mem_filter.mp he).1)⟩

end Sys2Proof.Tab
end

