-- ==== Sys2Proof/Laws/Memory.lean ====
section
/-!
SUPPORT. The byte memories (scratchpads and staging): a read after a write, and the canonical form kept by every
operation on them.
-/

namespace Sys2Proof.Machine

theorem Memory.read_write_same (m : List Host.Cell) (a : Nat)
  (v : Byte) : Memory.read (Memory.write m a v) a = v := by
  simp [Memory.read, Memory.write]

theorem Memory.read_write_other (m : List Host.Cell) (a b : Nat) (v : Byte) (h : a ≠ b) :
    Memory.read (Memory.write m a v) b = Memory.read m b := by
  simp [Memory.read, Memory.write, Tab.getD_set_other _ _ _ _ _ _ h]

theorem Memory.read_writeN_other (bs : Bytes) : ∀ (m : List Host.Cell) (a b : Nat), (b < a ∨ a + bs.length ≤ b) →
    Memory.read (Memory.writeN m a bs) b = Memory.read m b := by
  induction bs with
  | nil => intros; rfl
  | cons x bs ih =>
    intro m a b h
    simp only [List.length_cons] at h
    simp only [Memory.writeN]
    rw [ih _ _ _ (by omega), Memory.read_write_other _ _ _ _ (by omega)]

theorem Memory.read_writeN_in (bs : Bytes) : ∀ (m : List Host.Cell) (a i : Nat) (h : i < bs.length),
    Memory.read (Memory.writeN m a bs) (a + i) = bs[i] := by
  induction bs with
  | nil => intro m a i h; simp at h
  | cons x bs ih =>
    intro m a i h
    simp only [Memory.writeN]
    cases i with
    | zero =>
      rw [Memory.read_writeN_other bs _ _ _ (by omega)]
      simp [Memory.read_write_same]
    | succ i =>
      have := ih (Memory.write m a x) (a + 1) i (by simpa using h)
      rw [show a + (i + 1) = a + 1 + i by omega, this]
      simp

theorem Memory.wf_write (m : List Host.Cell) (a : Nat) (v : Byte) (h : Memory.wf m = true) :
    Memory.wf (Memory.write m a v) = true := Tab.wf_set _ _ _ _ h

theorem Memory.wf_writeN (bs : Bytes) : ∀ (m : List Host.Cell) (a : Nat), Memory.wf m = true →
    Memory.wf (Memory.writeN m a bs) = true := by
  induction bs with
  | nil => intro m a h; exact h
  | cons x bs ih => intro m a h; exact ih _ _ (Memory.wf_write m a x h)

theorem Memory.wf_clear (m : List Host.Cell) (lo hi : Nat) (h : Memory.wf m = true) :
    Memory.wf (Tab.clear m lo hi) = true := Tab.wf_clear _ _ _ _ h

/-- The canonical form holds right after reset. -/
theorem reset_wf : Memory.wf State.reset.dev.ram = true := rfl

theorem foldl_ram {α : Type} (l : List α) (f : Dev → α → Dev) (hf : ∀ d x, (f d x).ram = d.ram) (d : Dev) :
    (l.foldl f d).ram = d.ram := by
  induction l generalizing d with
  | nil => rfl
  | cons x l ih => rw [List.foldl_cons, ih, hf]

/-- A store of a run of bytes with its error patterns. -/
theorem sramStore_ram (d : Dev) (a : Nat) (data : Bytes) (p : Bool) :
    (d.sramStore a data p).ram = Memory.writeN d.ram a data := by
  unfold Dev.sramStore
  exact foldl_ram _ (fun (d : Dev) (i : Nat) => d.setSramErr (a + 32 * i) (if p then Ecc.poison else []))
    (fun _ _ => rfl) { d with ram := Memory.writeN d.ram a data }

theorem sramStore_wf (d : Dev) (a : Nat) (data : Bytes) (p : Bool) (h : Memory.wf d.ram = true) :
    Memory.wf (d.sramStore a data p).ram = true := by
  rw [sramStore_ram]; exact Memory.wf_writeN data _ _ h

@[simp] theorem upsetSram_ram (d : Dev) (a : Nat) (u : ErrPat) : (d.upsetSram a u).ram = d.ram := by
  unfold Dev.upsetSram; split <;> rfl

@[simp] theorem inc_ram (d : Dev) (b : Nat) (F : Fld) (k n : Nat) : (d.inc b F k n).ram = d.ram := rfl

@[simp] theorem raise_ram (d : Dev) (e : Ev) : (d.raise e).ram = d.ram := by
  unfold Dev.raise; split <;> rfl

@[simp] theorem event_ram (d : Dev) (c i s : Nat) (t : Bytes) (x : Nat)
  (w : Bool) : (d.event c i s t x w).ram = d.ram :=
  raise_ram d _

@[simp] theorem eventOf_ram (d : Dev) (w : Initiator) (c i s : Nat) (t : Bytes) : (d.eventOf w c i s t).ram = d.ram :=
  raise_ram d _

/-- A scratchpad word read leaves the bytes as they are. -/
theorem spSector_ram (d : Dev) (core : Nat) (w : Initiator) (a : Nat) : (d.spSector core w a).1.ram = d.ram := by
  unfold Dev.spSector
  dsimp only
  split <;> simp

@[simp] theorem poisonBytes_ram (d : Dev) : d.poisonBytes.1.ram = d.ram := rfl

theorem spWord_ram (d : Dev) (core g : Nat) (w : Initiator) : (d.spWord core g w).1.ram = d.ram := by
  unfold Dev.spWord
  dsimp only
  split <;> simp [spSector_ram]

theorem mergeStore_wf (w : Dev × Bytes × Bool) (a : Nat) (data : Bytes) (p : Bool) (h : Memory.wf w.1.ram = true) :
    Memory.wf (mergeStore w a data p).ram = true := sramStore_wf _ _ _ _ h

/-- A write into a scratchpad keeps the canonical form (R105, R107). -/
theorem spWrite_wf (d : Dev) (core off : Nat) (data : Bytes) (p : Bool) (w : Initiator) (h : Memory.wf d.ram = true) :
    Memory.wf (d.spWrite core off data p w).ram = true := by
  unfold Dev.spWrite
  split
  · exact sramStore_wf _ _ _ _ h
  · exact mergeStore_wf _ _ _ _ (by rw [spWord_ram]; exact h)

@[simp] theorem stagingUe_ram (d : Dev) (h off : Nat) (w : Initiator) : (d.stagingUe h off w).ram = d.ram := by
  simp only [Dev.stagingUe, eventOf_ram, inc_ram]

/-- A device read of a staging sector leaves the bytes as they are. -/
theorem stagingSector_ram (d : Dev) (h a : Nat) (w : Initiator) : (d.stagingSector h a w).1.ram = d.ram := by
  unfold Dev.stagingSector
  dsimp only
  split <;> simp

theorem stagingLine_ram (d : Dev) (h off : Nat) (w : Initiator) : (d.stagingLine h off w).1.ram = d.ram := by
  unfold Dev.stagingLine
  dsimp only
  split <;> simp [stagingSector_ram]

theorem sramKeep_wf (d : Dev) (a : Nat) (bits : Bytes) (h : Memory.wf d.ram = true) :
    Memory.wf (d.sramKeep a bits).ram = true := Memory.wf_writeN _ _ _ h

theorem mergeSector_wf (r : Dev × Bytes × Bool) (a : Nat) (data : Bytes) (p : Bool) (h : Memory.wf r.1.ram = true) :
    Memory.wf (mergeSector r a data p).ram = true := by
  unfold mergeSector
  dsimp only
  split
  · exact sramKeep_wf _ _ _ h
  · exact sramStore_wf _ _ _ _ h

theorem foldl_wf {α : Type} (f : Dev → α → Dev)
    (hf : ∀ d x, Memory.wf d.ram = true → Memory.wf (f d x).ram = true) (l : List α) (d : Dev)
    (h : Memory.wf d.ram = true) : Memory.wf (l.foldl f d).ram = true := by
  induction l generalizing d with
  | nil => exact h
  | cons x l ih => exact ih _ (hf d x h)

/-- A device write into staging keeps the canonical form (R316). -/
theorem stagingWrite_wf (d : Dev) (h off : Nat) (data : Bytes) (p : Bool) (w : Initiator)
    (hw : Memory.wf d.ram = true) : Memory.wf (d.stagingWrite h off data p w).ram = true := by
  refine foldl_wf _ (fun d c hd => ?_) _ d hw
  unfold Dev.stagingPart
  split
  · exact sramStore_wf _ _ _ _ hd
  · exact mergeSector_wf _ _ _ _ (by rw [stagingSector_ram]; exact hd)

/-- A host read of a staging sector leaves the bytes as they are. -/
theorem hostSector_ram (d : Dev) (h off : Nat) : (d.hostSector h off).1.ram = d.ram := by
  unfold Dev.hostSector
  dsimp only
  split <;> simp

theorem maskStore_wf (x : Dev × Bytes × Bool) (a : Nat) (data : Bytes) (mask : List Bool)
    (h : Memory.wf x.1.ram = true) : Memory.wf (maskStore x a data mask).ram = true := by
  unfold maskStore
  dsimp only
  split
  · exact sramKeep_wf _ _ _ h
  · exact sramStore_wf _ _ _ _ h

theorem hostSectorWrite_wf (d : Dev) (h off : Nat) (data : Bytes) (mask : List Bool) (hw : Memory.wf d.ram = true) :
    Memory.wf (d.hostSectorWrite h off data mask).ram = true := by
  unfold Dev.hostSectorWrite
  split
  · exact sramStore_wf _ _ _ _ hw
  · split
    · exact maskStore_wf _ _ _ _ (by rw [hostSector_ram]; exact hw)
    · exact hw

/-- A host write burst into staging keeps the canonical form (R316). -/
theorem hostWrite_wf (d : Dev) (h off : Nat) (data : Bytes) (mask : List Bool) (hw : Memory.wf d.ram = true) :
    Memory.wf (d.hostWrite h off data mask).ram = true :=
  foldl_wf _ (fun d _ hd => hostSectorWrite_wf d h _ _ _ hd) _ d hw

end Sys2Proof.Machine
end

