-- ==== Sys2Proof/Laws/State.lean ====
section
/-!
SUPPORT. What each update of the state leaves as it was, field by field, and what a register field reads after a write.
-/

namespace Sys2Proof.Machine

@[simp] theorem State.done_eq (s : State) (d : Dev) : s.done d = .next { s with dev := d } := rfl

@[simp] theorem Dev.pb_eq (d : Dev) (b : Nat) (F : Fld) (v : Bool) (k : Nat) : d.pb b F v k = d.p b F (b2n v) k := rfl

@[simp] theorem Dev.inc_eq (d : Dev) (b : Nat) (F : Fld) (k n : Nat) :
    d.inc b F k n = d.p b F (min (d.g b F k + n) (2 ^ F.w - 1)) k := rfl

@[simp] theorem Dev.event_eq (d : Dev) (c i s : Nat) (t : Bytes) (x : Nat) (w : Bool) :
    d.event c i s t x w = d.raise ⟨d.varve, c, i, s, x, w, t⟩ := rfl

/-! ### `Dev.p` -/

@[simp] theorem Dev.p_ram (d : Dev) (b : Nat) (F : Fld) (v k : Nat) : (d.p b F v k).ram = d.ram := rfl
@[simp] theorem Dev.p_ramErr (d : Dev) (b : Nat) (F : Fld) (v k : Nat) : (d.p b F v k).ramErr = d.ramErr := rfl
@[simp] theorem Dev.p_dram (d : Dev) (b : Nat) (F : Fld) (v k : Nat) : (d.p b F v k).dram = d.dram := rfl
@[simp] theorem Dev.p_vaults (d : Dev) (b : Nat) (F : Fld) (v k : Nat) : (d.p b F v k).vaults = d.vaults := rfl
@[simp] theorem Dev.p_ctxKey (d : Dev) (b : Nat) (F : Fld) (v k : Nat) : (d.p b F v k).ctxKey = d.ctxKey := rfl
@[simp] theorem Dev.p_heldReq (d : Dev) (b : Nat) (F : Fld) (v k : Nat) : (d.p b F v k).heldReq = d.heldReq := rfl
@[simp] theorem Dev.p_varve (d : Dev) (b : Nat) (F : Fld) (v k : Nat) : (d.p b F v k).varve = d.varve := rfl
@[simp] theorem Dev.p_varveFrac (d : Dev) (b : Nat) (F : Fld) (v k : Nat) : (d.p b F v k).varveFrac = d.varveFrac :=
    rfl
@[simp] theorem Dev.p_fabCycle (d : Dev) (b : Nat) (F : Fld) (v k : Nat) : (d.p b F v k).fabCycle = d.fabCycle := rfl
@[simp] theorem Dev.p_serial (d : Dev) (b : Nat) (F : Fld) (v k : Nat) : (d.p b F v k).serial = d.serial := rfl
@[simp] theorem Dev.p_evq (d : Dev) (b : Nat) (F : Fld) (v k : Nat) : (d.p b F v k).evq = d.evq := rfl
@[simp] theorem Dev.p_evSeq (d : Dev) (b : Nat) (F : Fld) (v k : Nat) : (d.p b F v k).evSeq = d.evSeq := rfl
@[simp] theorem Dev.p_evLost (d : Dev) (b : Nat) (F : Fld) (v k : Nat) : (d.p b F v k).evLost = d.evLost := rfl
@[simp] theorem Dev.p_evLog (d : Dev) (b : Nat) (F : Fld) (v k : Nat) : (d.p b F v k).evLog = d.evLog := rfl
@[simp] theorem Dev.p_evLim (d : Dev) (b : Nat) (F : Fld) (v k : Nat) : (d.p b F v k).evLim = d.evLim := rfl
@[simp] theorem Dev.p_ringLost (d : Dev) (b : Nat) (F : Fld) (v k : Nat) : (d.p b F v k).ringLost = d.ringLost := rfl
@[simp] theorem Dev.p_dictCnt (d : Dev) (b : Nat) (F : Fld) (v k : Nat) : (d.p b F v k).dictCnt = d.dictCnt := rfl
@[simp] theorem Dev.p_fence (d : Dev) (b : Nat) (F : Fld) (v k : Nat) : (d.p b F v k).fence = d.fence := rfl
@[simp] theorem Dev.p_resp (d : Dev) (b : Nat) (F : Fld) (v k : Nat) : (d.p b F v k).resp = d.resp := rfl
@[simp] theorem Dev.p_tags (d : Dev) (b : Nat) (F : Fld) (v k : Nat) : (d.p b F v k).tags = d.tags := rfl
@[simp] theorem Dev.p_stalled (d : Dev) (b : Nat) (F : Fld) (v k : Nat) : (d.p b F v k).stalled = d.stalled := rfl
@[simp] theorem Dev.p_blocked (d : Dev) (b : Nat) (F : Fld) (v k : Nat) : (d.p b F v k).blocked = d.blocked := rfl
@[simp] theorem Dev.p_sasRuns (d : Dev) (b : Nat) (F : Fld) (v k : Nat) : (d.p b F v k).sasRuns = d.sasRuns := rfl
@[simp] theorem Dev.p_csrPosts (d : Dev) (b : Nat) (F : Fld) (v k : Nat) : (d.p b F v k).csrPosts = d.csrPosts := rfl
@[simp] theorem Dev.p_cores (d : Dev) (b : Nat) (F : Fld) (v k : Nat) : (d.p b F v k).cores = d.cores := rfl
@[simp] theorem Dev.p_tcaches (d : Dev) (b : Nat) (F : Fld) (v k : Nat) : (d.p b F v k).tcaches = d.tcaches := rfl
@[simp] theorem Dev.p_syncPending (d : Dev) (b : Nat) (F : Fld) (v k : Nat) : (d.p b F v k).syncPending = d.syncPending :=
    rfl
@[simp] theorem Dev.p_watchers (d : Dev) (b : Nat) (F : Fld) (v k : Nat) : (d.p b F v k).watchers = d.watchers := rfl
@[simp] theorem Dev.p_mbxSlots (d : Dev) (b : Nat) (F : Fld) (v k : Nat) : (d.p b F v k).mbxSlots = d.mbxSlots := rfl
@[simp] theorem Dev.p_engines (d : Dev) (b : Nat) (F : Fld) (v k : Nat) : (d.p b F v k).engines = d.engines := rfl
@[simp] theorem Dev.p_ports (d : Dev) (b : Nat) (F : Fld) (v k : Nat) : (d.p b F v k).ports = d.ports := rfl
@[simp] theorem Dev.p_remoteOps (d : Dev) (b : Nat) (F : Fld) (v k : Nat) : (d.p b F v k).remoteOps = d.remoteOps :=
    rfl
@[simp] theorem Dev.p_linkOut (d : Dev) (b : Nat) (F : Fld) (v k : Nat) : (d.p b F v k).linkOut = d.linkOut := rfl
@[simp] theorem Dev.p_identOut (d : Dev) (b : Nat) (F : Fld) (v k : Nat) : (d.p b F v k).identOut = d.identOut := rfl
@[simp] theorem Dev.p_unsent (d : Dev) (b : Nat) (F : Fld) (v k : Nat) : (d.p b F v k).unsent = d.unsent := rfl
@[simp] theorem Dev.p_jobsLost (d : Dev) (b : Nat) (F : Fld) (v k : Nat) : (d.p b F v k).jobsLost = d.jobsLost := rfl
@[simp] theorem Dev.p_nonceCtr (d : Dev) (b : Nat) (F : Fld) (v k : Nat) : (d.p b F v k).nonceCtr = d.nonceCtr := rfl
@[simp] theorem Dev.p_replays (d : Dev) (b : Nat) (F : Fld) (v k : Nat) : (d.p b F v k).replays = d.replays := rfl
@[simp] theorem Dev.p_colls (d : Dev) (b : Nat) (F : Fld) (v k : Nat) : (d.p b F v k).colls = d.colls := rfl
@[simp] theorem Dev.p_collTx (d : Dev) (b : Nat) (F : Fld) (v k : Nat) : (d.p b F v k).collTx = d.collTx := rfl
@[simp] theorem Dev.p_collRx (d : Dev) (b : Nat) (F : Fld) (v k : Nat) : (d.p b F v k).collRx = d.collRx := rfl
@[simp] theorem Dev.p_collAborts (d : Dev) (b : Nat) (F : Fld) (v k : Nat) : (d.p b F v k).collAborts = d.collAborts :=
    rfl
@[simp] theorem Dev.p_collDone (d : Dev) (b : Nat) (F : Fld) (v k : Nat) : (d.p b F v k).collDone = d.collDone := rfl
@[simp] theorem Dev.p_linkMap (d : Dev) (b : Nat) (F : Fld) (v k : Nat) : (d.p b F v k).linkMap = d.linkMap := rfl
@[simp] theorem Dev.p_pkgId (d : Dev) (b : Nat) (F : Fld) (v k : Nat) : (d.p b F v k).pkgId = d.pkgId := rfl
@[simp] theorem Dev.p_jobKeys (d : Dev) (b : Nat) (F : Fld) (v k : Nat) : (d.p b F v k).jobKeys = d.jobKeys := rfl
@[simp] theorem Dev.p_cpPoison (d : Dev) (b : Nat) (F : Fld) (v k : Nat) : (d.p b F v k).cpPoison = d.cpPoison := rfl
@[simp] theorem Dev.p_stReq (d : Dev) (b : Nat) (F : Fld) (v k : Nat) : (d.p b F v k).stReq = d.stReq := rfl
@[simp] theorem Dev.p_issueSeq (d : Dev) (b : Nat) (F : Fld) (v k : Nat) : (d.p b F v k).issueSeq = d.issueSeq := rfl
@[simp] theorem Dev.p_grids (d : Dev) (b : Nat) (F : Fld) (v k : Nat) : (d.p b F v k).grids = d.grids := rfl
@[simp] theorem Dev.p_gridRead (d : Dev) (b : Nat) (F : Fld) (v k : Nat) : (d.p b F v k).gridRead = d.gridRead := rfl
@[simp] theorem Dev.p_mor (d : Dev) (b : Nat) (F : Fld) (v k : Nat) : (d.p b F v k).mor = d.mor := rfl
@[simp] theorem Dev.p_unitRest (d : Dev) (b : Nat) (F : Fld) (v k : Nat) : (d.p b F v k).unitRest = d.unitRest := rfl
@[simp] theorem Dev.p_rime (d : Dev) (b : Nat) (F : Fld) (v k : Nat) : (d.p b F v k).rime = d.rime := rfl
@[simp] theorem Dev.p_flash (d : Dev) (b : Nat) (F : Fld) (v k : Nat) : (d.p b F v k).flash = d.flash := rfl
@[simp] theorem Dev.p_sec (d : Dev) (b : Nat) (F : Fld) (v k : Nat) : (d.p b F v k).sec = d.sec := rfl
@[simp] theorem Dev.p_keyDraws (d : Dev) (b : Nat) (F : Fld) (v k : Nat) : (d.p b F v k).keyDraws = d.keyDraws := rfl
@[simp] theorem Dev.p_pers (d : Dev) (b : Nat) (F : Fld) (v k : Nat) : (d.p b F v k).pers = d.pers := rfl
@[simp] theorem Dev.p_secCmd (d : Dev) (b : Nat) (F : Fld) (v k : Nat) : (d.p b F v k).secCmd = d.secCmd := rfl
@[simp] theorem Dev.p_pcc (d : Dev) (b : Nat) (F : Fld) (v k : Nat) : (d.p b F v k).pcc = d.pcc := rfl
@[simp] theorem Dev.p_chans (d : Dev) (b : Nat) (F : Fld) (v k : Nat) : (d.p b F v k).chans = d.chans := rfl
@[simp] theorem Dev.p_hq (d : Dev) (b : Nat) (F : Fld) (v k : Nat) : (d.p b F v k).hq = d.hq := rfl
@[simp] theorem Dev.p_hqIds (d : Dev) (b : Nat) (F : Fld) (v k : Nat) : (d.p b F v k).hqIds = d.hqIds := rfl
@[simp] theorem Dev.p_dict (d : Dev) (b : Nat) (F : Fld) (v k : Nat) : (d.p b F v k).dict = d.dict := rfl

/-! ### `Dev.dinc` -/

@[simp] theorem Dev.dinc_regs (d : Dev) (i j n : Nat) : (d.dinc i j n).regs = d.regs := rfl
@[simp] theorem Dev.dinc_ram (d : Dev) (i j n : Nat) : (d.dinc i j n).ram = d.ram := rfl
@[simp] theorem Dev.dinc_ramErr (d : Dev) (i j n : Nat) : (d.dinc i j n).ramErr = d.ramErr := rfl
@[simp] theorem Dev.dinc_dram (d : Dev) (i j n : Nat) : (d.dinc i j n).dram = d.dram := rfl
@[simp] theorem Dev.dinc_vaults (d : Dev) (i j n : Nat) : (d.dinc i j n).vaults = d.vaults := rfl
@[simp] theorem Dev.dinc_ctxKey (d : Dev) (i j n : Nat) : (d.dinc i j n).ctxKey = d.ctxKey := rfl
@[simp] theorem Dev.dinc_heldReq (d : Dev) (i j n : Nat) : (d.dinc i j n).heldReq = d.heldReq := rfl
@[simp] theorem Dev.dinc_varve (d : Dev) (i j n : Nat) : (d.dinc i j n).varve = d.varve := rfl
@[simp] theorem Dev.dinc_varveFrac (d : Dev) (i j n : Nat) : (d.dinc i j n).varveFrac = d.varveFrac := rfl
@[simp] theorem Dev.dinc_fabCycle (d : Dev) (i j n : Nat) : (d.dinc i j n).fabCycle = d.fabCycle := rfl
@[simp] theorem Dev.dinc_serial (d : Dev) (i j n : Nat) : (d.dinc i j n).serial = d.serial := rfl
@[simp] theorem Dev.dinc_evq (d : Dev) (i j n : Nat) : (d.dinc i j n).evq = d.evq := rfl
@[simp] theorem Dev.dinc_evSeq (d : Dev) (i j n : Nat) : (d.dinc i j n).evSeq = d.evSeq := rfl
@[simp] theorem Dev.dinc_evLost (d : Dev) (i j n : Nat) : (d.dinc i j n).evLost = d.evLost := rfl
@[simp] theorem Dev.dinc_evLog (d : Dev) (i j n : Nat) : (d.dinc i j n).evLog = d.evLog := rfl
@[simp] theorem Dev.dinc_evLim (d : Dev) (i j n : Nat) : (d.dinc i j n).evLim = d.evLim := rfl
@[simp] theorem Dev.dinc_ringLost (d : Dev) (i j n : Nat) : (d.dinc i j n).ringLost = d.ringLost := rfl
@[simp] theorem Dev.dinc_fence (d : Dev) (i j n : Nat) : (d.dinc i j n).fence = d.fence := rfl
@[simp] theorem Dev.dinc_resp (d : Dev) (i j n : Nat) : (d.dinc i j n).resp = d.resp := rfl
@[simp] theorem Dev.dinc_tags (d : Dev) (i j n : Nat) : (d.dinc i j n).tags = d.tags := rfl
@[simp] theorem Dev.dinc_stalled (d : Dev) (i j n : Nat) : (d.dinc i j n).stalled = d.stalled := rfl
@[simp] theorem Dev.dinc_blocked (d : Dev) (i j n : Nat) : (d.dinc i j n).blocked = d.blocked := rfl
@[simp] theorem Dev.dinc_sasRuns (d : Dev) (i j n : Nat) : (d.dinc i j n).sasRuns = d.sasRuns := rfl
@[simp] theorem Dev.dinc_csrPosts (d : Dev) (i j n : Nat) : (d.dinc i j n).csrPosts = d.csrPosts := rfl
@[simp] theorem Dev.dinc_cores (d : Dev) (i j n : Nat) : (d.dinc i j n).cores = d.cores := rfl
@[simp] theorem Dev.dinc_tcaches (d : Dev) (i j n : Nat) : (d.dinc i j n).tcaches = d.tcaches := rfl
@[simp] theorem Dev.dinc_syncPending (d : Dev) (i j n : Nat) : (d.dinc i j n).syncPending = d.syncPending := rfl
@[simp] theorem Dev.dinc_watchers (d : Dev) (i j n : Nat) : (d.dinc i j n).watchers = d.watchers := rfl
@[simp] theorem Dev.dinc_mbxSlots (d : Dev) (i j n : Nat) : (d.dinc i j n).mbxSlots = d.mbxSlots := rfl
@[simp] theorem Dev.dinc_engines (d : Dev) (i j n : Nat) : (d.dinc i j n).engines = d.engines := rfl
@[simp] theorem Dev.dinc_ports (d : Dev) (i j n : Nat) : (d.dinc i j n).ports = d.ports := rfl
@[simp] theorem Dev.dinc_remoteOps (d : Dev) (i j n : Nat) : (d.dinc i j n).remoteOps = d.remoteOps := rfl
@[simp] theorem Dev.dinc_linkOut (d : Dev) (i j n : Nat) : (d.dinc i j n).linkOut = d.linkOut := rfl
@[simp] theorem Dev.dinc_identOut (d : Dev) (i j n : Nat) : (d.dinc i j n).identOut = d.identOut := rfl
@[simp] theorem Dev.dinc_unsent (d : Dev) (i j n : Nat) : (d.dinc i j n).unsent = d.unsent := rfl
@[simp] theorem Dev.dinc_jobsLost (d : Dev) (i j n : Nat) : (d.dinc i j n).jobsLost = d.jobsLost := rfl
@[simp] theorem Dev.dinc_nonceCtr (d : Dev) (i j n : Nat) : (d.dinc i j n).nonceCtr = d.nonceCtr := rfl
@[simp] theorem Dev.dinc_replays (d : Dev) (i j n : Nat) : (d.dinc i j n).replays = d.replays := rfl
@[simp] theorem Dev.dinc_colls (d : Dev) (i j n : Nat) : (d.dinc i j n).colls = d.colls := rfl
@[simp] theorem Dev.dinc_collTx (d : Dev) (i j n : Nat) : (d.dinc i j n).collTx = d.collTx := rfl
@[simp] theorem Dev.dinc_collRx (d : Dev) (i j n : Nat) : (d.dinc i j n).collRx = d.collRx := rfl
@[simp] theorem Dev.dinc_collAborts (d : Dev) (i j n : Nat) : (d.dinc i j n).collAborts = d.collAborts := rfl
@[simp] theorem Dev.dinc_collDone (d : Dev) (i j n : Nat) : (d.dinc i j n).collDone = d.collDone := rfl
@[simp] theorem Dev.dinc_linkMap (d : Dev) (i j n : Nat) : (d.dinc i j n).linkMap = d.linkMap := rfl
@[simp] theorem Dev.dinc_pkgId (d : Dev) (i j n : Nat) : (d.dinc i j n).pkgId = d.pkgId := rfl
@[simp] theorem Dev.dinc_jobKeys (d : Dev) (i j n : Nat) : (d.dinc i j n).jobKeys = d.jobKeys := rfl
@[simp] theorem Dev.dinc_cpPoison (d : Dev) (i j n : Nat) : (d.dinc i j n).cpPoison = d.cpPoison := rfl
@[simp] theorem Dev.dinc_stReq (d : Dev) (i j n : Nat) : (d.dinc i j n).stReq = d.stReq := rfl
@[simp] theorem Dev.dinc_issueSeq (d : Dev) (i j n : Nat) : (d.dinc i j n).issueSeq = d.issueSeq := rfl
@[simp] theorem Dev.dinc_grids (d : Dev) (i j n : Nat) : (d.dinc i j n).grids = d.grids := rfl
@[simp] theorem Dev.dinc_gridRead (d : Dev) (i j n : Nat) : (d.dinc i j n).gridRead = d.gridRead := rfl
@[simp] theorem Dev.dinc_mor (d : Dev) (i j n : Nat) : (d.dinc i j n).mor = d.mor := rfl
@[simp] theorem Dev.dinc_unitRest (d : Dev) (i j n : Nat) : (d.dinc i j n).unitRest = d.unitRest := rfl
@[simp] theorem Dev.dinc_rime (d : Dev) (i j n : Nat) : (d.dinc i j n).rime = d.rime := rfl
@[simp] theorem Dev.dinc_flash (d : Dev) (i j n : Nat) : (d.dinc i j n).flash = d.flash := rfl
@[simp] theorem Dev.dinc_sec (d : Dev) (i j n : Nat) : (d.dinc i j n).sec = d.sec := rfl
@[simp] theorem Dev.dinc_keyDraws (d : Dev) (i j n : Nat) : (d.dinc i j n).keyDraws = d.keyDraws := rfl
@[simp] theorem Dev.dinc_pers (d : Dev) (i j n : Nat) : (d.dinc i j n).pers = d.pers := rfl
@[simp] theorem Dev.dinc_secCmd (d : Dev) (i j n : Nat) : (d.dinc i j n).secCmd = d.secCmd := rfl
@[simp] theorem Dev.dinc_pcc (d : Dev) (i j n : Nat) : (d.dinc i j n).pcc = d.pcc := rfl
@[simp] theorem Dev.dinc_chans (d : Dev) (i j n : Nat) : (d.dinc i j n).chans = d.chans := rfl
@[simp] theorem Dev.dinc_hq (d : Dev) (i j n : Nat) : (d.dinc i j n).hq = d.hq := rfl
@[simp] theorem Dev.dinc_hqIds (d : Dev) (i j n : Nat) : (d.dinc i j n).hqIds = d.hqIds := rfl
@[simp] theorem Dev.dinc_dict (d : Dev) (i j n : Nat) : (d.dinc i j n).dict = d.dict := rfl

/-! ### `Dev.raise` -/

@[simp] theorem Dev.raise_regs (d : Dev) (e : Ev) : (d.raise e).regs = d.regs := by
  unfold Dev.raise; split <;> rfl
@[simp] theorem Dev.raise_ram (d : Dev) (e : Ev) : (d.raise e).ram = d.ram := by
  unfold Dev.raise; split <;> rfl
@[simp] theorem Dev.raise_ramErr (d : Dev) (e : Ev) : (d.raise e).ramErr = d.ramErr := by
  unfold Dev.raise; split <;> rfl
@[simp] theorem Dev.raise_dram (d : Dev) (e : Ev) : (d.raise e).dram = d.dram := by
  unfold Dev.raise; split <;> rfl
@[simp] theorem Dev.raise_vaults (d : Dev) (e : Ev) : (d.raise e).vaults = d.vaults := by
  unfold Dev.raise; split <;> rfl
@[simp] theorem Dev.raise_ctxKey (d : Dev) (e : Ev) : (d.raise e).ctxKey = d.ctxKey := by
  unfold Dev.raise; split <;> rfl
@[simp] theorem Dev.raise_heldReq (d : Dev) (e : Ev) : (d.raise e).heldReq = d.heldReq := by
  unfold Dev.raise; split <;> rfl
@[simp] theorem Dev.raise_varve (d : Dev) (e : Ev) : (d.raise e).varve = d.varve := by
  unfold Dev.raise; split <;> rfl
@[simp] theorem Dev.raise_varveFrac (d : Dev) (e : Ev) : (d.raise e).varveFrac = d.varveFrac := by
  unfold Dev.raise; split <;> rfl
@[simp] theorem Dev.raise_fabCycle (d : Dev) (e : Ev) : (d.raise e).fabCycle = d.fabCycle := by
  unfold Dev.raise; split <;> rfl
@[simp] theorem Dev.raise_serial (d : Dev) (e : Ev) : (d.raise e).serial = d.serial := by
  unfold Dev.raise; split <;> rfl
@[simp] theorem Dev.raise_evLog (d : Dev) (e : Ev) : (d.raise e).evLog = d.evLog := by
  unfold Dev.raise; split <;> rfl
@[simp] theorem Dev.raise_evLim (d : Dev) (e : Ev) : (d.raise e).evLim = d.evLim := by
  unfold Dev.raise; split <;> rfl
@[simp] theorem Dev.raise_ringLost (d : Dev) (e : Ev) : (d.raise e).ringLost = d.ringLost := by
  unfold Dev.raise; split <;> rfl
@[simp] theorem Dev.raise_fence (d : Dev) (e : Ev) : (d.raise e).fence = d.fence := by
  unfold Dev.raise; split <;> rfl
@[simp] theorem Dev.raise_resp (d : Dev) (e : Ev) : (d.raise e).resp = d.resp := by
  unfold Dev.raise; split <;> rfl
@[simp] theorem Dev.raise_tags (d : Dev) (e : Ev) : (d.raise e).tags = d.tags := by
  unfold Dev.raise; split <;> rfl
@[simp] theorem Dev.raise_stalled (d : Dev) (e : Ev) : (d.raise e).stalled = d.stalled := by
  unfold Dev.raise; split <;> rfl
@[simp] theorem Dev.raise_blocked (d : Dev) (e : Ev) : (d.raise e).blocked = d.blocked := by
  unfold Dev.raise; split <;> rfl
@[simp] theorem Dev.raise_sasRuns (d : Dev) (e : Ev) : (d.raise e).sasRuns = d.sasRuns := by
  unfold Dev.raise; split <;> rfl
@[simp] theorem Dev.raise_csrPosts (d : Dev) (e : Ev) : (d.raise e).csrPosts = d.csrPosts := by
  unfold Dev.raise; split <;> rfl
@[simp] theorem Dev.raise_cores (d : Dev) (e : Ev) : (d.raise e).cores = d.cores := by
  unfold Dev.raise; split <;> rfl
@[simp] theorem Dev.raise_tcaches (d : Dev) (e : Ev) : (d.raise e).tcaches = d.tcaches := by
  unfold Dev.raise; split <;> rfl
@[simp] theorem Dev.raise_syncPending (d : Dev) (e : Ev) : (d.raise e).syncPending = d.syncPending := by
  unfold Dev.raise; split <;> rfl
@[simp] theorem Dev.raise_watchers (d : Dev) (e : Ev) : (d.raise e).watchers = d.watchers := by
  unfold Dev.raise; split <;> rfl
@[simp] theorem Dev.raise_mbxSlots (d : Dev) (e : Ev) : (d.raise e).mbxSlots = d.mbxSlots := by
  unfold Dev.raise; split <;> rfl
@[simp] theorem Dev.raise_engines (d : Dev) (e : Ev) : (d.raise e).engines = d.engines := by
  unfold Dev.raise; split <;> rfl
@[simp] theorem Dev.raise_ports (d : Dev) (e : Ev) : (d.raise e).ports = d.ports := by
  unfold Dev.raise; split <;> rfl
@[simp] theorem Dev.raise_remoteOps (d : Dev) (e : Ev) : (d.raise e).remoteOps = d.remoteOps := by
  unfold Dev.raise; split <;> rfl
@[simp] theorem Dev.raise_linkOut (d : Dev) (e : Ev) : (d.raise e).linkOut = d.linkOut := by
  unfold Dev.raise; split <;> rfl
@[simp] theorem Dev.raise_identOut (d : Dev) (e : Ev) : (d.raise e).identOut = d.identOut := by
  unfold Dev.raise; split <;> rfl
@[simp] theorem Dev.raise_unsent (d : Dev) (e : Ev) : (d.raise e).unsent = d.unsent := by
  unfold Dev.raise; split <;> rfl
@[simp] theorem Dev.raise_jobsLost (d : Dev) (e : Ev) : (d.raise e).jobsLost = d.jobsLost := by
  unfold Dev.raise; split <;> rfl
@[simp] theorem Dev.raise_nonceCtr (d : Dev) (e : Ev) : (d.raise e).nonceCtr = d.nonceCtr := by
  unfold Dev.raise; split <;> rfl
@[simp] theorem Dev.raise_replays (d : Dev) (e : Ev) : (d.raise e).replays = d.replays := by
  unfold Dev.raise; split <;> rfl
@[simp] theorem Dev.raise_colls (d : Dev) (e : Ev) : (d.raise e).colls = d.colls := by
  unfold Dev.raise; split <;> rfl
@[simp] theorem Dev.raise_collTx (d : Dev) (e : Ev) : (d.raise e).collTx = d.collTx := by
  unfold Dev.raise; split <;> rfl
@[simp] theorem Dev.raise_collRx (d : Dev) (e : Ev) : (d.raise e).collRx = d.collRx := by
  unfold Dev.raise; split <;> rfl
@[simp] theorem Dev.raise_collAborts (d : Dev) (e : Ev) : (d.raise e).collAborts = d.collAborts := by
  unfold Dev.raise; split <;> rfl
@[simp] theorem Dev.raise_collDone (d : Dev) (e : Ev) : (d.raise e).collDone = d.collDone := by
  unfold Dev.raise; split <;> rfl
@[simp] theorem Dev.raise_linkMap (d : Dev) (e : Ev) : (d.raise e).linkMap = d.linkMap := by
  unfold Dev.raise; split <;> rfl
@[simp] theorem Dev.raise_pkgId (d : Dev) (e : Ev) : (d.raise e).pkgId = d.pkgId := by
  unfold Dev.raise; split <;> rfl
@[simp] theorem Dev.raise_jobKeys (d : Dev) (e : Ev) : (d.raise e).jobKeys = d.jobKeys := by
  unfold Dev.raise; split <;> rfl
@[simp] theorem Dev.raise_cpPoison (d : Dev) (e : Ev) : (d.raise e).cpPoison = d.cpPoison := by
  unfold Dev.raise; split <;> rfl
@[simp] theorem Dev.raise_stReq (d : Dev) (e : Ev) : (d.raise e).stReq = d.stReq := by
  unfold Dev.raise; split <;> rfl
@[simp] theorem Dev.raise_issueSeq (d : Dev) (e : Ev) : (d.raise e).issueSeq = d.issueSeq := by
  unfold Dev.raise; split <;> rfl
@[simp] theorem Dev.raise_grids (d : Dev) (e : Ev) : (d.raise e).grids = d.grids := by
  unfold Dev.raise; split <;> rfl
@[simp] theorem Dev.raise_gridRead (d : Dev) (e : Ev) : (d.raise e).gridRead = d.gridRead := by
  unfold Dev.raise; split <;> rfl
@[simp] theorem Dev.raise_mor (d : Dev) (e : Ev) : (d.raise e).mor = d.mor := by
  unfold Dev.raise; split <;> rfl
@[simp] theorem Dev.raise_unitRest (d : Dev) (e : Ev) : (d.raise e).unitRest = d.unitRest := by
  unfold Dev.raise; split <;> rfl
@[simp] theorem Dev.raise_rime (d : Dev) (e : Ev) : (d.raise e).rime = d.rime := by
  unfold Dev.raise; split <;> rfl
@[simp] theorem Dev.raise_flash (d : Dev) (e : Ev) : (d.raise e).flash = d.flash := by
  unfold Dev.raise; split <;> rfl
@[simp] theorem Dev.raise_sec (d : Dev) (e : Ev) : (d.raise e).sec = d.sec := by
  unfold Dev.raise; split <;> rfl
@[simp] theorem Dev.raise_keyDraws (d : Dev) (e : Ev) : (d.raise e).keyDraws = d.keyDraws := by
  unfold Dev.raise; split <;> rfl
@[simp] theorem Dev.raise_pers (d : Dev) (e : Ev) : (d.raise e).pers = d.pers := by
  unfold Dev.raise; split <;> rfl
@[simp] theorem Dev.raise_secCmd (d : Dev) (e : Ev) : (d.raise e).secCmd = d.secCmd := by
  unfold Dev.raise; split <;> rfl
@[simp] theorem Dev.raise_pcc (d : Dev) (e : Ev) : (d.raise e).pcc = d.pcc := by
  unfold Dev.raise; split <;> rfl
@[simp] theorem Dev.raise_chans (d : Dev) (e : Ev) : (d.raise e).chans = d.chans := by
  unfold Dev.raise; split <;> rfl
@[simp] theorem Dev.raise_hq (d : Dev) (e : Ev) : (d.raise e).hq = d.hq := by
  unfold Dev.raise; split <;> rfl
@[simp] theorem Dev.raise_hqIds (d : Dev) (e : Ev) : (d.raise e).hqIds = d.hqIds := by
  unfold Dev.raise; split <;> rfl
@[simp] theorem Dev.raise_dict (d : Dev) (e : Ev) : (d.raise e).dict = d.dict := by
  unfold Dev.raise; split <;> rfl

/-! ### `Dev.eventLim` -/

@[simp] theorem Dev.eventLim_regs (d : Dev) (c i s : Nat) (t : Bytes) (x : Nat) (w : Bool) : (d.eventLim c i s t x w).regs = d.regs := by
  unfold Dev.eventLim; dsimp only; split <;> (try split) <;> simp
@[simp] theorem Dev.eventLim_ram (d : Dev) (c i s : Nat) (t : Bytes) (x : Nat) (w : Bool) : (d.eventLim c i s t x w).ram = d.ram := by
  unfold Dev.eventLim; dsimp only; split <;> (try split) <;> simp
@[simp] theorem Dev.eventLim_ramErr (d : Dev) (c i s : Nat) (t : Bytes) (x : Nat) (w : Bool) : (d.eventLim c i s t x w).ramErr = d.ramErr := by
  unfold Dev.eventLim; dsimp only; split <;> (try split) <;> simp
@[simp] theorem Dev.eventLim_dram (d : Dev) (c i s : Nat) (t : Bytes) (x : Nat) (w : Bool) : (d.eventLim c i s t x w).dram = d.dram := by
  unfold Dev.eventLim; dsimp only; split <;> (try split) <;> simp
@[simp] theorem Dev.eventLim_vaults (d : Dev) (c i s : Nat) (t : Bytes) (x : Nat) (w : Bool) : (d.eventLim c i s t x w).vaults = d.vaults := by
  unfold Dev.eventLim; dsimp only; split <;> (try split) <;> simp
@[simp] theorem Dev.eventLim_ctxKey (d : Dev) (c i s : Nat) (t : Bytes) (x : Nat) (w : Bool) : (d.eventLim c i s t x w).ctxKey = d.ctxKey := by
  unfold Dev.eventLim; dsimp only; split <;> (try split) <;> simp
@[simp] theorem Dev.eventLim_heldReq (d : Dev) (c i s : Nat) (t : Bytes) (x : Nat) (w : Bool) : (d.eventLim c i s t x w).heldReq = d.heldReq := by
  unfold Dev.eventLim; dsimp only; split <;> (try split) <;> simp
@[simp] theorem Dev.eventLim_varve (d : Dev) (c i s : Nat) (t : Bytes) (x : Nat) (w : Bool) : (d.eventLim c i s t x w).varve = d.varve := by
  unfold Dev.eventLim; dsimp only; split <;> (try split) <;> simp
@[simp] theorem Dev.eventLim_varveFrac (d : Dev) (c i s : Nat) (t : Bytes) (x : Nat) (w : Bool) : (d.eventLim c i s t x w).varveFrac = d.varveFrac := by
  unfold Dev.eventLim; dsimp only; split <;> (try split) <;> simp
@[simp] theorem Dev.eventLim_fabCycle (d : Dev) (c i s : Nat) (t : Bytes) (x : Nat) (w : Bool) : (d.eventLim c i s t x w).fabCycle = d.fabCycle := by
  unfold Dev.eventLim; dsimp only; split <;> (try split) <;> simp
@[simp] theorem Dev.eventLim_serial (d : Dev) (c i s : Nat) (t : Bytes) (x : Nat) (w : Bool) : (d.eventLim c i s t x w).serial = d.serial := by
  unfold Dev.eventLim; dsimp only; split <;> (try split) <;> simp
@[simp] theorem Dev.eventLim_evLog (d : Dev) (c i s : Nat) (t : Bytes) (x : Nat) (w : Bool) : (d.eventLim c i s t x w).evLog = d.evLog := by
  unfold Dev.eventLim; dsimp only; split <;> (try split) <;> simp
@[simp] theorem Dev.eventLim_ringLost (d : Dev) (c i s : Nat) (t : Bytes) (x : Nat) (w : Bool) : (d.eventLim c i s t x w).ringLost = d.ringLost := by
  unfold Dev.eventLim; dsimp only; split <;> (try split) <;> simp
@[simp] theorem Dev.eventLim_fence (d : Dev) (c i s : Nat) (t : Bytes) (x : Nat) (w : Bool) : (d.eventLim c i s t x w).fence = d.fence := by
  unfold Dev.eventLim; dsimp only; split <;> (try split) <;> simp
@[simp] theorem Dev.eventLim_resp (d : Dev) (c i s : Nat) (t : Bytes) (x : Nat) (w : Bool) : (d.eventLim c i s t x w).resp = d.resp := by
  unfold Dev.eventLim; dsimp only; split <;> (try split) <;> simp
@[simp] theorem Dev.eventLim_tags (d : Dev) (c i s : Nat) (t : Bytes) (x : Nat) (w : Bool) : (d.eventLim c i s t x w).tags = d.tags := by
  unfold Dev.eventLim; dsimp only; split <;> (try split) <;> simp
@[simp] theorem Dev.eventLim_stalled (d : Dev) (c i s : Nat) (t : Bytes) (x : Nat) (w : Bool) : (d.eventLim c i s t x w).stalled = d.stalled := by
  unfold Dev.eventLim; dsimp only; split <;> (try split) <;> simp
@[simp] theorem Dev.eventLim_blocked (d : Dev) (c i s : Nat) (t : Bytes) (x : Nat) (w : Bool) : (d.eventLim c i s t x w).blocked = d.blocked := by
  unfold Dev.eventLim; dsimp only; split <;> (try split) <;> simp
@[simp] theorem Dev.eventLim_sasRuns (d : Dev) (c i s : Nat) (t : Bytes) (x : Nat) (w : Bool) : (d.eventLim c i s t x w).sasRuns = d.sasRuns := by
  unfold Dev.eventLim; dsimp only; split <;> (try split) <;> simp
@[simp] theorem Dev.eventLim_csrPosts (d : Dev) (c i s : Nat) (t : Bytes) (x : Nat) (w : Bool) : (d.eventLim c i s t x w).csrPosts = d.csrPosts := by
  unfold Dev.eventLim; dsimp only; split <;> (try split) <;> simp
@[simp] theorem Dev.eventLim_cores (d : Dev) (c i s : Nat) (t : Bytes) (x : Nat) (w : Bool) : (d.eventLim c i s t x w).cores = d.cores := by
  unfold Dev.eventLim; dsimp only; split <;> (try split) <;> simp
@[simp] theorem Dev.eventLim_tcaches (d : Dev) (c i s : Nat) (t : Bytes) (x : Nat) (w : Bool) : (d.eventLim c i s t x w).tcaches = d.tcaches := by
  unfold Dev.eventLim; dsimp only; split <;> (try split) <;> simp
@[simp] theorem Dev.eventLim_syncPending (d : Dev) (c i s : Nat) (t : Bytes) (x : Nat) (w : Bool) : (d.eventLim c i s t x w).syncPending = d.syncPending := by
  unfold Dev.eventLim; dsimp only; split <;> (try split) <;> simp
@[simp] theorem Dev.eventLim_watchers (d : Dev) (c i s : Nat) (t : Bytes) (x : Nat) (w : Bool) : (d.eventLim c i s t x w).watchers = d.watchers := by
  unfold Dev.eventLim; dsimp only; split <;> (try split) <;> simp
@[simp] theorem Dev.eventLim_mbxSlots (d : Dev) (c i s : Nat) (t : Bytes) (x : Nat) (w : Bool) : (d.eventLim c i s t x w).mbxSlots = d.mbxSlots := by
  unfold Dev.eventLim; dsimp only; split <;> (try split) <;> simp
@[simp] theorem Dev.eventLim_engines (d : Dev) (c i s : Nat) (t : Bytes) (x : Nat) (w : Bool) : (d.eventLim c i s t x w).engines = d.engines := by
  unfold Dev.eventLim; dsimp only; split <;> (try split) <;> simp
@[simp] theorem Dev.eventLim_ports (d : Dev) (c i s : Nat) (t : Bytes) (x : Nat) (w : Bool) : (d.eventLim c i s t x w).ports = d.ports := by
  unfold Dev.eventLim; dsimp only; split <;> (try split) <;> simp
@[simp] theorem Dev.eventLim_remoteOps (d : Dev) (c i s : Nat) (t : Bytes) (x : Nat) (w : Bool) : (d.eventLim c i s t x w).remoteOps = d.remoteOps := by
  unfold Dev.eventLim; dsimp only; split <;> (try split) <;> simp
@[simp] theorem Dev.eventLim_linkOut (d : Dev) (c i s : Nat) (t : Bytes) (x : Nat) (w : Bool) : (d.eventLim c i s t x w).linkOut = d.linkOut := by
  unfold Dev.eventLim; dsimp only; split <;> (try split) <;> simp
@[simp] theorem Dev.eventLim_identOut (d : Dev) (c i s : Nat) (t : Bytes) (x : Nat) (w : Bool) : (d.eventLim c i s t x w).identOut = d.identOut := by
  unfold Dev.eventLim; dsimp only; split <;> (try split) <;> simp
@[simp] theorem Dev.eventLim_unsent (d : Dev) (c i s : Nat) (t : Bytes) (x : Nat) (w : Bool) : (d.eventLim c i s t x w).unsent = d.unsent := by
  unfold Dev.eventLim; dsimp only; split <;> (try split) <;> simp
@[simp] theorem Dev.eventLim_jobsLost (d : Dev) (c i s : Nat) (t : Bytes) (x : Nat) (w : Bool) : (d.eventLim c i s t x w).jobsLost = d.jobsLost := by
  unfold Dev.eventLim; dsimp only; split <;> (try split) <;> simp
@[simp] theorem Dev.eventLim_nonceCtr (d : Dev) (c i s : Nat) (t : Bytes) (x : Nat) (w : Bool) : (d.eventLim c i s t x w).nonceCtr = d.nonceCtr := by
  unfold Dev.eventLim; dsimp only; split <;> (try split) <;> simp
@[simp] theorem Dev.eventLim_replays (d : Dev) (c i s : Nat) (t : Bytes) (x : Nat) (w : Bool) : (d.eventLim c i s t x w).replays = d.replays := by
  unfold Dev.eventLim; dsimp only; split <;> (try split) <;> simp
@[simp] theorem Dev.eventLim_colls (d : Dev) (c i s : Nat) (t : Bytes) (x : Nat) (w : Bool) : (d.eventLim c i s t x w).colls = d.colls := by
  unfold Dev.eventLim; dsimp only; split <;> (try split) <;> simp
@[simp] theorem Dev.eventLim_collTx (d : Dev) (c i s : Nat) (t : Bytes) (x : Nat) (w : Bool) : (d.eventLim c i s t x w).collTx = d.collTx := by
  unfold Dev.eventLim; dsimp only; split <;> (try split) <;> simp
@[simp] theorem Dev.eventLim_collRx (d : Dev) (c i s : Nat) (t : Bytes) (x : Nat) (w : Bool) : (d.eventLim c i s t x w).collRx = d.collRx := by
  unfold Dev.eventLim; dsimp only; split <;> (try split) <;> simp
@[simp] theorem Dev.eventLim_collAborts (d : Dev) (c i s : Nat) (t : Bytes) (x : Nat) (w : Bool) : (d.eventLim c i s t x w).collAborts = d.collAborts := by
  unfold Dev.eventLim; dsimp only; split <;> (try split) <;> simp
@[simp] theorem Dev.eventLim_collDone (d : Dev) (c i s : Nat) (t : Bytes) (x : Nat) (w : Bool) : (d.eventLim c i s t x w).collDone = d.collDone := by
  unfold Dev.eventLim; dsimp only; split <;> (try split) <;> simp
@[simp] theorem Dev.eventLim_linkMap (d : Dev) (c i s : Nat) (t : Bytes) (x : Nat) (w : Bool) : (d.eventLim c i s t x w).linkMap = d.linkMap := by
  unfold Dev.eventLim; dsimp only; split <;> (try split) <;> simp
@[simp] theorem Dev.eventLim_pkgId (d : Dev) (c i s : Nat) (t : Bytes) (x : Nat) (w : Bool) : (d.eventLim c i s t x w).pkgId = d.pkgId := by
  unfold Dev.eventLim; dsimp only; split <;> (try split) <;> simp
@[simp] theorem Dev.eventLim_jobKeys (d : Dev) (c i s : Nat) (t : Bytes) (x : Nat) (w : Bool) : (d.eventLim c i s t x w).jobKeys = d.jobKeys := by
  unfold Dev.eventLim; dsimp only; split <;> (try split) <;> simp
@[simp] theorem Dev.eventLim_cpPoison (d : Dev) (c i s : Nat) (t : Bytes) (x : Nat) (w : Bool) : (d.eventLim c i s t x w).cpPoison = d.cpPoison := by
  unfold Dev.eventLim; dsimp only; split <;> (try split) <;> simp
@[simp] theorem Dev.eventLim_stReq (d : Dev) (c i s : Nat) (t : Bytes) (x : Nat) (w : Bool) : (d.eventLim c i s t x w).stReq = d.stReq := by
  unfold Dev.eventLim; dsimp only; split <;> (try split) <;> simp
@[simp] theorem Dev.eventLim_issueSeq (d : Dev) (c i s : Nat) (t : Bytes) (x : Nat) (w : Bool) : (d.eventLim c i s t x w).issueSeq = d.issueSeq := by
  unfold Dev.eventLim; dsimp only; split <;> (try split) <;> simp
@[simp] theorem Dev.eventLim_grids (d : Dev) (c i s : Nat) (t : Bytes) (x : Nat) (w : Bool) : (d.eventLim c i s t x w).grids = d.grids := by
  unfold Dev.eventLim; dsimp only; split <;> (try split) <;> simp
@[simp] theorem Dev.eventLim_gridRead (d : Dev) (c i s : Nat) (t : Bytes) (x : Nat) (w : Bool) : (d.eventLim c i s t x w).gridRead = d.gridRead := by
  unfold Dev.eventLim; dsimp only; split <;> (try split) <;> simp
@[simp] theorem Dev.eventLim_mor (d : Dev) (c i s : Nat) (t : Bytes) (x : Nat) (w : Bool) : (d.eventLim c i s t x w).mor = d.mor := by
  unfold Dev.eventLim; dsimp only; split <;> (try split) <;> simp
@[simp] theorem Dev.eventLim_unitRest (d : Dev) (c i s : Nat) (t : Bytes) (x : Nat) (w : Bool) : (d.eventLim c i s t x w).unitRest = d.unitRest := by
  unfold Dev.eventLim; dsimp only; split <;> (try split) <;> simp
@[simp] theorem Dev.eventLim_rime (d : Dev) (c i s : Nat) (t : Bytes) (x : Nat) (w : Bool) : (d.eventLim c i s t x w).rime = d.rime := by
  unfold Dev.eventLim; dsimp only; split <;> (try split) <;> simp
@[simp] theorem Dev.eventLim_flash (d : Dev) (c i s : Nat) (t : Bytes) (x : Nat) (w : Bool) : (d.eventLim c i s t x w).flash = d.flash := by
  unfold Dev.eventLim; dsimp only; split <;> (try split) <;> simp
@[simp] theorem Dev.eventLim_sec (d : Dev) (c i s : Nat) (t : Bytes) (x : Nat) (w : Bool) : (d.eventLim c i s t x w).sec = d.sec := by
  unfold Dev.eventLim; dsimp only; split <;> (try split) <;> simp
@[simp] theorem Dev.eventLim_keyDraws (d : Dev) (c i s : Nat) (t : Bytes) (x : Nat) (w : Bool) : (d.eventLim c i s t x w).keyDraws = d.keyDraws := by
  unfold Dev.eventLim; dsimp only; split <;> (try split) <;> simp
@[simp] theorem Dev.eventLim_pers (d : Dev) (c i s : Nat) (t : Bytes) (x : Nat) (w : Bool) : (d.eventLim c i s t x w).pers = d.pers := by
  unfold Dev.eventLim; dsimp only; split <;> (try split) <;> simp
@[simp] theorem Dev.eventLim_secCmd (d : Dev) (c i s : Nat) (t : Bytes) (x : Nat) (w : Bool) : (d.eventLim c i s t x w).secCmd = d.secCmd := by
  unfold Dev.eventLim; dsimp only; split <;> (try split) <;> simp
@[simp] theorem Dev.eventLim_pcc (d : Dev) (c i s : Nat) (t : Bytes) (x : Nat) (w : Bool) : (d.eventLim c i s t x w).pcc = d.pcc := by
  unfold Dev.eventLim; dsimp only; split <;> (try split) <;> simp
@[simp] theorem Dev.eventLim_chans (d : Dev) (c i s : Nat) (t : Bytes) (x : Nat) (w : Bool) : (d.eventLim c i s t x w).chans = d.chans := by
  unfold Dev.eventLim; dsimp only; split <;> (try split) <;> simp
@[simp] theorem Dev.eventLim_hq (d : Dev) (c i s : Nat) (t : Bytes) (x : Nat) (w : Bool) : (d.eventLim c i s t x w).hq = d.hq := by
  unfold Dev.eventLim; dsimp only; split <;> (try split) <;> simp
@[simp] theorem Dev.eventLim_hqIds (d : Dev) (c i s : Nat) (t : Bytes) (x : Nat) (w : Bool) : (d.eventLim c i s t x w).hqIds = d.hqIds := by
  unfold Dev.eventLim; dsimp only; split <;> (try split) <;> simp
@[simp] theorem Dev.eventLim_dict (d : Dev) (c i s : Nat) (t : Bytes) (x : Nat) (w : Bool) : (d.eventLim c i s t x w).dict = d.dict := by
  unfold Dev.eventLim; dsimp only; split <;> (try split) <;> simp

/-! ### `Dev.fresh` -/

@[simp] theorem Dev.fresh_regs (d : Dev) : (d.fresh.2).regs = d.regs := rfl
@[simp] theorem Dev.fresh_ram (d : Dev) : (d.fresh.2).ram = d.ram := rfl
@[simp] theorem Dev.fresh_ramErr (d : Dev) : (d.fresh.2).ramErr = d.ramErr := rfl
@[simp] theorem Dev.fresh_dram (d : Dev) : (d.fresh.2).dram = d.dram := rfl
@[simp] theorem Dev.fresh_vaults (d : Dev) : (d.fresh.2).vaults = d.vaults := rfl
@[simp] theorem Dev.fresh_ctxKey (d : Dev) : (d.fresh.2).ctxKey = d.ctxKey := rfl
@[simp] theorem Dev.fresh_heldReq (d : Dev) : (d.fresh.2).heldReq = d.heldReq := rfl
@[simp] theorem Dev.fresh_varve (d : Dev) : (d.fresh.2).varve = d.varve := rfl
@[simp] theorem Dev.fresh_varveFrac (d : Dev) : (d.fresh.2).varveFrac = d.varveFrac := rfl
@[simp] theorem Dev.fresh_fabCycle (d : Dev) : (d.fresh.2).fabCycle = d.fabCycle := rfl
@[simp] theorem Dev.fresh_evq (d : Dev) : (d.fresh.2).evq = d.evq := rfl
@[simp] theorem Dev.fresh_evSeq (d : Dev) : (d.fresh.2).evSeq = d.evSeq := rfl
@[simp] theorem Dev.fresh_evLost (d : Dev) : (d.fresh.2).evLost = d.evLost := rfl
@[simp] theorem Dev.fresh_evLog (d : Dev) : (d.fresh.2).evLog = d.evLog := rfl
@[simp] theorem Dev.fresh_evLim (d : Dev) : (d.fresh.2).evLim = d.evLim := rfl
@[simp] theorem Dev.fresh_ringLost (d : Dev) : (d.fresh.2).ringLost = d.ringLost := rfl
@[simp] theorem Dev.fresh_dictCnt (d : Dev) : (d.fresh.2).dictCnt = d.dictCnt := rfl
@[simp] theorem Dev.fresh_fence (d : Dev) : (d.fresh.2).fence = d.fence := rfl
@[simp] theorem Dev.fresh_resp (d : Dev) : (d.fresh.2).resp = d.resp := rfl
@[simp] theorem Dev.fresh_tags (d : Dev) : (d.fresh.2).tags = d.tags := rfl
@[simp] theorem Dev.fresh_stalled (d : Dev) : (d.fresh.2).stalled = d.stalled := rfl
@[simp] theorem Dev.fresh_blocked (d : Dev) : (d.fresh.2).blocked = d.blocked := rfl
@[simp] theorem Dev.fresh_sasRuns (d : Dev) : (d.fresh.2).sasRuns = d.sasRuns := rfl
@[simp] theorem Dev.fresh_csrPosts (d : Dev) : (d.fresh.2).csrPosts = d.csrPosts := rfl
@[simp] theorem Dev.fresh_cores (d : Dev) : (d.fresh.2).cores = d.cores := rfl
@[simp] theorem Dev.fresh_tcaches (d : Dev) : (d.fresh.2).tcaches = d.tcaches := rfl
@[simp] theorem Dev.fresh_syncPending (d : Dev) : (d.fresh.2).syncPending = d.syncPending := rfl
@[simp] theorem Dev.fresh_watchers (d : Dev) : (d.fresh.2).watchers = d.watchers := rfl
@[simp] theorem Dev.fresh_mbxSlots (d : Dev) : (d.fresh.2).mbxSlots = d.mbxSlots := rfl
@[simp] theorem Dev.fresh_engines (d : Dev) : (d.fresh.2).engines = d.engines := rfl
@[simp] theorem Dev.fresh_ports (d : Dev) : (d.fresh.2).ports = d.ports := rfl
@[simp] theorem Dev.fresh_remoteOps (d : Dev) : (d.fresh.2).remoteOps = d.remoteOps := rfl
@[simp] theorem Dev.fresh_linkOut (d : Dev) : (d.fresh.2).linkOut = d.linkOut := rfl
@[simp] theorem Dev.fresh_identOut (d : Dev) : (d.fresh.2).identOut = d.identOut := rfl
@[simp] theorem Dev.fresh_unsent (d : Dev) : (d.fresh.2).unsent = d.unsent := rfl
@[simp] theorem Dev.fresh_jobsLost (d : Dev) : (d.fresh.2).jobsLost = d.jobsLost := rfl
@[simp] theorem Dev.fresh_nonceCtr (d : Dev) : (d.fresh.2).nonceCtr = d.nonceCtr := rfl
@[simp] theorem Dev.fresh_replays (d : Dev) : (d.fresh.2).replays = d.replays := rfl
@[simp] theorem Dev.fresh_colls (d : Dev) : (d.fresh.2).colls = d.colls := rfl
@[simp] theorem Dev.fresh_collTx (d : Dev) : (d.fresh.2).collTx = d.collTx := rfl
@[simp] theorem Dev.fresh_collRx (d : Dev) : (d.fresh.2).collRx = d.collRx := rfl
@[simp] theorem Dev.fresh_collAborts (d : Dev) : (d.fresh.2).collAborts = d.collAborts := rfl
@[simp] theorem Dev.fresh_collDone (d : Dev) : (d.fresh.2).collDone = d.collDone := rfl
@[simp] theorem Dev.fresh_linkMap (d : Dev) : (d.fresh.2).linkMap = d.linkMap := rfl
@[simp] theorem Dev.fresh_pkgId (d : Dev) : (d.fresh.2).pkgId = d.pkgId := rfl
@[simp] theorem Dev.fresh_jobKeys (d : Dev) : (d.fresh.2).jobKeys = d.jobKeys := rfl
@[simp] theorem Dev.fresh_cpPoison (d : Dev) : (d.fresh.2).cpPoison = d.cpPoison := rfl
@[simp] theorem Dev.fresh_stReq (d : Dev) : (d.fresh.2).stReq = d.stReq := rfl
@[simp] theorem Dev.fresh_issueSeq (d : Dev) : (d.fresh.2).issueSeq = d.issueSeq := rfl
@[simp] theorem Dev.fresh_grids (d : Dev) : (d.fresh.2).grids = d.grids := rfl
@[simp] theorem Dev.fresh_gridRead (d : Dev) : (d.fresh.2).gridRead = d.gridRead := rfl
@[simp] theorem Dev.fresh_mor (d : Dev) : (d.fresh.2).mor = d.mor := rfl
@[simp] theorem Dev.fresh_unitRest (d : Dev) : (d.fresh.2).unitRest = d.unitRest := rfl
@[simp] theorem Dev.fresh_rime (d : Dev) : (d.fresh.2).rime = d.rime := rfl
@[simp] theorem Dev.fresh_flash (d : Dev) : (d.fresh.2).flash = d.flash := rfl
@[simp] theorem Dev.fresh_sec (d : Dev) : (d.fresh.2).sec = d.sec := rfl
@[simp] theorem Dev.fresh_keyDraws (d : Dev) : (d.fresh.2).keyDraws = d.keyDraws := rfl
@[simp] theorem Dev.fresh_pers (d : Dev) : (d.fresh.2).pers = d.pers := rfl
@[simp] theorem Dev.fresh_secCmd (d : Dev) : (d.fresh.2).secCmd = d.secCmd := rfl
@[simp] theorem Dev.fresh_pcc (d : Dev) : (d.fresh.2).pcc = d.pcc := rfl
@[simp] theorem Dev.fresh_chans (d : Dev) : (d.fresh.2).chans = d.chans := rfl
@[simp] theorem Dev.fresh_hq (d : Dev) : (d.fresh.2).hq = d.hq := rfl
@[simp] theorem Dev.fresh_hqIds (d : Dev) : (d.fresh.2).hqIds = d.hqIds := rfl
@[simp] theorem Dev.fresh_dict (d : Dev) : (d.fresh.2).dict = d.dict := rfl
/-! ### Register fields -/

/-- A field reads the value written to it, cut to its width. -/
@[simp] theorem Dev.g_p_same (d : Dev) (b : Nat) (F : Fld) (v k : Nat) : (d.p b F v k).g b F k = v % 2 ^ F.w := by
  simp [Dev.g, Dev.p]

/-- A write of one field leaves a field at another place as it was. -/
theorem Dev.g_p_other (d : Dev) (b c : Nat) (F G : Fld) (v k j : Nat) (h : F.key b k ≠ G.key c j) :
    (d.p b F v k).g c G j = d.g c G j := by
  simp [Dev.g, Dev.p, Tab.getD_set_other _ _ _ _ _ _ h]

/-- A counter after it was raised: held at its largest value. -/
theorem Dev.g_inc_same (d : Dev) (b : Nat) (F : Fld) (k n : Nat) :
    (d.inc b F k n).g b F k = min (d.g b F k + n) (2 ^ F.w - 1) := by
  rw [Dev.inc_eq, Dev.g_p_same]
  exact Nat.mod_eq_of_lt (Nat.lt_of_le_of_lt (Nat.min_le_right _ _) (Nat.sub_lt (Nat.two_pow_pos _) Nat.one_pos))

/-- Which field a read after a write meets, told by the keys. -/
theorem Dev.g_p (d : Dev) (b c : Nat) (F G : Fld) (v k j : Nat) (hw : F.key b k = G.key c j → F.reset k = G.reset j) :
    (d.p b F v k).g c G j = if F.key b k = G.key c j then v % 2 ^ F.w else d.g c G j := by
  split
  · rename_i h
    simp only [Dev.g, Dev.p, ← h, ← hw h, Tab.getD_set_same]
  · rename_i h; exact d.g_p_other b c F G v k j h

@[simp] theorem Dev.gb_p_same (d : Dev) (b : Nat) (F : Fld) (v k : Nat) :
    (d.p b F v k).gb b F k = (v % 2 ^ F.w != 0) := by
  simp [Dev.gb]

theorem Dev.gb_p_other (d : Dev) (b c : Nat) (F G : Fld) (v k j : Nat) (h : F.key b k ≠ G.key c j) :
    (d.p b F v k).gb c G j = d.gb c G j := by
  simp [Dev.gb, d.g_p_other b c F G v k j h]

theorem Dev.g_congr {d e : Dev} (h : d.regs = e.regs) (b : Nat) (F : Fld) (k : Nat) : d.g b F k = e.g b F k := by
  simp [Dev.g, h]

@[simp] theorem Dev.dinc_g (d : Dev) (i j n b : Nat) (F : Fld) (k : Nat) : (d.dinc i j n).g b F k = d.g b F k := rfl

@[simp] theorem Dev.raise_g (d : Dev) (e : Ev) (b : Nat) (F : Fld) (k : Nat) : (d.raise e).g b F k = d.g b F k :=
  Dev.g_congr (by simp) b F k

@[simp] theorem Dev.eventLim_g (d : Dev) (c i s : Nat) (t : Bytes) (x : Nat) (w : Bool) (b : Nat) (F : Fld) (k : Nat) :
    (d.eventLim c i s t x w).g b F k = d.g b F k :=
  Dev.g_congr (by simp) b F k

@[simp] theorem Dev.fresh_g (d : Dev) (b : Nat) (F : Fld) (k : Nat) : d.fresh.2.g b F k = d.g b F k := rfl

@[simp] theorem Dev.raise_gb (d : Dev) (e : Ev) (b : Nat) (F : Fld) (k : Nat) : (d.raise e).gb b F k = d.gb b F k := by
  simp [Dev.gb]

@[simp] theorem Dev.dinc_gb (d : Dev) (i j n b : Nat) (F : Fld) (k : Nat) : (d.dinc i j n).gb b F k = d.gb b F k :=
    rfl

/-- An event enters a queue that has room, as the last record. -/
theorem Dev.raise_evq (d : Dev) (e : Ev) (h : d.evq.length < 4096) :
    (d.raise e).evq = d.evq ++ [⟨e, d.evLost, d.evSeq⟩] := by
  unfold Dev.raise; rw [if_neg (by omega)]

/-- A dictionary counter after it was raised. -/
theorem Dev.dcnt_dinc (d : Dev) (i j n : Nat) : (d.dinc i j n).dcnt i j = min (d.dcnt i j + n) (2 ^ 32 - 1) := by
  simp [Dev.dcnt, Dev.dinc]

/-! ### Register writes -/

/-- A write that meets none of the checks takes effect. -/
theorem Dev.regCmd_none (d : Dev) (b : Blk) (o n : Nat) (sec : Bool) (who : Initiator) (f : Dev → Dev)
    (h : d.regStop b o n sec who = none) : d.regCmd b o n sec who f = f d := by
  simp [Dev.regCmd, h]

end Sys2Proof.Machine
end

