-- ==== Sys2Proof/Laws/Core.lean ====
section
/-!
SUPPORT. Core queues: what a replaced core or entry reads as, what settling a context leaves as it was, and all that
ending an entry does to its core and to memory.
-/

namespace Sys2Proof.Machine

@[simp] theorem Dev.core_setCore (d : Dev) (n : Nat) (c : Core) : (d.setCore n c).core n = c := by
  simp [Dev.core, Dev.setCore]

theorem Dev.core_setCore_other (d : Dev) (n m : Nat) (c : Core) (h : m ≠ n) :
    (d.setCore n c).core m = d.core m := by
  simp only [Dev.core, Dev.setCore]
  exact Tab.getD_set_other _ _ _ _ _ _ (Ne.symm h)

@[simp] theorem Dev.setCore_regs (d : Dev) (n : Nat) (c : Core) : (d.setCore n c).regs = d.regs := rfl
@[simp] theorem Dev.setCore_ram (d : Dev) (n : Nat) (c : Core) : (d.setCore n c).ram = d.ram := rfl
@[simp] theorem Dev.setCore_dram (d : Dev) (n : Nat) (c : Core) : (d.setCore n c).dram = d.dram := rfl

theorem Dev.core_congr {d e : Dev} (h : d.cores = e.cores) (n : Nat) : d.core n = e.core n := by
  simp [Dev.core, h]

theorem Dev.entry_congr {d e : Dev} {n : Nat} (h : d.core n = e.core n) (slot : Nat) :
    d.entry n slot = e.entry n slot := by
  simp [Dev.entry, h]

theorem find_map_slot (q : List QEntry) (slot : Nat) (f : QEntry → QEntry) (hf : ∀ e, (f e).slot = e.slot) :
    (q.map (fun e => if e.slot == slot then f e else e)).find? (fun e => e.slot == slot) =
      (q.find? (fun e => e.slot == slot)).map f := by
  induction q with
  | nil => rfl
  | cons e q ih =>
    rw [List.map_cons]
    by_cases h : e.slot = slot
    · have h' : (f e).slot = slot := (hf e).trans h
      simp [h, h']
    · rw [if_neg (by simpa using h), List.find?_cons_of_neg (by simpa using h), ih,
        List.find?_cons_of_neg (by simpa using h)]

/-- An entry replaced by its image is its image. -/
theorem Dev.entry_modEntry (d : Dev) (n slot : Nat) (f : QEntry → QEntry) (hf : ∀ e, (f e).slot = e.slot) :
    (d.modEntry n slot f).entry n slot = (d.entry n slot).map f := by
  simp only [Dev.entry, Dev.modEntry, Dev.core_setCore]
  exact find_map_slot _ _ _ hf

theorem Dev.disableSettle_cores (d : Dev) : d.disableSettle.cores = d.cores := by
  simp only [Dev.disableSettle]
  split
  · simp only [Dev.event_eq, Dev.raise_cores]
    repeat' split
    all_goals simp
  · rfl

theorem Dev.disableSettle_ram (d : Dev) : d.disableSettle.ram = d.ram := by
  simp only [Dev.disableSettle]
  split
  · simp only [Dev.event_eq, Dev.raise_ram]
    repeat' split
    all_goals simp
  · rfl

theorem Dev.disableSettle_dram (d : Dev) : d.disableSettle.dram = d.dram := by
  simp only [Dev.disableSettle]
  split
  · simp only [Dev.event_eq, Dev.raise_dram]
    repeat' split
    all_goals simp
  · rfl

/-! Settling a context changes register fields of the management block and of flow engines, and raises events. -/

theorem Dev.settle_cores (d : Dev) (c : Nat) : (d.settle c).cores = d.cores := by
  simp only [Dev.settle, Dev.disableSettle_cores, Dev.ctxSettle]
  split
  · simp
  · rfl

theorem Dev.settle_ram (d : Dev) (c : Nat) : (d.settle c).ram = d.ram := by
  simp only [Dev.settle, Dev.disableSettle_ram, Dev.ctxSettle]
  split
  · simp
  · rfl

theorem Dev.settle_dram (d : Dev) (c : Nat) : (d.settle c).dram = d.dram := by
  simp only [Dev.settle, Dev.disableSettle_dram, Dev.ctxSettle]
  split
  · simp
  · rfl

/-- An entry that makes no signal changes nothing by it. -/
theorem Dev.completeSignal_none (d : Dev) (n : Nat) (e : QEntry) (hs : e.desc.sigEn = false) :
    d.completeSignal n e = d := by
  simp [Dev.completeSignal, hs]

/-- The end of an entry that neither signals nor holds a watch entry (R99, R100): it leaves its queue, its record is kept
as the newest where its status or its descriptor asks for it, and the memories keep what they hold. -/
theorem Dev.complete_spec (d : Dev) (n slot status detail : Nat) (e : QEntry) (h : d.entry n slot = some e)
    (hw : e.watching = false) (hs : e.desc.sigEn = false) :
    (d.complete n slot status detail).core n = { d.core n with
      q := (d.core n).q.filter (fun x => x.slot != slot)
      cpl := if status ≠ 0 || !e.desc.cplSuppress then
          (d.core n).cpl ++ [⟨slot, cplRecord e status detail d.t32, e.own⟩] else (d.core n).cpl } ∧
    (d.complete n slot status detail).ram = d.ram ∧ (d.complete n slot status detail).dram = d.dram := by
  unfold Dev.complete
  simp only [h, hw, d.completeSignal_none n e hs, Bool.false_eq_true, if_false, Dev.settle_ram, Dev.settle_dram]
  refine ⟨?_, ?_, ?_⟩
  · rw [Dev.core_congr (Dev.settle_cores _ _)]
    repeat' split
    all_goals simp_all [Dev.core, Dev.setCore, Dev.inc_eq, Dev.event_eq]
  all_goals
    repeat' split
    all_goals simp [Dev.inc_eq, Dev.event_eq]

/-- An entry that has ended is no longer in its slot. -/
theorem Dev.complete_entry (d : Dev) (n slot status detail : Nat) (e : QEntry) (h : d.entry n slot = some e)
    (hw : e.watching = false) (hs : e.desc.sigEn = false) :
    (d.complete n slot status detail).entry n slot = none := by
  simp [Dev.entry, (d.complete_spec n slot status detail e h hw hs).1]

end Sys2Proof.Machine
end

