-- ==== Sys2Proof/Laws/Runs.lean ====
section
/-!
SUPPORT. What a statement about one command is proved with: how a command runs, what a register write that passes its
checks does, what raising an event tells, and which fields a field write leaves.
-/

namespace Sys2Proof.Safety
open Sys2Proof.Machine

/-- A command whose meaning answers a device runs, and the device meets what is shown of it. -/
theorem runs_done {i : Instr} {s : State} {P : Dev → Prop} (d : Dev) (h : exec i s = s.done d) (hp : P d) :
    Runs i s P :=
  ⟨{ s with dev := d }, h, rfl, rfl, hp⟩

/-- An operation that no vault holds and that sends no register write ends as its meaning says (R22, R250). -/
theorem runOp_done {s : State} {f : Dev → Dev} (h : Undisturbed s.dev (f s.dev)) : s.runOp f = s.done (f s.dev) := by
  obtain ⟨h1, h2⟩ := h
  have hd : (f s.dev).csrPosts.drop s.dev.csrPosts.length = [] := by simp [h2]
  have hb : (s.dev.anyHolds && (f s.dev).blocked && !s.dev.blocked) = false := by
    rcases h1 with h1 | h1
    · simp [h1]
    · simp [h1]
  simp [State.runOp, State.runOpFuse, State.done, State.doneFuse, hb, hd]

/-- No job has lost a signal: nothing is ended for it (R45, R293). -/
theorem jobsEnd_none {d : Dev} (h : d.jobsLost = []) : ∀ n, d.jobsEnd n = d
  | 0 => rfl
  | n + 1 => by simp [Dev.jobsEnd, h]

/-- A link command that no vault holds, that sends no register write and to which no job loses a signal ends as its
meaning says. -/
theorem runLink_done {s : State} {f : Dev → Dev} (h : LinkUndisturbed s.dev (f s.dev)) :
    s.runLink f = s.done (f s.dev) := by
  have e : (f s.dev).jobsEnd 256 = f s.dev := jobsEnd_none h.2 256
  have := runOp_done (s := s) (f := fun d => (f d).jobsEnd 256) (by simpa [e] using h.1)
  simpa [State.runLink, e] using this

/-- An event raised is told, whether or not the queue has room. -/
theorem raise_told (d : Dev) (e : Ev) : Told (d.raise e) e.cls e.inst e.status e.detail := by
  unfold Told Dev.raise
  split
  · exact .inl rfl
  · exact .inr ⟨_, List.getLast?_concat, rfl, rfl, rfl, rfl⟩

theorem event_told (d : Dev) (c i st : Nat) (t : Bytes) (x : Nat) (w : Bool) :
    Told (d.event c i st t x w) c i st t :=
  raise_told d _

/-- A field write leaves every other register field. -/
theorem regsBut_p (d : Dev) (b : Nat) (F : Fld) (v k : Nat) : RegsBut d (d.p b F v k) [F.key b k] := by
  intro c G j h
  exact Dev.g_p_other _ _ _ _ _ _ _ _ (by simp at h; exact fun e => h e.symm)

theorem regsBut_refl (d : Dev) (l : List Nat) : RegsBut d d l := fun _ _ _ _ => rfl

/-- Two updates leave what neither touches. -/
theorem regsBut_trans {d e f : Dev} {l m : List Nat} (h : RegsBut d e l) (g : RegsBut e f m) :
    RegsBut d f (l ++ m) := by
  intro c G j hn
  rw [List.mem_append, not_or] at hn
  exact (g c G j hn.2).trans (h c G j hn.1)

/-- A register write that meets its checks has its effect. -/
theorem regCmd_writes {d : Dev} {b : Blk} {o n : Nat} {sec : Bool} {who : Initiator} {f : Dev → Dev}
    (h : Writes d b sec who) : d.regCmd b o n sec who f = f d := by
  obtain ⟨h1, h2, hl, h3⟩ := h
  have : d.regStop b o n sec who = none := by
    unfold Dev.regStop
    rcases h3 with h3 | ⟨h3, h4⟩
    · simp [h1, h2, hl, h3]
    · simp [h1, h2, hl, h3, h4]
  exact Dev.regCmd_none _ _ _ _ _ _ _ this

end Sys2Proof.Safety
end

