-- ==== Sys2Proof/Tests/Slice0.lean ====
section
/-!
SUPPORT. Tests of one command each, on a small state, and a witness for the hypotheses of every statement: the theorems
named `test_` show what a command does where they name it, those named `wit_` that the hypotheses of a statement can be
met together, at a boundary value where the statement has one. Expected values are worked out from the rules the
statements cite.
-/

open Sys2Proof Sys2Proof.Machine Sys2Proof.Safety

namespace Sys2Proof.Tests

set_option Elab.async false

/-- Every domain on and every vault READY, nothing else written. -/
def on : Dev := (List.range 8).foldl (fun d v => d.pb (B.vault v) F.vault_READY true)
  (State.reset.dev.p B.pcc F.pcc_PWR_ON (2 ^ 64 - 1))

/-- A state that holds a device and the fuses of reset. -/
def st (d : Dev) : State := { State.reset with dev := d }

/-- The device after a command. -/
def run (i : Instr) (d : Dev) : Dev :=
  match exec i (st d) with
  | .next t => t.dev
  | _ => d

/-- A secure and a non-secure initiator: management core 0, and core 5 in context 3. -/
def mgr : Initiator := ⟨0x270, 0, true⟩
def app : Initiator := ⟨5, 3, false⟩

/-! ### Well-formed commands -/

theorem test_wf_who : Instr.wf (.fenceRelease ⟨4096, 0, true⟩ 0) = false ∧
  Instr.wf (.fenceRelease ⟨0x300, 0, true⟩ 0) = false ∧ Instr.wf (.fenceRelease ⟨0x270, 16, true⟩ 0) = false ∧
    Instr.wf (.fenceRelease ⟨0x270, 15, true⟩ 511) = true := by decide
theorem test_wf_core : Instr.wf (.descIssue 512) = false ∧ Instr.wf (.descIssue 511) = true := by decide
theorem test_wf_slot : Instr.wf (.nop 0 256) = false ∧ Instr.wf (.nop 511 255) = true := by decide
theorem test_wf_address : Instr.wf (.fabricAccess mgr (2 ^ 48) false 1 [] false [] .clean) = false ∧
    Instr.wf (.fabricAccess mgr 0 false 1025 [] false [] .clean) = false := by decide
theorem test_wf_upset : okUpset [(68, 1)] = false ∧ okUpset [(67, 0)] = false ∧ okUpset [(67, 256)] = false ∧
    okUpset [(67, 255)] = true := by decide
theorem test_wf_line : LineWrite.wf ⟨mgr, 63, [0, 0], false⟩ = false ∧
  LineWrite.wf ⟨mgr, 62, [0, 0], false⟩ = true := by decide
theorem test_wf_mode_register : MrEffect.wf (.latency 3 0) = false ∧ MrEffect.wf (.unsupported 256) = false ∧
    MrEffect.wf (.clock 2 65536 false) = false ∧ MrEffect.wf (.activate 3) = false := by decide
theorem test_wf_ranges : Instr.wf (.evrAckWrite 2 0) = false ∧ Instr.wf (.tagRetire false 8 0) = false ∧
    Instr.wf (.windowAccess 6) = false ∧ Instr.wf (.sensorSlotWrite mgr 64 0) = false ∧
    Instr.wf (.lookupServe 64 0) = false ∧ Instr.wf (.translationWalk 11 0 0 0 false) = false ∧
    Instr.wf (.sigAdd mgr 16384 0) = false ∧ Instr.wf (.mailboxSend mgr 64 []) = false ∧
    Instr.wf (.act 0 16 0 false) = false ∧ Instr.wf (.ringEntryStart 64) = false := by decide

/-! ### The queue, the fuses, registers, events, tags -/

theorem test_step_takes_front : step { st on with pending := [.aonTick, .snapshot] } =
    .next { st (run .aonTick on) with pending := [.snapshot] } := by rfl
theorem test_idle : step (st on) = .next (st on) := by rfl
theorem test_no_word_spells_a_command : decodeTableWord 64 0 = none ∧ (st on).withFetchWord 64 0 = st on := ⟨rfl, rfl⟩
theorem wit_FusesOnlyGrow : FuseWf State.reset.otp := by decide
theorem wit_EveryCommandAnswers : mayBlow .aonTick = false := by decide

theorem wit_RegisterWrites :
    0x18 * 8 ≤ F.vault_CE_EVT_THRESH.off * 8 + F.vault_CE_EVT_THRESH.lo + F.vault_CE_EVT_THRESH.bstr * 0 ∧
    F.vault_CE_EVT_THRESH.off * 8 + F.vault_CE_EVT_THRESH.lo + F.vault_CE_EVT_THRESH.bstr * 0 +
      F.vault_CE_EVT_THRESH.w ≤ (0x18 + 4) * 8 ∧ F.vault_CE_EVT_THRESH ≠ F.vault_QOS_W ∧
    on.g (B.vault 7) F.vault_CE_EVT_THRESH 0 < 2 ^ F.vault_CE_EVT_THRESH.w := by decide
theorem test_registerWrite : on.answers (.vault 7) = true ∧ on.secCmd = none ∧
    (run (.registerWrite mgr (B.vault 7 + 0x18) 4 (natLE 4 0xFFFFFFFF)) on).g (B.vault 7) F.vault_CE_EVT_THRESH =
      0xFFFFFFFF := by decide
theorem test_rw1c : (run (.registerWrite mgr (B.mgmt + 0x14) 4 (natLE 4 2)) (on.p B.mgmt F.mgmt_LIMIT_HIT 1)).g B.mgmt
    F.mgmt_LIMIT_HIT = 0 := by decide
theorem wit_NonSecureWritesStop : app.secure = false ∧ on.answers (.core 511) = true ∧ on.answers .sec = true ∧
    on.answers (.sync 16383) = true ∧ on.blkSecure (.sync 16383) = true := by decide
theorem test_nonSecure_counted : (run (.ckGo app 0) on).g B.sec F.sec_SEC_WORLD_CNT = 1 ∧
    (run (.ckGo app 0) on).ctxKey = on.ctxKey := by decide

theorem wit_DecodeFailure : (mgr.access 0xC00000000 true 64 (zeros 64) false).legal = true ∧
    on.memUp 0xC00000000 ≠ some true := by decide
theorem test_decode_failure : (run (.fabricAccess mgr 0xC00000000 false 4 [] false [] .clean) on).resp =
    some ⟨zeros 4, true, 0, 0⟩ := by decide
theorem wit_ScratchWordWrite : on.domFenced Dom.spine = false ∧ on.memUp 0x101FFFFFC0 = some true ∧
    (on.fwCheck (mgr.access 0x101FFFFFC0 true 64 (zeros 64) false)).2 = true := by decide
theorem wit_ScratchRead : on.memUp 0x1000000000 = some true ∧
    (on.fwCheck (mgr.access 0x1000000000 false 64 [] false)).2 = true ∧ on.sramErr 0x1000000000 = [] ∧
    on.sramErr 0x1000000020 = [] := by decide
/-- The byte written at an address is the one read back there, and its neighbour stays. -/
theorem test_scratch_write_read :
    (run (.fabricAccess mgr 0x1000000001 false 1 [] false [] .clean)
      (run (.fabricAccess mgr 0x1000000000 true 2 [0xAB, 0xCD] false [] .clean) on)).resp = some ⟨[0xCD], false, 0,
        0⟩ := by
  decide

/-- An event, and a device that holds one record of it. -/
def ev : Ev := ⟨0, 1, 0, 0x0217, 0, false, zeros 16⟩
theorem wit_EventsRecorded : on.mgmtRuns = true ∧ (on.raise ev).evq = [⟨ev, false, 0⟩] ∧ (on.chan 0).evrOn = false ∧
    (on.chan 1).evrOn = false := by decide
theorem test_event_drained : (run .eventQueueDrain (on.raise ev)).evLog = [⟨ev, false, 0⟩] ∧
    (run .eventQueueDrain (on.raise ev)).evq = [] := by decide
/-- A channel the host may write: ready, trained, out of self-refresh. -/
def ready : Dev := (on.pb B.mmp F.mmp_CH_READY true 1).pb B.mmp F.mmp_TRAINED true 1
theorem test_evr_ack_negative_ignored : ready.chWrites 1 = true ∧ ((run (.evrAckWrite 1 1) ready).chan 1).evrAck = 0 ∧
    (run (.evrAckWrite 1 1) ready).g B.mmp F.mmp_DB_REJECT_CNT 1 = 1 := by decide

/-! ### Core queues and windows -/

/-- A descriptor: class, variant, format codes, and further fields as offset, bytes and value. -/
def dsc (op var fa fb fd : Nat) (fs : List (Nat × Nat × Nat)) : Bytes :=
  record 64 ([(0, [byte op, byte var, byte (fa + 16 * fb), byte fd])] ++ fs.map (fun f => (f.1, natLE f.2.1 f.2.2)))

/-- Cores that hold a microprogram. -/
def coded : Dev := (on.pb (B.core 0) F.core_UCODE_VALID true).pb (B.core 511) F.core_UCODE_VALID true

/-- Core 0 holds one entry in slot 0, in a state of execution. -/
def withEntry (d : Dev) (x : Bytes) (q : QState) (done : Bool) : Dev :=
  d.setCore 0 { d.core 0 with q := [{ slot := 0, desc := x, st := q, exec := 0, checked := true, done := done }] }

/-- Core 0 holds an issued entry. -/
def issued (x : Bytes) : Dev := withEntry coded x .issued false

theorem test_submit : coded.submitStatus 511 0 (zeros 64) = none ∧
    ((run (.submit mgr 511 (zeros 64)) coded).core 511).q.map (fun e => (e.desc, e.st, e.exec)) =
      [(zeros 64, .queued, 511)] := by decide
/-- A context that is OFF is refused with 0x0205, and nothing enters the queue. -/
theorem test_submit_refused : coded.submitStatus 511 0 (dsc 0 0 0 0 0 [(4, 2, 3)]) = some 0x0205 ∧
    (run (.submit mgr 511 (dsc 0 0 0 0 0 [(4, 2, 3)])) coded).g (B.core 511) F.core_REF_STATUS = 0x0205 ∧
    ((run (.submit mgr 511 (dsc 0 0 0 0 0 [(4, 2, 3)])) coded).core 511).q = [] := by decide

/-- A head that may issue. -/
def head0 : QEntry := { slot := 0, desc := zeros 64, st := .queued, exec := 0, checked := true }
theorem wit_HeadIssues : let d := withEntry coded (zeros 64) .queued false
    d.clusterUp 0 = true ∧ d.slotHeld 0 = false ∧ d.gb (B.core 0) F.core_FENCED = false ∧ d.head 0 = some head0 ∧
    d.entry 0 0 = some head0 ∧ d.drainHeld 0 0 = false ∧ Desc.invalid (zeros 64) = none ∧ head0.checked = true ∧
    Desc.waitEn (zeros 64) = false ∧ d.blockOff 0 (zeros 64) = false ∧ d.mayIssue 0 head0 = true := by decide
theorem test_descIssue : ((run (.descIssue 0) (withEntry coded (zeros 64) .queued false)).entry 0 0).map (·.st) =
    some .issued := by decide
/-- A head not yet checked: a NOP, and one whose SIG_IDX names object 16383, which is not enabled; and a GATHER whose
engine the disable of its context's function closes. -/
def fresh (x : Bytes) : Dev := coded.setCore 0 { coded.core 0 with q := [{ head0 with desc := x, checked := false }] }
def sigD : Bytes := dsc 0 0 0 0 0 [(0x1A, 2, 0x8000 + 16383), (0x1C, 4, 1)]
theorem wit_HeadIssues_unchecked : let a := (fresh (zeros 64)).syncAdmit 0 (zeros 64)
    let d := a.1.headWait 0 { head0 with checked := false }
    a.2.1 = none ∧ d.entry 0 0 = some head0 ∧ d.blockOff 0 (zeros 64) = false ∧ d.mayIssue 0 head0 = true ∧
    ((fresh sigD).syncAdmit 0 sigD).2.1 = some (16383 + 2 ^ 14 + 3 * 2 ^ 16) := by decide
theorem test_head_denied : ((run (.descIssue 0)
  (fresh sigD)).core 0).cpl.map (fun r => fieldN r.bytes 0 2) = [0x0101] := by
  decide
theorem wit_HeadIssues_off : let x := dsc 0x30 0 0 0 0 []
    let d := withEntry ({ coded with regs := coded.regs } |>.p B.pcc F.pcc_PWR_ON (2 ^ 64 - 1 - 2 ^ Dom.sastrugi)) x .queued false
    d.entry 0 0 = some { head0 with desc := x } ∧ d.blockOff 0 x = true := by decide

/-- OPCLASS 0xFF is outside Table 3.3: reason 1. -/
theorem wit_InvalidHeadRefused : let x := dsc 0xFF 0 0 0 0 []
    let d := withEntry coded x .queued false
    d.head 0 = some { head0 with desc := x } ∧ d.entry 0 0 = some { head0 with desc := x } ∧ d.drainHeld 0 0 = false ∧
    Desc.invalid x = some 1 ∧ Desc.sigEn x = false := by decide
theorem test_invalid_refused : let d := run (.descIssue 0) (withEntry coded (dsc 0xFF 0 0 0 0 []) .queued false)
    d.entry 0 0 = none ∧ (d.core 0).cpl.map (fun r => fieldN r.bytes 0 2) = [0x0210] := by decide

/-- An entry whose execution has ended. -/
def ended0 : QEntry := { head0 with st := .issued, done := true }
theorem wit_EndedEntryCompletes : let d := withEntry coded (zeros 64) .issued true
    d.entry 0 0 = some ended0 ∧ ended0.st ≠ .queued ∧ ended0.done = true ∧ d.entryAborted 0 ended0 = false ∧
    d.remoteOps = [] ∧ ended0.held = 0 ∧ (d.core 0).posts = [] ∧ Desc.sigEn (zeros 64) = false ∧
    ended0.watching = false := by decide
/-- The entry signals object 16383 by 7 when it completes: COUNT holds 7 before the record is there. -/
def sigD7 : Bytes := dsc 0 0 0 0 0 [(0x1A, 2, 0x8000 + 16383), (0x1C, 4, 7)]
def signals : Dev := (withEntry coded sigD7 .issued true).pb (B.sync 16383) F.sync_OBJ_EN true
theorem wit_EndedEntryCompletes_signal : Desc.sigEn sigD7 = true ∧ ended0.sigDenied = false ∧ ended0.checked = true ∧
    signals.entry 0 0 = some { ended0 with desc := sigD7 } ∧
    signals.domOn (Dom.region (syncHome (Desc.sigIdx sigD7))) = true := by decide
theorem test_signal_applied : let d := run (.descComplete 0 0) signals
    d.g (B.sync 16383) F.sync_COUNT = 7 ∧ (d.core 0).cpl.map (·.slot) = [0] := by decide
theorem test_descComplete : let d := run (.descComplete 0 0) (withEntry coded (zeros 64) .issued true)
    (d.core 0).q = [] ∧ (d.core 0).cpl.map (·.slot) = [0] := by decide

/-- ADD of one INT8 element, which core 0 holds and core 1 may take. -/
def addD : Bytes := dsc 0x20 0 0 0 0 [(8, 2, 0), (0xA, 2, 1), (0xC, 2, 1), (0xE, 2, 1), (0x10, 2, 2), (0x12, 2, 1),
  (0x28, 4, 1), (0x30, 4, 0x3F800000)]
def stealable : Dev :=
  let d := withEntry coded addD .queued false
  (((d.pb (B.core 0) F.core_STEAL_EN true).pb (B.core 1) F.core_STEAL_EN true).pb (B.core 1) F.core_UCODE_VALID true).p
    (B.spu 0) F.spu_STEAL_CTX_MASK 1 0
theorem wit_ThiefTakesEntry : stealable.isThief 1 = true ∧
  stealable.stealChoice 1 = some (0, { head0 with desc := addD }) ∧
    stealable.entry 0 0 = some { head0 with desc := addD } := by decide
/-- The same entry with a signal that object 16383 refuses, not yet checked. -/
def addSigD : Bytes := dsc 0x20 0 0 0 0 [(8, 2, 0), (0xA, 2, 1), (0xC, 2, 1), (0xE, 2, 1), (0x10, 2, 2), (0x12, 2, 1),
  (0x1A, 2, 0x8000 + 16383), (0x1C, 4, 1), (0x28, 4, 1), (0x30, 4, 0x3F800000)]
def stealRefused : Dev :=
  stealable.setCore 0 { stealable.core 0 with q := [{ head0 with desc := addSigD, checked := false }] }
theorem wit_ThiefTakesEntry_refused : stealRefused.stealChoice 1 = some (0,
  { head0 with desc := addSigD, checked := false }) ∧
    (stealRefused.syncAdmit 0 addSigD).2.1.isSome = true := by decide
theorem test_steal_refused : ((run (.steal 1) stealRefused).core 0).cpl.map (fun r => fieldN r.bytes 0 2) = [0x0101] := by
  decide
theorem test_steal : ((run (.steal 1) stealable).entry 0 0).map (fun e => (e.st, e.exec)) = some (.stolen,
  1) := by decide

theorem test_watchdog : (issued (zeros 64)).entry 0 0 = some { ended0 with done := false } ∧
    Desc.cls (zeros 64) = some .nop ∧
    (run (.coreWatchdog 0 0) (issued (zeros 64))).gb (B.core 0) F.core_FENCED = true := by decide
/-- Core 511 holds one completion record, of slot 255. -/
def kept : Dev := on.setCore 511 { on.core 511 with cpl := [⟨255, zeros 16, 0⟩] }
theorem wit_CoreCommands : Writes kept (.core 511) true mgr := by decide
theorem test_cplPop : ((run (.cplPop mgr 511 255) kept).core 511).cpl = [] ∧
    ((run (.cplPop mgr 511 254) kept).core 511).cpl = [⟨255, zeros 16, 0⟩] ∧
    (run (.cplPop mgr 511 254) kept).g (B.core 511) F.core_CPL_POP_MISS_CNT = 1 := by decide
theorem test_ucodeWrite : (on.core 511).idle = true ∧ (on.core 511).used = 0 ∧
    ((run (.ucodeWrite mgr 511 0x7FFC 0x12345678) coded).core 511).ucode = [(0x7FFC, 0x12345678)] ∧
    (run (.ucodeWrite mgr 511 0x7FFC 0x12345678) coded).gb (B.core 511) F.core_UCODE_VALID = false := by decide
theorem test_ucodeWrite_refused : (kept.core 511).used = 1 ∧
    ((run (.ucodeWrite mgr 511 0 1) kept).core 511).ucode = [] := by decide
theorem test_ucodeCommit : (run (.ucodeCommit mgr 511) on).gb (B.core 511) F.core_UCODE_VALID = true := by decide
theorem test_fenceRelease : let d := on.pb (B.core 3) F.core_FENCED true
    (run (.fenceRelease mgr 3) d).gb (B.core 3) F.core_FENCED = true ∧
    (run (.fenceRelease mgr 3) (d.pb (B.core 3) F.core_ST_PASS true)).gb (B.core 3) F.core_FENCED = false := by decide

/-- Window 3 of core 0 opens over its last granule, and is then closed to a new range. -/
def opened : Dev := run (.winCtrlWrite mgr 0 3 4 1) (run (.winCtrlWrite mgr 0 3 0 (16383 + 65536)) on)
theorem wit_WindowRewrite : Writes opened (.core 0) true mgr ∧ opened.gb (B.core 0) F.core_WIN_EN 3 = true ∧
    Writes on (.core 0) true mgr ∧ on.gb (B.core 0) F.core_WIN_EN 3 = false := by decide
/-- A change of KEY_SLOT alone is refused and raised; the permissions follow the write (R113). -/
theorem test_window_key_kept : let d := run (.winCtrlWrite mgr 0 3 4 (1 + 2 * 256 * 256 * 256 + 2)) opened
    d.g (B.core 0) F.core_KEY_SLOT 3 = 0 ∧ d.gb (B.core 0) F.core_PERM_R 3 = true := by decide
theorem test_winCtrlWrite : opened.gb (B.core 0) F.core_WIN_EN 3 = true ∧
    (run (.winCtrlWrite mgr 0 3 0 0) opened).g (B.core 0) F.core_WIN_BASE 3 = 16383 ∧
    (run (.winCtrlWrite mgr 0 3 4 1) (run (.winCtrlWrite mgr 0 3 0 (16383 + 2 * 65536)) on)).gb (B.core 0)
      F.core_WIN_EN 3 = false := by decide
theorem wit_Windows : let d :=
  (((opened.p (B.core 0) F.core_PEER_SET (2 ^ 63) 3).pb (B.core 0) F.core_PERM_R true 3).p
      (B.core 0) F.core_KEY_SLOT 255 3)
    d.winFor 0 16383 1 63 255 false = some 3 ∧ d.winFor 0 16383 1 63 255 true = none ∧
    d.winFor 0 16382 2 63 255 false = none := by decide

/-! ### The classes of Table 3.3 -/

/-- The bytes of core 0's scratchpad from granule `g` on, after a command on an entry. -/
def pad (d : Dev) (g n : Nat) : Bytes := Memory.readN d.ram (B.scratch 0 + 64 * g) n
/-- Granules written before. -/
def put (d : Dev) (g : Nat) (b : Bytes) : Dev := { d with ram := Memory.writeN d.ram (B.scratch 0 + 64 * g) b }

/-- ELEMENTWISE of four INT8 elements: A at granule 0, B at 1, D at 2. -/
def ewD (v : Nat) : Bytes := dsc 0x20 v 0 0 0 [(8, 2, 0), (0xA, 2, 1), (0xC, 2, if v = 7 ∨ v = 8 then 0 else 1),
  (0xE, 2, if v = 7 ∨ v = 8 then 0 else 1), (0x10, 2, 2), (0x12, 2, 1), (0x28, 4, 4), (0x30, 4, 0x3F800000)]
/-- A is 100, −3, 5, 0 and B is 100, 7, 5, −1. -/
def ewS (v : Nat) : Dev := put (put (issued (ewD v)) 0 [100, 253, 5, 0]) 1 [100, 7, 5, 255]
theorem wit_ArrayEntriesEnd : Ready (ewS 0) 0 0 (.ew 0) { ended0 with desc := ewD 0, done := false } ∧
    (ewS 0).domOn (Dom.cluster 0) = true ∧ (ewS 0).gb (B.core 0) F.core_FENCED = false ∧
    (Desc.fD (ewD 0)).isMx = false := by decide +kernel
/-- INT8 results saturate (R70): 200 becomes 127. -/
theorem test_add : pad (run (.add 0 0) (ewS 0)) 2 4 = [127, 4, 10, 255] := by decide +kernel
theorem test_sub : pad (run (.sub 0 0) (ewS 1)) 2 4 = [0, 246, 0, 1] := by decide +kernel
theorem test_mul : pad (run (.mul 0 0) (ewS 2)) 2 4 = [127, 235, 25, 0] := by decide +kernel
theorem test_max : pad (run (.max 0 0) (ewS 3)) 2 4 = [100, 7, 5, 0] := by decide +kernel
theorem test_min : pad (run (.min 0 0) (ewS 4)) 2 4 = [100, 253, 5, 255] := by decide +kernel
theorem test_cmpgt : pad (run (.cmpgt 0 0) (ewS 5)) 2 4 = [0, 0, 0, 1] := by decide +kernel
theorem test_cmpeq : pad (run (.cmpeq 0 0) (ewS 6)) 2 4 = [1, 0, 1, 0] := by decide +kernel
theorem test_convert : pad (run (.convert 0 0) (ewS 7)) 2 4 = [100, 253, 5, 0] := by decide +kernel
theorem test_relu : pad (run (.relu 0 0) (ewS 8)) 2 4 = [100, 0, 5, 0] := by decide +kernel
/-- A fenced core makes no progress (R30). -/
theorem test_fenced_waits : (run (.add 0 0) ((ewS 0).pb (B.core 0) F.core_FENCED true)).entry 0 0 =
    some { ended0 with desc := ewD 0, done := false } := by decide +kernel

/-- REDUCE of two rows of two INT8 elements at granule 0 to granule 2. -/
def redD (v : Nat) : Bytes := dsc 0x21 v 0 0 0 [(8, 2, 0), (0xA, 2, 1), (0x10, 2, 2), (0x12, 2, 1), (0x28, 2, 2),
  (0x2A, 2, 2), (0x30, 4, 0x3F800000)]
def redS (v : Nat) : Dev := put (issued (redD v)) 0 [1, 2, 253, 9]
theorem test_reduceSum : pad (run (.reduceSum 0 0) (redS 0)) 2 2 = [3, 6] := by decide +kernel
theorem test_reduceMax : pad (run (.reduceMax 0 0) (redS 1)) 2 2 = [2, 9] := by decide +kernel
theorem test_reduceMin : pad (run (.reduceMin 0 0) (redS 2)) 2 2 = [1, 253] := by decide +kernel

/-- DENSE_MM 1 × 2 × 2 on INT8: A = (1, 2), B = ((3, 4), (5, 6)), D = (11, 17) as INT32. -/
def mmD : Bytes := dsc 0x01 0 0 0 8 [(8, 2, 0), (0xA, 2, 1), (0xC, 2, 1), (0xE, 2, 1), (0x10, 2, 2), (0x12, 2, 1),
  (0x28, 2, 1), (0x2A, 2, 2), (0x2C, 2, 2), (0x30, 4, 0x3F800000)]
theorem test_denseMm : pad (run (.denseMm 0 0) (put (put (issued mmD) 0 [1, 2]) 1 [3, 4, 5, 6])) 2 8 =
    natLE 4 11 ++ natLE 4 17 := by decide +kernel

theorem test_nop : ((run (.nop 0 0) (issued (zeros 64))).entry 0 0).map (·.done) = some true := by decide +kernel
/-- Vault 0 has been initialised: the translation tables hold no valid entry. -/
def zeroed (d : Dev) : Dev := d.setVlt 0 { zeroed := true }
/-- Every translation cache holds the identity map of the first 2 MiB for context 0. -/
def mapped (d : Dev) : Dev :=
  { zeroed d with tcaches := (List.range 11).map (fun i => (i, { leaf := [⟨0, 0, true, 0, true⟩] })) }
/-- Where the entry of a descriptor stands: its execution has ended, or has parked on a translation fault. -/
def doneOf (i : Instr)
  (x : Bytes) : Option Bool := ((run i (zeroed (issued x))).entry 0 0).map (fun e => e.done || e.parked)

/-- SPARSE_MM 1 × 64 × 64 over zero operands: A at granule 0, payload at 1, D at 80, metadata at 90. -/
def spD (op : Nat) : Bytes := dsc op 0 0 0 8 [(8, 2, 0), (0xA, 2, 1), (0xC, 2, 1), (0xE, 2, 64), (0x10, 2, 80),
  (0x12, 2, 4), (0x14, 2, 90), (0x16, 2, 1), (0x28, 2, 1), (0x2A, 2, 64), (0x2C, 2, 64), (0x30, 4, 0x3F800000)]
theorem test_sparseMmNm : doneOf (.sparseMmNm 0 0) (spD 2) = some true := by decide +kernel
theorem test_sparseMmCsr : doneOf (.sparseMmCsr 0 0) (spD 3) = some true := by decide +kernel
theorem test_sparseSparseMerge : doneOf (.sparseSparseMerge 0 0) (dsc 4 0 0 0 8 [(8, 2, 0), (0xA, 2, 1), (0xC, 2, 1),
  (0xE, 2, 1), (0x10, 2, 80), (0x12, 2, 1), (0x28, 2, 1), (0x2A, 2, 1), (0x2C, 2, 1), (0x30, 4, 0x3F800000)]) =
    some true := by decide +kernel
/-- PRUNE of no tile. -/
def pruneD : Bytes := dsc 0x60 0 0 0 0 [(8, 2, 0), (0xA, 2, 64), (0x10, 2, 80), (0x12, 2, 64), (0x14, 2, 200),
  (0x16, 2, 64), (0x28, 2, 0), (0x2A, 1, 4)]
theorem test_prune : doneOf (.prune 0 0) pruneD = some true := by decide +kernel

/-- The operands of `ewS` and of the dot product `mmD` carry no errors. -/
theorem wit_ArrayStoresAtDst : CleanOperands (ewS 0) 0 (ewD 0) (.ew 0) 1 (Desc.count (ewD 0)) ∧
    CleanOperands (issued mmD) 0 mmD .dense (Desc.m mmD) (Desc.n mmD) ∧
    CleanOperands (redS 0) 0 (redD 0) (.reduce 0) 1 (Desc.rows (redD 0)) := by decide +kernel
theorem wit_FencedEntryWaits : ((ewS 0).pb (B.core 0) F.core_FENCED true).gb (B.core 0) F.core_FENCED = true :=
  by decide

/-- CMPGT and CMPEQ, RELU, MAX and MIN of a NaN (R79). -/
theorem wit_ArrayArithmetic : Val.isNeg (Val.ofInt (-1)) = true ∧ Val.isNeg (Val.ofInt 0) = false ∧
    Val.isNan (Val.ofInt 1) = false := by decide

/-- PREDICT of one output, and its audit, one input, one layer. -/
def predD : Bytes := dsc 0x61 0 0 0 0 [(8, 2, 0), (0xA, 2, 1), (0x10, 2, 80), (0x12, 2, 3), (0x28, 8, 0x10000),
  (0x30, 2, 1), (0x32, 2, 1), (0x34, 2, 1)]
def auditD : Bytes := dsc 0x61 0 0 0 0 [(8, 2, 0), (0xA, 2, 1), (0xC, 2, 2), (0xE, 2, 3), (0x10, 2, 80), (0x12, 2, 1),
  (0x30, 2, 1), (0x37, 1, 1)]
theorem wit_PredictAndStoreEnd : Ready (issued predD) 0 0 .predict { ended0 with desc := predD, done := false } ∧
    Desc.audit predD = false ∧ Desc.audit auditD = true := by decide +kernel
/-- COMPRESSING_STORE of no tile. -/
def storeD : Bytes := dsc 0x11 1 0 0 0 [(8, 2, 0), (0xA, 2, 64), (0x14, 2, 90), (0x16, 2, 1), (0x28, 8, 0),
  (0x30, 1, 0xFF), (0x34, 4, 0), (0x38, 4, 1)]
theorem wit_PredictAndStoreEnd_undisturbed : let d := zeroed (issued predD)
    d.anyHolds = false ∧ d.spindriftUp 0 = true ∧ (d.runPredict 0 0 false).csrPosts = d.csrPosts ∧
    ((zeroed (issued auditD)).runPredict 0 0 true).csrPosts = [] ∧ (zeroed (issued storeD)).feTagFree 0 = true ∧
    ((zeroed (issued storeD)).runStore 0 0).csrPosts = [] := by decide +kernel
theorem test_predict : doneOf (.predict 0 0) predD = some true := by decide +kernel
theorem test_predictAudit : doneOf (.predictAudit 0 0) auditD = some true := by decide +kernel
theorem test_compressingStore : (issued storeD).feReady (engineOf 0) = true ∧
    ((run (.compressingStore 0 0) (issued storeD)).entry 0 0).map (fun e => e.done || e.parked) = some true := by
  decide +kernel

/-- GATHER and SCATTER_ACC of one index, 5, with ROW_LIMIT 5: it names no row and is counted. -/
def rowD (op : Nat) : Bytes := dsc op 0 0 0 0 ((if op = 0x10 then [(0x10, 2, 80), (0x12, 2, 1)]
    else [(8, 2, 8), (0xA, 2, 1)]) ++ [(0xC, 2, 1), (0xE, 2, 1), (0x28, 8, 0), (0x30, 4, 64), (0x34, 4, 1), (0x38, 4, 5)])
def rowS (op : Nat) : Dev := put (issued (rowD op)) 1 [5, 0, 0, 0]
theorem wit_NoRowIndices : (rowS 0x10).feReady (engineOf 0) = true ∧ Desc.rowBytes (rowD 0x10) = 64 ∧
    ((rowS 0x10).indices 0 (engineOf 0) (rowD 0x10)).2.1 = [(5, false)] ∧ Desc.rowLimit (rowD 0x10) = 5 ∧
    Ready (rowS 0x10) 0 0 .gather { ended0 with desc := rowD 0x10, done := false } ∧
    Ready (rowS 0x11) 0 0 .scatter { ended0 with desc := rowD 0x11, done := false } ∧
    Desc.invalid (rowD 0x10) = none ∧ Desc.invalid (rowD 0x11) = none := by decide +kernel
theorem test_gather : ((run (.gather 0 0)
  (rowS 0x10)).entry 0 0).map (fun e => (e.done, e.res.oor)) = some (true, 1) := by
  decide +kernel
theorem test_scatterAcc : ((run (.scatterAcc 0 0) (rowS 0x11)).entry 0 0).map (fun e => (e.done, e.res.oor)) =
    some (true, 1) := by decide +kernel

/-- GATHER of one row, 4, at a mapped address: the granule of zeros there stands at DST. -/
def rowM : Dev := mapped (put (put (issued (rowD 0x10)) 1 [4, 0, 0, 0]) 80 [7])
theorem wit_GatherGranule : Ready rowM 0 0 .gather { ended0 with desc := rowD 0x10, done := false } ∧
    rowM.feReady (engineOf 0) = true ∧ rowM.feTagFree (engineOf 0) = true ∧ rowM.domUp (Dom.cluster 0) = true ∧
    Desc.invalid (rowD 0x10) = none ∧ Desc.idxCount (rowD 0x10) = 1 ∧ Desc.tableVa (rowD 0x10) % 64 = 0 := by
  decide +kernel
theorem wit_GatherGranule_read : let ix := rowM.indices 0 0 (rowD 0x10)
    let t := ix.1.translate 0 (Desc.ctx (rowD 0x10)) 0x200 (4 * 64) false
    ix.2.1 = [(4, false)] ∧ ix.2.2.2 = none ∧ t.2 = .inr 256 ∧
    (t.1.localAccess { sid := 0x200, ctx := Desc.ctx (rowD 0x10), secure := t.1.ctxSecure (Desc.ctx (rowD 0x10)),
                       pa := 256, wr := false, size := 64, data := [], poison := false, inner := true,
                       va := some 256 }).2.data = zeros 64 := by decide +kernel
theorem test_gather_granule : let d := run (.gather 0 0) rowM
    (d.entry 0 0).map (·.done) = some true ∧ Memory.readN rowM.ram (B.scratch 0 + 64 * 80) 1 = [7] ∧
    Memory.readN d.ram (B.scratch 0 + 64 * 80) 64 = zeros 64 ∧ rowM.anyHolds = false ∧
    (rowM.runGather 0 0).csrPosts = rowM.csrPosts := by decide +kernel
theorem wit_ScatterEnds : (rowS 0x11).anyHolds = false ∧ ((rowS 0x11).runScatter 0 0).csrPosts = [] ∧
    (rowS 0x11).feTagFree 0 = true := by decide +kernel

/-! ### Firn and Sastrugi -/

/-- Firn and Sastrugi are READY. -/
def blocks (x : Bytes) : Dev := ((zeroed (issued x)).pb B.firn F.firn_READY true).pb B.sastrugi F.sastrugi_READY true
/-- VOXELIZE of a PHASE; RULEBOOK_BUILD with a 3 × 3 kernel. -/
def voxD (phase : Nat) : Bytes := dsc 0x40 0 0 0 0 [(0x10, 2, 80), (0x12, 2, 1), (0x30, 1, phase), (0x32, 1, 1),
  (0x33, 1, 1), (0x34, 2, 1), (0x36, 1, 1)]
def rbD : Bytes := dsc 0x41 0 0 0 0 [(0x10, 2, 80), (0x12, 2, 1), (0x2E, 1, 1), (0x2F, 1, 1), (0x3E, 2, 1)]
/-- Where an entry stands after a command. -/
def went (i : Instr) (d : Dev) : Option Bool := ((run i d).entry 0 0).map (fun e => e.done || e.parked)
theorem wit_FirnEntriesEnd : (blocks (voxD 0)).domUp Dom.firn = true ∧
    (blocks (voxD 0)).gb B.firn F.firn_READY = true ∧
    (blocks (voxD 0)).firnTurn { ended0 with desc := voxD 0, done := false } = true ∧
    Ready (blocks (voxD 0)) 0 0 .voxelize { ended0 with desc := voxD 0, done := false } ∧
    Desc.param (voxD 1) 0x30 1 = 1 ∧ Ready (blocks rbD) 0 0 .rulebook { ended0 with desc := rbD, done := false } := by
  decide +kernel
theorem wit_FirnEntriesEnd_undisturbed : (blocks rbD).anyHolds = false ∧
    ((blocks (voxD 0)).runVoxBuild 0 0 none).csrPosts = [] ∧ ((blocks (voxD 1)).runVoxLabel 0 0).csrPosts = [] ∧
    ((blocks (voxD 2)).runVoxBev 0 0).csrPosts = [] ∧
      ((blocks rbD).runRulebook 0 0).csrPosts = [] := by decide +kernel
theorem test_voxelizeBuild : went (.voxelizeBuild 0 0 none) (blocks (voxD 0)) = some true := by decide +kernel
theorem test_voxelizeLabel : went (.voxelizeLabel 0 0) (blocks (voxD 1)) = some true := by decide +kernel
theorem test_voxelizeBev : went (.voxelizeBev 0 0) (blocks (voxD 2)) = some true := by decide +kernel
theorem test_rulebookBuild : went (.rulebookBuild 0 0) (blocks rbD) = some true := by decide +kernel
/-- TOPK_ROW with K 1 over a row of four INT8 scores, keyed or not, and TOPK_MERGE of no list. -/
def topD (merge : Nat) : Bytes := dsc 0x30 0 0 0 0 [(8, 2, 0), (0xA, 2, 1), (0x10, 2, 80), (0x12, 2, 3), (0x28, 2, 1),
  (0x2A, 1, merge), (0x2B, 1, merge), (0x2C, 2, 1 - merge), (0x2E, 2, merge), (0x30, 4, 4 * (1 - merge))]
theorem wit_TopkEntriesEnd : Ready (blocks (topD 0)) 0 0 .topk { ended0 with desc := topD 0, done := false } ∧
    (blocks (topD 0)).gb B.sastrugi F.sastrugi_READY = true ∧ Desc.topkMerge (topD 0) = false ∧
    Desc.topkMerge (topD 1) = true := by decide +kernel
/-- The same entry with every row started. -/
def begun (merge : Nat) : Dev := (blocks (topD merge)).modEntry 0 0 (fun e => { e with point := 1 })
theorem test_topkRow : went (.topkRow 0 0) (put (begun 0) 0 [3, 9, 250, 9]) = some true := by decide +kernel
theorem test_topkMerge : went (.topkMerge 0 0) (begun 1) = some true := by decide +kernel
theorem wit_TopkEntriesEnd_start : sasRows (topD 0) = 1 ∧ sasRows (topD 1) = 1 ∧
    (blocks (topD 0)).sasTurn { ended0 with desc := topD 0, done := false } = true ∧
    (blocks (topD 0)).entryAborted 0 { ended0 with desc := topD 0, done := false } = false ∧
    (blocks (topD 0)).sasLive = [] ∧
      ((blocks (topD 0)).p B.sastrugi F.sastrugi_ENG_EN 8).sasFree = [3] := by decide +kernel

/-! ### Counters -/

theorem wit_CountersClear : Writes on (.core 511) false mgr ∧
    Writes on (.spu 7) true mgr ∧ Writes on .firn false mgr ∧ Writes on .moraine false mgr ∧
    Writes on .sastrugi false mgr := by decide
theorem wit_CountersClear_2 : Writes on (.vault 7) false mgr ∧ Writes on (.fe 63) false mgr ∧
    Writes on (.region 7) false mgr ∧ Writes on (.link 5) false mgr ∧ Writes on (.link 0) true mgr ∧
    Writes on .rime false mgr ∧ Writes on .sec true mgr ∧ Writes on .pcc false mgr ∧
      Writes on .mmp false mgr := by decide
theorem test_bankCntClr : let d := run (.bankCntClr mgr 511) ((on.p (B.core 511) F.core_SP_CE_CNT 7).p (B.core 511)
      F.core_ISSUE_CNT 9)
    d.g (B.core 511) F.core_SP_CE_CNT = 0 ∧ d.g (B.core 511) F.core_ISSUE_CNT = 9 := by decide
theorem test_sparseCntClr : (run (.sparseCntClr mgr 7) (on.p (B.spu 7) F.spu_SPARSE_OOB_CNT 7)).g (B.spu 7)
    F.spu_SPARSE_OOB_CNT = 0 := by decide
theorem test_recallClr : (run (.recallClr mgr 7) (on.p (B.spu 7) F.spu_RECALL_HIT 7 255)).g (B.spu 7)
    F.spu_RECALL_HIT 255 = 0 := by decide +kernel
theorem test_firnCntClr : (run (.firnCntClr mgr)
  (on.p B.firn F.firn_FRAMES_BUILT 7)).g B.firn F.firn_FRAMES_BUILT = 0 := by
  decide +kernel
theorem test_morCntClr : (run (.morCntClr mgr)
  (on.p B.moraine F.moraine_STALE_CNT 7)).g B.moraine F.moraine_STALE_CNT =
    0 := by decide +kernel
theorem test_sasCntClr : (run (.sasCntClr mgr) (on.p B.sastrugi F.sastrugi_INSERT_CNT 7)).g B.sastrugi
    F.sastrugi_INSERT_CNT = 0 := by decide +kernel
theorem test_vltCntClr : (run (.vltCntClr mgr 7)
  (on.p (B.vault 7) F.vault_UE_CNT 7)).g (B.vault 7) F.vault_UE_CNT = 0 := by
  decide +kernel
theorem test_feCntClr : let d := run (.feCntClr mgr 63) ((on.p (B.fe 63) F.fe_RING_DONE_CNT 7).p (B.fe 63)
      F.fe_GRANULES_MOVED 9)
    d.g (B.fe 63) F.fe_RING_DONE_CNT = 0 ∧ d.g (B.fe 63) F.fe_GRANULES_MOVED = 9 := by decide +kernel
theorem test_tcCntClr : (run (.tcCntClr mgr 7) (on.p (B.region 7) F.region_TC_HIT_CNT 7)).g (B.region 7)
    F.region_TC_HIT_CNT = 0 := by decide +kernel
theorem test_linkCntClr : (run (.linkCntClr mgr 5)
  (on.p (B.link 5) F.link_REPLAY_CNT 7)).g (B.link 5) F.link_REPLAY_CNT =
    0 := by decide +kernel
theorem test_sysCntClr : (run (.sysCntClr mgr)
  (on.p B.link0 F.link0_GCM_FAIL_CNT 7)).g B.link0 F.link0_GCM_FAIL_CNT = 0 := by
  decide +kernel
theorem test_rimeCntClr : (run (.rimeCntClr mgr) (on.p B.rime F.rime_PAIR_CNT 7)).g B.rime F.rime_PAIR_CNT = 0 := by
  decide +kernel
theorem test_secCntClr : (run (.secCntClr mgr)
  (on.p B.sec F.sec_UNWRAP_FAIL_CNT 7)).g B.sec F.sec_UNWRAP_FAIL_CNT = 0 := by
  decide +kernel
theorem test_pccCntClr : (run (.pccCntClr mgr) (on.p B.pcc F.pcc_VWIN_CNT 7)).g B.pcc F.pcc_VWIN_CNT = 0 := by
  decide +kernel
theorem test_mmpCntClr : let d := run (.mmpCntClr mgr 1) ((on.p B.mmp F.mmp_DB_CNT 7 1).p B.mmp F.mmp_DB_CNT 9 0)
    d.g B.mmp F.mmp_DB_CNT 1 = 0 ∧ d.g B.mmp F.mmp_DB_CNT 0 = 9 := by decide +kernel

/-! ### Moraine -/

theorem test_sensorSlotWrite : let d := run (.sensorSlotWrite mgr 63 (0xABCD + 2 ^ 16)) on
    d.g B.firn F.firn_SENSOR_ID 63 = 0xABCD ∧ d.gb B.firn F.firn_SLOT_EN 63 = true ∧
    d.gb B.firn F.firn_ARMED 63 = false := by decide +kernel
theorem test_firnReady : on.gb B.firn F.firn_READY = false ∧
  (run .firnReady on).gb B.firn F.firn_READY = true := by decide +kernel
theorem test_moraineReady : on.dict.inForce = [] ∧ (run .moraineReady on).gb B.moraine F.moraine_READY = true := by
  decide +kernel
theorem test_sastrugiReady : (run .sastrugiReady on).gb B.sastrugi F.sastrugi_READY = true := by decide +kernel
theorem test_engEnWrite : Writes on .sastrugi true mgr ∧
    (run (.engEnWrite mgr 5) on).g B.sastrugi F.sastrugi_ENG_EN = 5 ∧
    (run (.engEnWrite mgr 16) on).g B.sastrugi F.sastrugi_ENG_EN = on.g B.sastrugi F.sastrugi_ENG_EN :=
      by decide +kernel

/-- Table 63 is enabled; Moraine holds one message of it. -/
def mor : Dev := (on.pb B.moraine F.moraine_READY true).pb B.moraine F.moraine_TBL_EN true 63
def msg (kind : Nat) : MorMsg := { kind := kind, table := 63, src := 1, orig := 2, key := 7,
                                   items := [{ pos := 0, key := 7 }] }
def got (m : MorMsg) : Dev := { mor with mor := { mor.mor with inbox := [m] } }
theorem wit_MessagesHeld : Message (got (msg 1)) 1 (msg 1) ∧ (msg 1).next = false ∧ Message (got (msg 4)) 4 (msg 4) ∧
    Message (got (msg 3)) 3 (msg 3) ∧ (got (msg 3)).morDests 63 = [] ∧ ((got (msg 3)).ownStep 63 0).closed = false ∧
      Message (got (msg 5)) 5 (msg 5) ∧
    ((got (msg 5)).morTab 63).applied ≤ (msg 5).step := by decide +kernel
theorem test_req : ((run .req (got (msg 1))).ownStep 63 0).reqs = [⟨1, false, { pos := 0, key := 7 }⟩] ∧
    ((run .req (got (msg 1))).ownStep 63 0).reqFrom = [1] := by decide +kernel
theorem test_fwdReq : ((run .fwdReq (got (msg 4))).ownStep 63 0).reqs = [⟨2, true, { pos := 0, key := 7 }⟩] := by
  decide +kernel
theorem test_upd : ((run .upd (got (msg 3))).ownStep 63 0).upds = [⟨1, false, { pos := 0, key := 7 }⟩] := by
  decide +kernel
theorem test_fwdUpd : ((run .fwdUpd (got (msg 5))).ownStep 63 0).upds = [⟨2, true, { pos := 0, key := 7 }⟩] := by
  decide +kernel

/-- A batch of two keys of entry 0 of core 0, of which neither is answered. -/
def batch : MorBatch :=
  { core := 0, slot := 0, table := 63, step := 0, upd := false, ctx := 0, rowsVa := 0, statVa := 0,
                          owners := [1, 1], answers := [none, none], sent := true }
def mapD (op : Nat) : Bytes := dsc op 0 0 0 0 [(0x10, 2, 80), (0x12, 2, 1), (0x28, 8, 0)]
def waiting (m : List MorMsg) : Dev :=
  let d := mapped (((issued (mapD 0x50)).pb B.moraine F.moraine_READY true).pb B.moraine F.moraine_TBL_EN true 63)
  { d with mor := { d.mor with batches := [batch], inbox := m } }
theorem wit_BatchesAnswered : Message (waiting [msg 2]) 2 (msg 2) ∧
    (waiting [msg 2]).mor.batches.find? (fun x => x.table == 63 && x.step == 0 && x.upd == false) = some batch ∧
    (waiting [msg 2]).morBatch 0 0 = some batch ∧
    batch.sentAt + 2000 * (waiting []).g B.moraine F.moraine_STEP_TIMEOUT_US ≤ ({ waiting [] with varve := 2 ^ 40 } : Dev).varve := by
  decide +kernel
theorem wit_BatchesAnswered_undisturbed : (waiting [msg 2]).anyHolds = false ∧
    (waiting [msg 2]).morResp.csrPosts = [] ∧
    (({ waiting [] with varve := 2 ^ 40 } : Dev).morTimeoutReq 0 0).csrPosts = [] := by decide +kernel
theorem test_resp : ((run .resp (waiting [msg 2])).morBatch 0 0).map (fun b => b.answers.map (·.isSome)) =
    some [true, false] := by decide +kernel
theorem test_stepTimeoutRequester : let d := run (.stepTimeoutRequester 0 0) { waiting [] with varve := 2 ^ 40 }
    d.morBatch 0 0 = none ∧ (d.entry 0 0).map (·.done) = some true := by decide +kernel
theorem wit_BatchesBegin : let d := (issued (mapD 0x50)).pb B.moraine F.moraine_READY true
    d.morUp = true ∧ d.morBatch 0 0 = none ∧ d.mor.tabs = [] ∧
    Ready d 0 0 .mapLookup { ended0 with desc := mapD 0x50, done := false } := by decide +kernel
theorem wit_BatchesBegin_undisturbed : let d := fun k => (zeroed (issued (mapD k))).pb B.moraine F.moraine_READY true
    (d 0x50).anyHolds = false ∧ ((d 0x50).runMap 0 0 false).csrPosts = [] ∧
    ((d 0x51).runMap 0 0 true).csrPosts = [] := by decide +kernel
theorem test_mapLookup :
    let d := run (.mapLookup 0 0) ((zeroed (issued (mapD 0x50))).pb B.moraine F.moraine_READY true)
    (d.entry 0 0).map (fun e => e.done || (d.morBatch 0 0).isSome) = some true := by decide +kernel
theorem test_mapUpdate :
    let d := run (.mapUpdate 0 0) ((zeroed (issued (mapD 0x51))).pb B.moraine F.moraine_READY true)
    (d.entry 0 0).map (fun e => e.done || (d.morBatch 0 0).isSome) = some true := by decide +kernel

/-- Table 63 holds a look-up of step 1; step 0 is the one whose update part is next. -/
def held : Dev :=
  let d := mapped (got { msg 1 with step := 1 })
  run .req { d with mor := { d.mor with tabs := [(63, { steps := [(0, { reqFrom := [0], updFrom := [0] })] })] } }
theorem wit_StepsServed : held.morUp = true ∧ held.gb B.moraine F.moraine_TBL_EN 63 = true ∧
    1 ≤ (held.morTab 63).applied + 1 ∧
    (held.ownStep 63 1).reqs.any (fun h => !held.calvingOf 63 h.item.key) = true ∧ (held.ownStep 63 0).reqs = [] ∧
    held.updComplete 63 0 (held.ownStep 63 0) = true := by decide +kernel
theorem wit_StepsServed_undisturbed : held.anyHolds = false ∧ (held.lookupServe 63 1).csrPosts = [] ∧
    (held.morTab 63).applied = 0 ∧ (held.ownStep 63 0).upds = [] ∧ (held.updateApply 63 0).csrPosts = [] := by
  decide +kernel
theorem test_lookupServe : ((run (.lookupServe 63 1) held).ownStep 63 1).reqs = [] ∧
    ((run (.lookupServe 63 1) held).ownStep 63 1).served = [7] := by decide +kernel
theorem test_updateApply : ((run (.updateApply 63 0) held).morTab 63).applied = 1 := by decide +kernel
/-- An UPD of package 1 has come at time 0 for a table shared with packages 1 and 2. -/
theorem test_descriptor_write : let d := run (.tableDescriptorWrite mgr 63 4 (2 ^ 32 - 1)) on
    d.g B.moraine F.moraine_ROWS_LOCAL 63 = 2 ^ 32 - 1 := by decide +kernel
/-- The package is number 0 of a ring of two, with port 0 UP and job-key slot 0 LOADED for both packages. -/
def linked (d : Dev) : Dev :=
  let d := ((d.p B.link0 F.link0_DIM_X 2).pb B.link0 F.link0_TOPO_EN true).p (B.link 0) F.link_STATE 3
  (d.p B.sec F.sec_JK_STATE 1 0).p B.sec F.sec_JK_PEERS 3 0

/-- The link has no credit left on VC 2. Table 63 is shared with package 1 and holds a row of key 0; the update part of step 0 is applied. -/
def calving : Dev :=
  let d := (linked (mapped mor)).setPort 0 { sent := [(2, List.replicate 64 0)] }
  let d := (d.p B.moraine F.moraine_PEER_COUNT_M1 1 63).p B.moraine F.moraine_PEER_LIST0 0x100 63
  { d with mor := { d.mor with tabs := [(63, { applied := 1 })] } }
/-- A stub of key 7 that waits for package 2's acknowledgement, and one still to be acknowledged as calved. -/
def owed (stub : Bool) : Calving := ⟨63, 7, 1, 0, 0, stub, []⟩
theorem wit_CalvingMoves : calving.morUp = true ∧ (calving.morTab 63).applied = 1 ∧ (calving.morTab 63).steps = [] ∧
    (calving.morTab 63).fwdFrom = [] ∧ calving.mor.calving = [] ∧ (calving.morFind 63 0).2.1.isSome = true ∧
    ((calving.morFind 63 0).1.morOwner 63 0).1 = 0 ∧ calving.pkgId = 0 ∧
    1 ∈ (calving.morFind 63 0).1.morPeers 63 := by decide +kernel
theorem wit_CalvingMoves_undisturbed : calving.anyHolds = false ∧ calving.calvingOf 63 0 = false ∧
    (calving.morFind 63 0).1.stubFor 63 0 = none ∧
    ((calving.morFind 63 0).1.morSend 1 { kind := 6, table := 63, src := 0, orig := 0, epoch := 1
                                          items := [{ pos := 0, row := zeros 64 }] }).2 = true ∧
    (calving.calveStart 63 0 1).csrPosts = [] := by decide +kernel
theorem test_calveStart : (run (.calveStart 63 0 1) calving).mor.calving.map (fun c => (c.table, c.key, c.owner,
  c.stub)) =
    [(63, 0, 1, false)] := by decide +kernel
/-- The new owner takes the row of key 0. -/
theorem test_calve : let d := { calving with mor := { calving.mor with inbox := [{ msg 6 with key := 0 }] } }
    ((Taken d { msg 6 with key := 0 }).morFind 63 0).2.1.isSome = true ∧
    ((run .calve d).morTab 63).fwdFrom.map (·.1) = [1] := by decide +kernel
def acked (stub : Bool) (kind epoch : Nat) : Dev :=
  { mapped mor with mor := { inbox := [{ msg kind with epoch := epoch }], calving := [owed stub],
                             ovr := [(0, ⟨7, 63, 1, true, false, 0⟩)] } }
theorem wit_CalveAck : Message (acked false 7 1) 7 { msg 7 with epoch := 1 } ∧
    (acked false 7 1).mor.calving.find? (fun c => !c.stub && c.table == 63 && c.key == 7 && c.owner == 1) =
      some (owed false) ∧ (acked false 7 1).anyHolds = false ∧ (acked false 7 1).calveAck.csrPosts = [] := by
  decide +kernel
theorem test_calveAck : (run .calveAck (acked false 7 1)).mor.calving = [owed true] ∧
    (run .calveAck (acked false 7 0)).mor.calving = [] := by decide +kernel
theorem wit_DirectoryMessages : Message (got (msg 8)) 8 (msg 8) ∧
    ((got (msg 8)).mor.ovr.filter (fun o => o.2.valid)).length < 4096 ∧ (got (msg 8)).anyHolds = false ∧
    ({ mor with mor := { mor.mor with inbox := [msg 8], ovr := [(0, ⟨7, 63, 2, true, false, 0⟩)] } } : Dev).dirOvr.csrPosts =
      [] := by decide +kernel
/-- A directory of packages 1, 2 and 0: package 2 is still to acknowledge. -/
theorem test_dirAck : let d := (((acked true 9 0).p B.moraine F.moraine_PEER_COUNT_M1 2 63).p B.moraine
      F.moraine_PEER_LIST0 0x000201 63)
    2 ∈ d.morPeers 63 ∧ (run .dirAck d).mor.calving = [{ owed true with acks := [1] }] := by decide +kernel
/-- Every package of the directory has acknowledged: the stub is gone, and the new owner is to be told. -/
def answered : Dev := (acked true 9 0).p B.moraine F.moraine_PEER_LIST0 1 63
theorem wit_DirectoryMessages_freed : answered.morPeers 63 = [1] ∧ answered.mor.calving = [owed true] ∧
    (answered.morTab 63).steps = [] ∧ answered.tags = [] ∧ answered.unsent = [] ∧ answered.anyHolds = false ∧
    answered.dirAck.csrPosts = [] := by decide +kernel
theorem test_stub_freed : (run .dirAck answered).mor.calving = [] ∧
  ((run .dirAck answered).morTab 63).freedTo = [1] := by
  decide +kernel

theorem wit_DirectoryRegisters : Writes mor .moraine true mgr ∧ mor.mor.ovr.getD 0 {} = {} ∧
    mor.calvingOf 0 0 = false := by decide
theorem test_ovrWrite_read : let d := run (.ovrWrite mgr) (((mor.p B.moraine F.moraine_OVR_IDX 4095).p B.moraine
      F.moraine_OVR_OWNER 63).pb B.moraine F.moraine_OVR_VALID true)
    (d.mor.ovr.getD 4095 {}).owner = 63 ∧ (d.mor.ovr.getD 4095 {}).valid = true ∧
    (run (.ovrRead mgr) (d.p B.moraine F.moraine_OVR_OWNER 0)).g B.moraine F.moraine_OVR_OWNER = 63 :=
      by decide +kernel
/-- Entry 0 is a stub's: it is kept, and the write raised. -/
theorem test_ovrWrite_refused : let d := { mor with mor := { mor.mor with ovr := [(0, ⟨7, 63, 1, true, true, 0⟩)] } }
    (d.mor.ovr.getD 0 {}).stub = true ∧ (run (.ovrWrite mgr) d).mor.ovr = d.mor.ovr := by decide +kernel
theorem test_hotClr : (run (.hotClr mgr) { mor with mor := { mor.mor with hot := [(63, 7, 1)] } }).mor.hot = [] := by
  decide +kernel
/-- A step whose update part began at time 0 and lacks messages. -/
theorem test_stepTimeoutOwner : let d := { run .upd (got (msg 3)) with varve := 2 ^ 40 }
    (d.ownStep 63 0).first = some 0 ∧ d.updComplete 63 0 (d.ownStep 63 0) = false ∧
    ((run (.stepTimeoutOwner 63 0) d).ownStep 63 0).closed = true ∧
    (run (.stepTimeoutOwner 63 0) d).g B.moraine F.moraine_STEP_TIMEOUT_CNT = 1 := by decide +kernel
/-- 2 × ROWS_LOCAL may not exceed 2^INDEX_LOG2 (R186). -/
theorem test_tableDescriptorWrite : (on.p B.moraine F.moraine_INDEX_LOG2 10 63).gb B.moraine F.moraine_TBL_EN 63 = false ∧
    (run (.tableDescriptorWrite mgr 63 0 (1 + 10 * 256)) (on.p B.moraine F.moraine_ROWS_LOCAL 513 63)).gb B.moraine
      F.moraine_TBL_EN 63 = false := by decide +kernel
theorem wit_TableRegisters : mor.gb B.moraine F.moraine_TBL_EN 63 = true ∧ (mor.morTab 63).opened = [] ∧
    (run (.tableDescriptorWrite mgr 63 0 0) mor).gb B.moraine F.moraine_TBL_EN 63 = false := by decide +kernel

/-! ### Vaults, flow engines, contexts -/

/-- Vault 0 serves. -/
def served : Dev := on.pb (B.vault 0) F.vault_READY true
/-- A write of a line, and the vault that holds it. -/
def line (b : Byte) : LineWrite := ⟨⟨5, 0, false⟩, 0, List.replicate 64 b, false⟩
theorem wit_VaultLines : (served.vaultOf 0).1 = 0 ∧ served.vaultUp 0 = true ∧
    served.vaultHolds 0 = false ∧ served.tagFree (.vault 0) = true ∧ served.stalled = [] ∧
    served.pcc.dramDead = false ∧
    (run (.vaultWrite [line 9] []) served).lineAt 0 0 =
      some ⟨List.replicate 64 9, 0, false, false, (served.keyOf 0).2, (served.keyOf 0).1, 0, []⟩ := by decide +kernel
theorem test_vaultWrite_read : (run (.vaultRead ⟨5, 0, false⟩ 0 []) (run (.vaultWrite [line 9] []) served)).resp =
    some ⟨List.replicate 64 9, false, 0, 0⟩ := by decide +kernel
/-- A line of an initialised vault reads zero. -/
theorem test_vaultRead_zero : (run (.vaultRead ⟨5, 0, false⟩ 0 []) (served.setVlt 0 { zeroed := true })).resp =
    some ⟨zeros 64, false, 0, 0⟩ := by decide +kernel
theorem test_vaultRefresh : run (.vaultRefresh 7 0) served = served := by rfl
/-- The scrubber of vault 0 stands at its last line. -/
def scrubbing : Dev := (served.pb (B.vault 0) F.vault_SCRUB_EN true).setVlt 0 { zeroed := true, scrubNext := 3145727 }
theorem test_scrubRead : ((run (.scrubRead 0 []) scrubbing).vlt 0).scrubNext = 0 := by decide +kernel
theorem test_vaultReady : let d := run (.vaultReady 7) (on.pb (B.vault 7) F.vault_TRAINING true)
    d.gb (B.vault 7) F.vault_READY = true ∧ d.gb (B.vault 7) F.vault_TRAINING = false := by decide
theorem wit_VaultUpkeep : Writes served (.vault 0) true mgr ∧ (run (.initStart mgr 0) served).gb (B.vault 0)
    F.vault_INIT_BUSY = true ∧ (run (.initStart mgr 0) served).heldReq = [] := by decide
/-- A read that reached vault 0 while it was being initialised: INIT_DONE takes it up (R250). -/
def waitsInit : Dev := run (.vaultRead ⟨5, 0, false⟩ 0 []) (run (.initStart mgr 0) served)
theorem wit_VaultInit_held : waitsInit.heldReq.length = 1 ∧
    waitsInit.heldReq.filter (fun q => (waitsInit.vaultOf q.pa).1 == 0) = waitsInit.heldReq ∧
      waitsInit.vaultUp 0 = true ∧
    waitsInit.gb (B.vault 0) F.vault_READY = true ∧ waitsInit.tagFree (.vault 0) = true ∧ waitsInit.stalled = [] := by
  decide +kernel
theorem test_initDone_held : (run (.initDone 0) waitsInit).heldReq = [] ∧
  (run (.initDone 0) waitsInit).tags.length = 1 := by
  decide +kernel
theorem test_initDone : let d := run (.initDone 0) (run (.initStart mgr 0) served)
    d.gb (B.vault 0) F.vault_INIT_BUSY = false ∧ d.gb (B.vault 0) F.vault_INIT_DONE = true ∧
    d.lineAt 0 0x5FFFFFF = some zeroLine := by decide +kernel

theorem wit_RingRegisters : Writes on (.fe 63) false mgr ∧ on.funcClosed (0x40 + 63) = false ∧
    Writes on (.fe 63) true mgr ∧ on.gb B.mgmt F.mgmt_DIS_BUSY = false := by decide
/-- RING_LOG2 4: sixteen entries may be outstanding, seventeen not. -/
theorem test_ringProdWrite : let d := on.p (B.fe 63) F.fe_RING_LOG2 4
    (run (.ringProdWrite mgr 63 16) d).g (B.fe 63) F.fe_PROD = 16 ∧
    (run (.ringProdWrite mgr 63 17) d).g (B.fe 63) F.fe_PROD = 0 := by decide
theorem test_ringEnWrite : let d := run (.ringEnWrite mgr 63 0xF1) on
    d.gb (B.fe 63) F.fe_RING_EN = true ∧ d.g (B.fe 63) F.fe_RING_CTX = 15 := by decide

/-- A transfer descriptor of one granule; engine 0 runs it as entry 0, or holds it at the head of its ring in DRAM. -/
def tfr (op flags src dst pattern : Nat) : Bytes :=
  record 64 [(0, [byte op, byte flags]), (8, natLE 8 src), (16, natLE 8 dst), (24, [1]), (28, [1]), (0x3C,
    natLE 4 pattern)]
def moving (x : Bytes) : Dev :=
  (mapped coded).setEng 0 { (on.eng 0) with run := [{ entry := 0, desc := x, pa := 0 }] }
def fillD : Bytes := tfr 2 2 0 0x1FF3FFF 0xA1B2C3D4
def copyD : Bytes := tfr 1 3 0x1FF3FFF 0 0
theorem wit_TransfersMove : Tfr.op fillD = 2 ∧ (moving fillD).feReady 0 = true ∧
    (moving fillD).feAborted 0 (tCtx fillD) = false ∧ Tfr.invalid fillD 0 = false ∧ Tfr.dstSp fillD = true ∧
    Tfr.total fillD = 1 ∧ Tfr.op copyD = 1 ∧ Tfr.srcSp copyD = true ∧ Tfr.invalid copyD 0 = false ∧
    on.memUp 0x101FFFFFC0 = some true := by decide +kernel
theorem wit_TransfersMove_admitted : let q : Req :=
  { sid := 0x200, ctx := 0, secure := true, pa := 0x101FFFFFC0, wr := true, size := 64,
                                                       inner := true }
    (moving fillD).ctxSecure (tCtx fillD) = true ∧ (moving fillD).pathUp q = true ∧
      ((moving fillD).fwCheck q).2 = true ∧
    (moving copyD).feTagFree 0 = true ∧ (moving copyD).pathUp { q with wr := false } = true ∧
    ((moving copyD).fwCheck { q with wr := false }).2 = true ∧ (moving copyD).sramErr 0x101FFFFFC0 = [] := by
  decide +kernel
/-- The last granule of core 511's scratchpad takes the pattern sixteen times, and is copied to core 0. -/
theorem test_fill : Memory.readN (run (.fill 0 0) (moving fillD)).ram 0x101FFFFFC0 8 =
    natLE 4 0xA1B2C3D4 ++ natLE 4 0xA1B2C3D4 := by decide +kernel
theorem test_copy : Memory.readN (run (.copy 0 0) { moving copyD with
    ram := Memory.writeN [] 0x101FFFFFC0 [1, 2, 3] }).ram 0x1000000000 4 = [1, 2, 3, 0] := by decide +kernel
/-- SUBMIT of the NOP at VA 0 to core 511: an initialised DRAM reads zero. -/
theorem test_submitTransfer : ((run (.submitTransfer 0 0) (moving (tfr 3 2 0 0x1FF0000 0))).core 511).q.map (·.desc) =
    [zeros 64] := by decide +kernel
theorem test_ringEntryComplete : ((run (.ringEntryComplete 0 0) ((mapped coded).setEng 0 { (on.eng 0) with
    run := [{ entry := 0, desc := fillD, pa := 0, moved := true }] })).eng 0).run = [] := by decide +kernel
/-- The ring of engine 0 lies at VA 0 and holds a FILL there. -/
def ringed : Dev :=
  let d := run (.vaultWrite [⟨⟨5, 0, false⟩, 0, fillD, false⟩] []) (mapped coded)
  (d.pb (B.fe 0) F.fe_RING_EN true).p (B.fe 0) F.fe_PROD 1
theorem wit_RingEntriesRun : ringed.gb (B.fe 0) F.fe_RING_EN = true ∧ ringed.feReady 0 = true ∧
    (ringed.eng 0).headParked = false ∧ ringed.ringNext 0 = 0 ∧ ringed.g (B.fe 0) F.fe_PROD = 1 ∧
    ringed.ctxState 0 = 1 ∧ (ringed.translate 0 0 0x200 0 false).2 = .inr 0 ∧ Tfr.waitEn fillD = false ∧
    Tfr.sigEn fillD = false := by decide +kernel
theorem wit_RingEntriesRun_undisturbed : ringed.anyHolds = false ∧ (ringed.ringEntryStart 0).csrPosts = [] ∧
    (ringed.ringWait 0 fillD).ringMayStart 0 0 fillD = true ∧ ringed.feAborted 0 (tCtx fillD) = false ∧
    ringed.feAborted 0 0 = false ∧ Tfr.invalid fillD 0 = false := by decide +kernel
theorem test_ringEntryStart : ((run (.ringEntryStart 0) ringed).eng 0).run.map (fun r => (r.entry, r.desc)) =
    [(0, fillD)] := by decide +kernel

theorem wit_Translation : 0x12345 < 2 ^ (mapped on).g B.mgmt F.mgmt_VA_BITS 0 ∧ ((mapped on).tc 8).leaf.find?
    (fun t => t.hits 0 0x12345) = some ⟨0, 0, true, 0, true⟩ := by decide
theorem test_translationWalk : (run (.translationWalk 8 0 5 0x12345 true) (mapped on)).resp =
    some ⟨natLE 8 0x12345, false, 0, 0⟩ ∧
    (run (.translationWalk 8 0 5 (2 ^ 30) false)
      (mapped on)).resp = some ⟨zeros 8, true, 0x020B, 2 ^ 14⟩ := by decide +kernel
theorem test_invGo : ((run (.invGo mgr 16) (mapped on)).tc 10).leaf = [] ∧
    (run (.invGo mgr 16) (mapped on)).gb B.mgmt F.mgmt_INV_BUSY = true := by decide +kernel
theorem test_xlInvDone : (run .xlInvDone (on.pb B.mgmt F.mgmt_INV_BUSY true)).gb B.mgmt F.mgmt_INV_BUSY = false := by
  decide +kernel
theorem wit_Isolation : Writes on .mgmt true mgr ∧ on.ctxState 15 = 0 ∧ isFunc 0x10 = true ∧
    on.gb B.mgmt F.mgmt_DIS_BUSY = false ∧ on.funcOff 0x10 = false := by decide
/-- Context 15 is being disabled: an ENABLE of it is ignored and counted (R282). -/
def dising : Dev := (on.pb B.mgmt F.mgmt_DIS_BUSY true).p B.mgmt F.mgmt_DIS_FUNC 15
theorem test_enable_rejected : (run (.enable mgr 15) dising).ctxState 15 = 0 ∧
    (run (.enable mgr 15) dising).g B.mgmt F.mgmt_DIS_REJECT = 1 := by decide +kernel
theorem wit_ContextCommands : (on.p B.mgmt F.mgmt_STATE 3 15).colls = [] ∧
    ((on.p B.mgmt F.mgmt_STATE 3 15).ctxResume 15).csrPosts = [] ∧
    (on.funcDisableCmd 0x10 false).csrPosts = [] ∧ on.isOff 0x10 = false ∧ on.anyHolds = false := by decide +kernel
theorem test_enable : (run (.enable mgr 15) on).ctxState 15 = 1 := by decide +kernel
theorem test_suspend : (run (.suspend mgr 15) (on.p B.mgmt F.mgmt_STATE 1 15)).ctxState 15 = 3 := by decide +kernel
theorem test_resume : (run (.resume mgr 15) (on.p B.mgmt F.mgmt_STATE 3 15)).ctxState 15 = 1 := by decide +kernel
theorem test_funcDisable : (run (.funcDisable mgr 0x10 false) on).funcOff 0x10 = true ∧
    (run (.funcEnable mgr 0x10) (run (.funcDisable mgr 0x10 false) on)).funcOff 0x10 = false := by decide +kernel
theorem test_regionDescriptorWrite : let d := run (.regionDescriptorWrite mgr 63 8 0x00020000) on
    d.g B.mgmt F.mgmt_RD_LIMIT 63 = 2 ∧
    (run (.regionDescriptorWrite mgr 63 0x10 1)
      (d.p B.mgmt F.mgmt_RD_BASE 3 63)).gb B.mgmt F.mgmt_RD_EN 63 = false := by
  decide +kernel

/-! ### Sync objects and mailboxes -/

/-- Object 16383 is enabled for every core of every context. -/
def obj : Dev := run (.syncCfgWrite mgr 16383 0xFF3FF) on
theorem wit_SyncObjects : Writes on (.sync 16383) false mgr ∧ on.syncWatch 16383 = [] ∧
    on.syncDeny 16383 mgr.sid mgr.ctx ≠ none ∧ obj.syncDeny 16383 mgr.sid mgr.ctx = none ∧
    nextChange ((run (.sigAdd mgr 16383 5) obj).syncPending.getD 16383 []) = some (⟨0, mgr.sid, some 5, false⟩,
      []) := by
  decide +kernel
theorem test_syncCfgWrite : obj.gb (B.sync 16383) F.sync_OBJ_EN = true ∧
    obj.g (B.sync 16383) F.sync_OBJ_CTX = 15 := by decide +kernel
theorem test_sigAdd_apply : (run (.syncChangeApply 16383)
  (run (.sigAdd mgr 16383 5) obj)).g (B.sync 16383) F.sync_COUNT =
    5 := by decide +kernel
/-- An object that is off refuses: counted, nothing waits. -/
theorem test_sigAdd_denied : (run (.sigAdd mgr 16383 5) on).syncPending = [] ∧
    (run (.sigAdd mgr 16383 5) on).dcnt 0x7010 1 = 1 := by decide +kernel

/-- A waiter at the object: its configuration keeps (R296). -/
theorem wit_SyncConfiguration : let d := { obj with watchers := [(16383, [⟨.core 0 0, false, 9⟩])] }
    d.syncWatch 16383 ≠ [] ∧ (run (.syncCfgWrite mgr 16383 0) d).gb (B.sync 16383) F.sync_OBJ_EN = true ∧
    Writes (on.p B.mgmt F.mgmt_BLK_SECURE 0) (.sync 16383) false app := by decide +kernel

/-- Mailbox 63 is on, SHARED; or with channel 7 owned by the sender. -/
def mbx : Dev := on.pb (B.mbx 63) F.mbx_MBX_EN true
def chan7 : Dev := ((mbx.pb (B.mbx 63) F.mbx_MODE true).p (B.mbx 63) F.mbx_CH_SID 0x270 7)
theorem wit_MailboxSlots : Writes mbx (.mbx 63) false mgr ∧ mbx.gb (B.mbx 63) F.mbx_MODE = false ∧
    (List.range 8).find? (fun k => chan7.g (B.mbx 63) F.mbx_CH_SID k == mgr.sid) = some 7 ∧
    (chan7.mbxSlot 63 7).full = false ∧ on.gb (B.mbx 63) F.mbx_MBX_EN = false := by decide +kernel
theorem test_mailboxSend : ((run (.mailboxSend mgr 63 [1, 2]) chan7).mbxSlot 63 7).msg = [1, 2] ++ zeros 62 ∧
    ((run (.mailboxSend mgr 63 [1, 2]) chan7).mbxSlot 63 0).full = false ∧
    (run (.mailboxSend mgr 63 [1, 2]) on).g (B.mbx 63) F.mbx_REFUSE_CNT = 1 := by decide +kernel
theorem test_popCh : ((run (.popCh mgr 63 7) (run (.mailboxSend mgr 63 [1]) chan7)).mbxSlot 63 7).full = false := by
  decide +kernel
theorem test_mbxTimeout : let d := { run (.mailboxSend mgr 63 [1]) chan7 with varve := 2 ^ 50 }
    on.answers (.mbx 63) = true ∧
      bit ((run (.mbxTimeout 63 7) d).g (B.mbx 63) F.mbx_TMO) 7 = true := by decide +kernel

/-! ### The host port -/

/-- Channel 1 takes bursts, is trained, and row 7 of bank 15 is open. -/
def burst : Dev := run (.act 1 15 7 false) ready
theorem wit_ChannelCommands : ready.chTakes 1 = true ∧ ready.chServes 1 = true ∧ (ready.chan 1).mrs = [] := by decide
theorem test_act : (burst.chan 1).rows = [(15, 7)] := by decide
theorem test_pre : ((run (.pre 1 15 false false) burst).chan 1).rows = [] ∧
    ((run (.pre 1 14 false false) burst).chan 1).rows = [(15, 7)] ∧
    ((run (.pre 1 14 true false) burst).chan 1).rows = [] := by decide
theorem test_ref : (run (.ref 1 0 false) ready).g B.mmp F.mmp_REF_CNT 1 = 1 := by decide
theorem test_selfRefresh : (run (.selfRefreshEntry 1 false) ready).gb B.mmp F.mmp_IN_SR 1 = true ∧
    (run (.selfRefreshExit 1 false)
      (run (.selfRefreshEntry 1 false) ready)).gb B.mmp F.mmp_IN_SR 1 = false := by decide
theorem test_training : (run (.training 1 0 true false)
  (on.pb B.mmp F.mmp_CH_READY true 1)).gb B.mmp F.mmp_TRAINED 1 =
    true := by decide
theorem test_unsupportedCommand : (run (.unsupportedCommand 1) ready).g B.mmp F.mmp_PROTO_ERR_CNT 1 = 1 := by decide
theorem test_hostReset : ((run (.hostReset 1) burst).chan 1).rows = [] := by decide
theorem test_mrw_mrr : ((run (.mrr 1 20 false)
  (run (.mrw 1 20 0x1AB .plain false) ready)).chan 1).out = some [0xAB] := by
  decide +kernel
/-- What WR stores, RD drives; MASKED_WRITE changes the bytes its mask enables. -/
theorem wit_StagingBursts : burst.gb B.mmp F.mmp_IN_SR 1 = false ∧ burst.gb B.mmp F.mmp_TRAINED 1 = true ∧
    (burst.chan 1).rows.get? 15 = some 7 ∧ chanAddr 7 15 0 64 < 0x4000000 ∧ burst.rlShort 1 = false ∧
    burst.sramErr (B.staging 1 + chanAddr 7 15 0 64) = [] := by decide +kernel
theorem test_wr_rd : ((run (.rd 1 15 0 false false) (run (.wr 1 15 0 false [1, 2, 3] 0 false) burst)).chan 1).out =
    some ([1, 2, 3] ++ zeros 29) := by decide +kernel
theorem test_maskedWrite : ((run (.rd 1 15 0 false false) (run (.maskedWrite 1 15 0 [9, 9, 9] 5 0 false)
    (run (.wr 1 15 0 false [1, 2, 3] 0 false) burst))).chan 1).out = some ([9, 2, 9] ++ zeros 29) := by decide +kernel

/-- A burst that link ECC finds uncorrectable is dropped and counted (R312). -/
theorem test_wr_lost : let d := burst.pb B.mmp F.mmp_LECC_WR true 1
    (run (.wr 1 15 0 false [1, 2, 3] 2 false) d).ram = [] ∧
    (run (.wr 1 15 0 false [1, 2, 3] 2 false) d).g B.mmp F.mmp_LECC_UE_CNT 1 = 1 := by decide +kernel
/-- MR5 is read-only: a write is ignored and counted (R309). -/
theorem test_mrw_readOnly : ((run (.mrw 1 5 9 .plain false) ready).chan 1).mrs = [] ∧
    (run (.mrw 1 5 9 .plain false) ready).g B.mmp F.mmp_PROTO_ERR_CNT 1 = 1 := by decide +kernel
theorem wit_Doorbells : ready.chWrites (31 / 16) = true := by decide
/-- SQ_LOG2 4: sixteen commands may wait, seventeen not. -/
theorem test_sqProdWrite : let d := ready.p B.mmp F.mmp_SQ_LOG2 4 31
    (run (.sqProdWrite 31 16) d).g B.mmp F.mmp_SQ_PROD_SEEN 31 = 16 ∧
    (run (.sqProdWrite 31 17) d).g B.mmp F.mmp_SQ_PROD_SEEN 31 = 0 ∧
    (run (.sqProdWrite 31 17) d).g B.mmp F.mmp_DB_REJECT_CNT 1 = 1 := by decide +kernel
theorem test_cqAckWrite : (run (.cqAckWrite 31 1) ready).g B.mmp F.mmp_CQ_ACK_SEEN 31 = 0 ∧
    (run (.cqAckWrite 31 1) (ready.p B.mmp F.mmp_CQ_PROD 1 31)).g B.mmp F.mmp_CQ_ACK_SEEN 31 = 1 := by decide +kernel

/-- Queue 31 is served and one command waits in its ring. -/
def hosted (x : Bytes) : Dev :=
  let d := (((mapped ready).pb B.mmp F.mmp_HQ_EN true 31).p B.mmp F.mmp_SQ_LOG2 4 31).p B.mmp F.mmp_SQ_PROD_SEEN 1 31
  let d := (d.p B.mmp F.mmp_CQ_LOG2 4 31).setChan 1 (fun c => { c with cpState := 2 })
  { d with ram := Memory.writeN d.ram (B.staging 1) x }
/-- A host command: OPC, service, staging address and length of one granule from staging offset 0x1000. -/
def hcmd (opc svc : Nat) (fs : List (Nat × Nat × Nat)) : Bytes :=
  fs.foldl (fun b f => b.take f.1 ++ natLE f.2.1 f.2.2 ++ b.drop (f.1 + f.2.1))
    ([byte opc, 0] ++ natLE 2 7 ++ natLE 2 svc ++ natLE 2 0 ++ natLE 8 0x12340 ++ natLE 4 0x1000 ++ natLE 4 64 ++ zeros 40)
/-- A NOP. -/
def nopX : Bytes := hcmd 0 0 []
/-- RUN of one descriptor on core 511. -/
def runX : Bytes := hcmd 3 3 [(0x18, 2, 1), (0x1A, 2, 511)]
theorem wit_HostNop : HostCommand (hosted nopX) 31 0 nopX := by decide +kernel
theorem wit_CopyIn : HostCommand (hosted (hcmd 1 0 [])) 31 1 (hcmd 1 0 []) := by decide +kernel
theorem wit_CopyOut : HostCommand (hosted (hcmd 2 0 [])) 31 2 (hcmd 2 0 []) := by decide +kernel
theorem wit_Frame : HostCommand (hosted (hcmd 3 1 [])) 31 3 (hcmd 3 1 []) := by decide +kernel
theorem wit_Map : HostCommand (hosted (hcmd 3 2 [])) 31 4 (hcmd 3 2 []) := by decide +kernel
theorem wit_Run : HostCommand (hosted runX) 31 5 runX := by decide +kernel
theorem wit_Publish : HostCommand ((hosted (hcmd 3 4 [])).p B.rime F.rime_PUB_CH 1) 31 6 (hcmd 3 4 []) := by
  decide +kernel
/-- What the copies need: an engine that serves the queue, the mapped address. -/
theorem wit_HostCopies : let d := hosted (hcmd 1 0 [])
    d.hqEngine 63 = some 63 ∧ d.feAborted 63 0 = false ∧ Hc.len (hcmd 1 0 []) = 64 ∧ Hc.va (hcmd 1 0 []) = 0x12340 ∧
    0x12340 < 2 ^ d.g B.mgmt F.mgmt_VA_BITS 0 ∧
    (d.tc 7).leaf.find? (fun t => t.hits 0 0x12340) = some ⟨0, 0, true, 0, true⟩ := by decide +kernel
theorem wit_HostCommandsRun : let d := hosted (hcmd 1 0 [])
    d.anyHolds = false ∧ d.feTagFree 63 = true ∧ (d.copyIn 31 63).csrPosts = [] ∧ (d.copyOut 31 63).csrPosts = [] ∧
    ((hosted (hcmd 3 1 [])).hostFrame 31 511 0).csrPosts = [] ∧
    ((hosted (hcmd 3 2 [])).hostMap 31 511 0 0x4000).csrPosts = [] ∧ ((hosted runX).hostRun 31).csrPosts = [] ∧
    (((hosted (hcmd 3 4 [])).p B.rime F.rime_PUB_CH 1).hostPublish 31 63 0 5 9).csrPosts = [] := by decide +kernel
/-- LEN 0 is ill-formed, and a queue of a context that is OFF gets 0x0205 whatever its command is (R320, R327). -/
theorem wit_HostHead : HostHead (hosted (zeros 64)) 31 0 (zeros 64) ∧
    (hosted (zeros 64)).hqBad 1 (zeros 64) false = some (0x0B01, 0x14) ∧
    HostHead ((hosted (zeros 64)).p B.mmp F.mmp_HQ_CTX 15 31) 31 0 (zeros 64) ∧
    ((hosted (zeros 64)).p B.mmp F.mmp_HQ_CTX 15 31).ctxState 15 = 0 := by decide +kernel
theorem test_host_off_first : ((run (.hostNop 31)
  ((hosted (zeros 64)).p B.mmp F.mmp_HQ_CTX 15 31)).hqueue 31).cmds.map
    (·.fin) = [some (0x0205, 0)] := by decide +kernel
theorem test_hostNop : ((run (.hostNop 31) (hosted nopX)).hqueue 31).cmds.map (·.fin) = [some (0, 0)] := by
  decide +kernel
theorem test_copyIn : let d := run (.copyIn 31 63) (hosted (hcmd 1 0 []))
    (d.hqueue 31).cmds.map (fun c => (c.copied, c.moved, c.fe)) = [(true, 1, 63)] := by decide +kernel
/-- What the virtual address holds reaches staging. -/
theorem test_copyOut : let d := hosted (hcmd 2 0 [])
    Memory.readN (run (.copyOut 31 63)
      (run (.vaultWrite [⟨⟨5, 0, false⟩, 0x12340, List.replicate 64 9, false⟩] []) d)).ram (B.staging 1 + 0x1000) 2 =
      [9, 9] := by decide +kernel
theorem test_frame : ((run (.frame 31 511 0) (hosted (hcmd 3 1 []))).hqueue 31).cmds.map (fun c =>
    c.fin.isSome || (c.core == 511 && c.dst == 1)) = [true] := by decide +kernel
theorem test_map : ((run (.map 31 511 0 0x4000) (hosted (hcmd 3 2 []))).hqueue 31).cmds.map (fun c =>
    c.fin.isSome || c.core == 511) = [true] := by decide +kernel
theorem test_run : ((run (.run 31) (hosted runX)).hqueue 31).cmds.map (fun c => c.fin.isSome || c.core == 511) =
    [true] := by decide +kernel
theorem test_publish : ((run (.publish 31 63 0 5 9)
  ((hosted (hcmd 3 4 [])).p B.rime F.rime_PUB_CH 1)).hqueue 31).cmds.map
    (fun c => fieldN c.req 4 4) = [5] := by decide +kernel
/-- The completion entry says queue, command and status, and CQ_PROD advances. -/
def ended : Dev := run (.hostNop 31) (hosted nopX)
theorem wit_HostCommandsHandedBack : ended.hqServed 31 = true ∧ ∃ c, (ended.hqueue 31).cmds[0]? = some c ∧
    ended.hcmd 31 c.id = some c ∧ c.fin = some (0, 0) := by
  exact ⟨by decide +kernel, _, rfl, by decide +kernel, by decide +kernel⟩
theorem test_hqComplete : (run (.hqComplete 31 0) ended).g B.mmp F.mmp_CQ_PROD 31 = 1 ∧
    ((run (.hqComplete 31 0) ended).hqueue 31).cmds = [] := by decide +kernel

/-! ### Packets of package 1 under slot 0, whose key is zero: AES-256-GCM by another implementation (OpenSSL's AES) -/

def pkt (kind addr n cipher mac : Nat) : Pkt :=
  { dst := 0, src := 1, kind := kind, addr := addr, nonce := 1, payload := natBE n cipher, mac := natBE 16 mac }
/-- AES-256 of a block of zeros under a key of zeros (the published example value). -/
theorem test_aes : Crypto.aesEnc (zeros 32) (zeros 16) = natBE 16 0xdc95c078a2408989ad48a21492842087 ∧
    Crypto.aesDec (zeros 32) (Crypto.aesEnc (zeros 32) (zeros 16)) = zeros 16 := by decide +kernel
/-- WR_REQ of 64 bytes of 9 for the last granule of core 511. -/
def writeP : Pkt := pkt 1 0xC1FFFFFC0 64
  (0xec3acda8fb0adf587ad811b05c6111f91fa94c716f695b7cb013878eb471643e * 2 ^ 256 +
    0x2532ad2ac4aec583ab242b47d6cded98a9d2d9b21b8707666a5d3efcb6386c64)
  0xcee32f17ef1ae1fd91d6aa0b45272663
/-- RD_REQ of 64 bytes there. -/
def readP : Pkt := pkt 2 0xC1FFFFFC0 4 0xa533c4a1 0x27ccd8938d269fc44591348fea07dd17
/-- RD_RESP of four bytes of 9. -/
def respP : Pkt := pkt 3 0x0 4 0xec3acda8 0xba5594b5d0d2dd407b1f1910ed89ce43
/-- WR_ACK. -/
def ackP : Pkt := pkt 4 0x0 0 0 0x0bdfdd94e35dbebb22b3e356599bbb48
/-- SIGNAL of 5 for object 16383. -/
def signalP : Pkt := pkt 5 0xC20003FFF 4 0xe033c4a1 0xe2248157a2e8c0cbb5ca503b9210b2b9
/-- MBX of a message of 9s for mailbox 63. -/
def mailP : Pkt := pkt 6 0xC2000FC40 64
  (0xec3acda8fb0adf587ad811b05c6111f91fa94c716f695b7cb013878eb471643e * 2 ^ 256 +
    0x2532ad2ac4aec583ab242b47d6cded98a9d2d9b21b8707666a5d3efcb6386c64)
  0x9a2bb4dbbd450eef752be2cf36be60a8
/-- MORAINE, the one packet of a message. -/
def stepP : Pkt := pkt 7 0x0 16 0xe533c4a1f203d65173d118b9556818f0 0x8fac76d5d7b3982e39add977db989f86
/-- RIME_STATUS of a record of 9s. -/
def statusP : Pkt := pkt 12 0xC20010040 64
  (0xec3acda8fb0adf587ad811b05c6111f91fa94c716f695b7cb013878eb471643e * 2 ^ 256 +
    0x2532ad2ac4aec583ab242b47d6cded98a9d2d9b21b8707666a5d3efcb6386c64)
  0x45416e99e25b4f95fd363c276740b6ef
/-- COLL: the one piece of what rank 1 sends up in collective 9. -/
def pieceP : Pkt := pkt 8 0x0 16 0xe532c4a1fb03d65172d118b9556818f0 0xa2f3cf4720532f981682d7227ea9e920
/-- COLL: rank 1 aborts collective 9. -/
def abortP : Pkt := pkt 8 0x0 16 0xe332c4a1fb03d65172d118b9556818f0 0xe81ad5493717a6b5077ccaef5be733ab

/-- No VC of port 0 has a credit left: what is sent waits there. -/
def stuffed (d : Dev) : Dev :=
  d.setPort 0 { d.port 0 with sent := (List.range 4).map (fun v => (v, List.replicate 64 0)) }

/-! ### Links -/

/-- The packet has arrived at port 0. -/
def came (d : Dev) (k : Pkt) : Dev :=
  { (linked d).setPort 0 { (linked d).port 0 with arrived := [{ pkt := k, vc := 1, cls := 0 }] } with jobKeys := [(0, zeros 32)] }
def setp (p v : Nat) : Dev := (linked on).p (B.link p) F.link_STATE v
/-- The management cores do not run. -/
def quiet (d : Dev) : Dev := d.pb B.sec F.sec_BOOT_CAUSE true
theorem wit_PortStates : Writes on (.link 5) true mgr ∧ on.portState 5 = 0 ∧ (setp 5 1).domUp (Dom.port 5) = true ∧
    (setp 5 1).gb (B.link 5) F.link_ALLOW_W8 = true ∧
    (setp 5 1).gb B.link0 F.link0_TOPO_EN = true ∧ ((setp 5 7).port 5).replay = [] := by
  decide +kernel
theorem wit_PortStates_undisturbed : (setp 5 1).jobsLost = [] ∧ LinkUndisturbed on (on.portEn 5 true) ∧
    LinkUndisturbed (setp 5 1) ((setp 5 1).portEn 5 false) ∧
      LinkUndisturbed (quiet (setp 5 4)) ((quiet (setp 5 4)).lanesTrained 5 16) ∧
    LinkUndisturbed (setp 5 4)
      (({ (setp 5 4).setPort 5 { retrainFails := 2 } with varve := 10000000 } : Dev).retrainTimeout 5) ∧
    ((setp 5 4).port 5).txq = [] ∧ ((setp 5 4).port 5).msgs = [] ∧ ((setp 5 4).port 5).partialRx = [] ∧
    ((setp 5 4).port 5).fwd = [] := by decide +kernel
theorem test_portEnWrite : (run (.portEnWrite mgr 5 true) on).portState 5 = 1 ∧
    (run (.portEnWrite mgr 5 false) (quiet (setp 5 3))).portState 5 = 7 := by decide +kernel
theorem test_lanesTrained : (run (.lanesTrained 5 16) (setp 5 1)).portState 5 = 2 ∧
    (run (.lanesTrained 5 8) ((setp 5 1).pb (B.link 5) F.link_ALLOW_W8 false)).portState 5 = 1 := by decide +kernel
/-- The third failure in a row, not the second, makes the port FAILED. -/
theorem test_retrainTimeout : let d := { setp 5 4 with varve := 10000000 }
    (run (.retrainTimeout 5) (d.setPort 5 { retrainFails := 1 })).portState 5 = 1 ∧
    (run (.retrainTimeout 5) (d.setPort 5 { retrainFails := 2 })).portState 5 = 6 := by decide +kernel
theorem test_drainEnd : (run (.drainEnd 5) (setp 5 7)).portState 5 = 0 := by decide +kernel
theorem wit_PortsUp : (quiet (setp 0 2)).mgmtRuns = false ∧ (quiet (setp 0 2)).portState 0 = 2 ∧
    Writes (quiet (setp 0 3)) (.link 0) true mgr ∧ (setp 0 2).neighbour 0 0 = 1 ∧ (setp 0 2).at_ 1 0 = 1 ∧
    (setp 0 2).g B.link0 F.link0_DIM_Y = 1 := by decide +kernel
theorem wit_PortsUp_undisturbed : LinkUndisturbed (quiet (setp 0 3)) ((quiet (setp 0 3)).laneLockLoss 0) ∧
    LinkUndisturbed (quiet (setp 0 3)) ((quiet (setp 0 3)).retrainWrite 0) ∧
    LinkUndisturbed (quiet (setp 0 2)) ((quiet (setp 0 2)).partnerIdentity 0 1 1 0 0 2 1 1) ∧
    LinkUndisturbed (quiet (setp 0 2)) ((quiet (setp 0 2)).partnerIdentity 0 1 0 0 0 2 1 1) := by decide +kernel
theorem test_partnerIdentity : (run (.partnerIdentity 0 1 1 0 0 2 1 1) (quiet (setp 0 2))).portState 0 = 3 ∧
    (run (.partnerIdentity 0 1 0 0 0 2 1 1) (quiet (setp 0 2))).portState 0 = 5 := by decide +kernel
theorem test_laneLockLoss : (run (.laneLockLoss 0) (quiet (setp 0 3))).portState 0 = 4 := by decide +kernel
theorem test_retrain : (run (.retrain mgr 0)
  (quiet (setp 0 3))).g (B.link 0) F.link_RETRAIN_CNT = 1 := by decide +kernel

/-- A data flit that holds one whole packet in the clear for package 3. -/
def flit : Bytes := [1, 3, 1, 0, 0, 0, 0, 0, 0, 0, 0, 0, 33, 0, 0, 0] ++ ([3, 1, 11, 1, 0, 0, 1,
  0] ++ zeros 24 ++ [63]) ++ zeros 207
theorem wit_FlitsReceived : let f := Flit.parse (padTo 256 flit)
    (linked on).portState 0 = 3 ∧ (linked on).domUp (Dom.port 0) = true ∧ f.ftype = 1 ∧ bit f.flags 0 = true ∧
    bit f.flags 1 = true ∧ bit f.flags 2 = false ∧ f.seq = ((linked on).port 0).rxSeq ∧
    (Pkt.parse f.payload).isSome = true ∧ ((linked on).port 0).replaySeq = 0 ∧ ((linked on).port 0).txq = [] := by
  decide +kernel
/-- Two symbols of the first sector in error in different positions of one codeword: uncorrectable. -/
def hurt : List (Nat × ErrPat) := [(0, [(0, 1), (1, 2), (2, 3)])]
theorem wit_FlitsReceived_decode : flitDecode (padTo 256 flit) [] = some (padTo 256 flit, 0, 0) ∧
    flitDecode (padTo 256 flit) hurt = none ∧ (linked on).jobsLost = [] ∧ ((linked on).port 0).replayRuns < 7 ∧
    bit (Flit.parse (padTo 256 flit)).flags 3 = false := by decide +kernel
/-- It is counted, and everything is discarded until the replay (R332). -/
theorem test_flit_uncorrectable : let d := run (.flitReceive 0 flit hurt) (linked on)
    (d.port 0).rxDiscard = true ∧ (d.port 0).arrived = [] ∧ d.g (B.link 0) F.link_UE_FLIT_CNT = 1 := by decide +kernel
theorem test_flitReceive : ((run (.flitReceive 0 flit []) (linked on)).port 0).arrived.map (·.pkt.dst) = [3] ∧
    ((run (.flitReceive 0 flit []) (linked on)).port 0).rxSeq = 1 := by decide +kernel
theorem test_nak : let f : Flit := Flit.parse flit
    let d := (linked on).setPort 0 { replay := [f, { f with seq := 1 }], txSeq := 2 }
    ((run (.nak 0 1) d).port 0).replay.map (·.seq) = [1] ∧ (run (.nak 0 1) d).linkOut.map (·.2.seq) = [1] := by
  decide +kernel
/-- A ring of four: package 2 is two hops away in either direction, which the lower port takes. -/
def ring4 : Dev := (((linked on).p B.link0 F.link0_DIM_X 4).p (B.link 1) F.link_STATE 3)
theorem wit_PacketsForwarded : ring4.detPort 2 = some 0 ∧ ring4.portUp 0 = true ∧ ring4.domUp (Dom.port 1) = true ∧
    ring4.escapePort 2 = some 0 := by decide +kernel
/-- A packet that has waited for credits for 2 µs. -/
def waits : Port := { txq := [{ pkt := { dst := 2, src := 3, kind := 1 }, vc := 3, cls := 0, from_ := none
                                data := [(zeros 224, 0)] }] }
/-- The first flit of a packet for package 2 has come in on VC 3, class 0. -/
def comingIn : Port := { partialRx := [(9, [([2, 3, 1, 0, 0, 0, 0, 0] ++ zeros 216, 0)])] }
theorem wit_PacketsForwarded_cut : ring4.jobsLost = [] ∧
    (comingIn.oldestFwd 0).map (fun a => (a.1.pkt.dst, a.1.vc, a.1.cls, a.2)) = some (2, 3, 0, true) ∧
    waits.txq.find? (fun w => ({ ring4.setPort 1 waits with varve := 2000 } : Dev).wantsEscape 1 w) = waits.txq.head? ∧
    (on.setPort 1 waits).escapePort 2 = none ∧
    waits.txq.find? (fun w => (on.setPort 1 waits).wantsEscape 1 w) = waits.txq.head? := by decide +kernel
/-- Forwarding begins with the SOP flit: what comes in later follows it (R337). -/
theorem test_cut_through : ((run (.packetForward 1) (ring4.setPort 1 comingIn)).port 1).fwd = [(9, 0)] := by
  decide +kernel
def passing : RxPkt := { pkt := { dst := 2, src := 3, kind := 1 }, vc := 3, cls := 0, data := [(zeros 224, 0)] }
theorem test_packetForward : let d := ring4.setPort 1 { arrived := [passing] }
    ((run (.packetForward 1) d).port 1).arrived = [] ∧ (run (.packetForward 1) d).linkOut.map (·.1) = [0] := by
  decide +kernel
theorem test_escapeTimeout : (run (.escapeTimeout 1) { ring4.setPort 1 waits with varve := 2000 }).g (B.link 0) F.link_ESCAPE_CNT = 1 := by
  decide +kernel

/-- Core 511 opens its last granule to package 1 under slot 0. -/
def openW : Dev := ((((on.pb (B.core 511) F.core_WIN_EN true).p (B.core 511) F.core_WIN_BASE 16383).p (B.core 511)
  F.core_WIN_LEN 1).p (B.core 511) F.core_PEER_SET 2).pb (B.core 511) F.core_PERM_W true |>.pb (B.core 511)
  F.core_PERM_R true |>.p (B.core 511) F.core_KEY_SLOT 0 |>.pb (B.core 511) F.core_WIN_SECURE true
theorem wit_PeerAccesses : ((came openW readP).takePkt 0 (fun k => k.kind == 2)).isSome = true ∧
    (came openW writeP).peerReady writeP = true ∧ openW.domFenced Dom.spine = false ∧
    openW.winFor 511 16383 1 1 0 true = some 0 ∧ openW.winFor 511 16383 1 1 0 false = some 0 ∧
    openW.memUp (B.scratch 511 + 0xFFFC0) = some true ∧
    (openW.fwCheck { sid := 0x240, ctx := openW.g (B.core 511) F.core_WIN_CONTEXT 0, secure := true
                     pa := B.scratch 511 + 0xFFFC0, wr := true, size := 64 }).2 = true := by decide +kernel
/-- R341 admits the packet: what package 1 sealed is what is read. -/
theorem wit_PacketAdmitted : ((came on signalP).authPkt 0 signalP).2 = some { signalP with payload := natLE 4 5 } :=
  by
  decide +kernel
theorem wit_PeerAccesses_admitted : (came openW readP).jobsLost = [] ∧
    ((came openW readP).authRx 0 { pkt := readP, vc := 1, cls := 0 }).2.map (·.accessSize) = some 64 ∧
    ((came openW writeP).authRx 0 { pkt := writeP, vc := 1, cls := 0 }).2.map (·.accessSize) = some 64 ∧
    (came openW readP).sramErr (B.scratch 511 + 0xFFFC0) = [] := by decide +kernel
theorem test_remoteWrite : Memory.readN (run (.remoteWrite 0) (came openW writeP)).ram 0x101FFFFFC0 2 = [9, 9] := by
  decide +kernel
theorem test_windowAccess : (run (.windowAccess 0) (came openW readP)).nonceCtr.getD 0 0 = 1 := by decide +kernel
/-- The answer to a read is a packet of kind RD_RESP. -/
theorem test_rdReq : ((run (.rdReq 0)
  (came openW readP)).linkOut.map (fun f => (f.1, fieldN f.2.payload 2 1))).head? =
    some (0, 3) := by decide +kernel
/-- A packet that was altered on the way is not served, and is counted. -/
theorem test_tampered : let d := run (.rdReq 0) (came openW { readP with addr := 0xC1FFFFF80 })
    d.g B.link0 F.link0_GCM_FAIL_CNT = 1 ∧ d.linkOut.map (fun f => fieldN f.2.payload 2 1) = [9] := by decide +kernel

/-- A read, or a write, of package 1 under tag 0 of port 0. -/
def away (wr : Bool) : Dev :=
  { linked on with remoteOps := [⟨0, 0, 1, 0, wr, 4, .response, .alone, 0, 0, none, false⟩] }
theorem wit_RemoteAccessesEnd : let d := { away false with varve := 10000000 }
    d.remoteFor 1 0 = d.remoteOps.head? ∧ (d.remoteOps.find? (fun r => r.port == 0 && r.tag == 0)).isSome = true ∧
    0 + 1000 * d.g B.link0 F.link0_REMOTE_TMO ≤ d.varve := by decide +kernel
theorem wit_RemoteAccessesEnd_undisturbed : (away false).remoteOps.all (fun r => !(away false).remoteWaits r) = true ∧
    LinkUndisturbed (came (away false) respP) ((came (away false) respP).rdResp 0) ∧
    LinkUndisturbed (came (away true) ackP) ((came (away true) ackP).wrAck 0) ∧
    LinkUndisturbed (away false)
      (({ away false with varve := 10000000 } : Dev).remoteTimeout 0 0) := by decide +kernel
theorem test_rdResp : let d := run (.rdResp 0) (came (away false) respP)
    d.remoteOps = [] ∧ d.resp = some ⟨[9, 9, 9, 9], false, 0, 0⟩ := by decide +kernel
theorem test_wrAck : (run (.wrAck 0) (came (away true) ackP)).remoteOps = [] := by decide +kernel
def clearP (kind : Nat) (x : Bytes) : Pkt := { dst := 0, src := 1, kind := kind, clear := true, payload := x }
theorem test_nakAuth : let d := run (.nakAuth 0) (came (away false) (clearP 9 []))
    d.remoteOps = [] ∧ d.resp = some ⟨zeros 4, true, 0x0703, 1⟩ := by decide +kernel
/-- UNREACH carries the header of the dropped RD_REQ. -/
theorem wit_RemoteAccessesFail_undisturbed : let n := came (away false) (clearP 9 [])
    let u := came (away false) (clearP 10 ([1, 0, 2, 0, 0, 0, 4, 0] ++ zeros 24))
    LinkUndisturbed n (n.nakAuth 0) ∧ LinkUndisturbed u (u.unreach 0) ∧
    ((Pkt.parse ([1, 0, 2, 0, 0, 0, 4, 0] ++ zeros 24 ++ zeros 2064)).map (fun h => (h.kind, h.dst))) = some (2,
      1) := by
  decide +kernel
theorem test_unreach : (run (.unreach 0) (came (away false)
  (clearP 10 ([1, 0, 2, 0, 0, 0, 4, 0] ++ zeros 24)))).remoteOps =
    [] := by decide +kernel
/-- 10 ms after it was issued the access ends, a nanosecond before it does not. -/
theorem test_remoteTimeout : (run (.remoteTimeout 0 0) { away false with varve := 10000000 }).remoteOps = [] ∧
    (run (.remoteTimeout 0 0) { away false with varve := 9999999 }).remoteOps = (away false).remoteOps := by
  decide +kernel

/-- Object 16383 takes signals under slot 0; mailbox 63 is SHARED; Rime hears its peers. -/
def hears : Dev := ((run (.syncCfgWrite mgr 16383 0x207) on).pb (B.mbx 63) F.mbx_MBX_EN true).pb B.rime
  F.rime_RIME_PEER_EN true |>.pb B.rime F.rime_RUN true
theorem wit_PacketsDelivered : hears.syncDeny 16383 0x240 0 (some 0) = none ∧ hears.domUp Dom.mgmt = true ∧
    hears.domUp (Dom.region 7) = true ∧ hears.gb (B.mbx 63) F.mbx_MODE = false ∧ hears.domUp Dom.moraine = true ∧
    hears.rimeRuns = true ∧ hears.g B.rime F.rime_RIME_SLOT = 0 ∧
    ((came hears (clearP 11 [62])).takePkt 0 (fun k => k.kind == 11)).isSome = true ∧
    hears.mgmtRuns = true := by decide +kernel
theorem wit_PacketsDelivered_undisturbed : (came hears signalP).jobsLost = [] ∧
    LinkUndisturbed (came hears mailP) ((came hears mailP).mbxPkt 0) ∧
    LinkUndisturbed (quiet (came hears mailP)) ((came hears (clearP 11 [62])).linkState 0) := by decide +kernel
theorem test_signal : ((run (.signal 0) (came hears signalP)).syncPending.getD 16383 []).map (·.incr) = [some 5] := by
  decide +kernel
theorem test_mbx : ((run (.mbx 0) (came hears mailP)).mbxSlot 63 0).msg.take 2 = [9, 9] := by decide +kernel
theorem test_moraine : (run (.moraine 0) (came hears stepP)).mor.inbox.map (·.src) = [1] := by decide +kernel
theorem test_rimeStatus : ((run (.rimeStatus 0) (came hears statusP)).rime.peers.get? 1).map (·.1.take 2) =
    some [9, 9] := by decide +kernel
theorem test_linkState : (run (.linkState 0)
  (came hears (clearP 11 [62]))).linkMap.getD 1 63 = 62 := by decide +kernel

/-! ### Collectives -/

/-- A request of context 0 under slot 0, identity 9; a merge of one INT8 record of three granules. -/
def collX (op : Nat) : Bytes := [byte op, 0, 0, 0] ++ natLE 4 9 ++ zeros 16 ++ natLE 4 (if op = 3 then 192 else 0) ++
  [if op = 3 then 7 else if op = 2 then 8 else 0, 0] ++ natLE 2 (if op = 3 then 1 else 0) ++ zeros 20 ++ natLE 2 9 ++
  zeros 10
/-- Keyed and linked. -/
def keyed : Dev := stuffed { linked (mapped on) with jobKeys := [(0, zeros 32)] }
def startedC (op : Nat) : Bool :=
  let i := match op with
    | 1 => Instr.barrier mgr (collX 1)
    | 2 => .reduce mgr (collX 2)
    | 3 => .collTopkMerge mgr (collX 3)
    | _ => .allToAll mgr (collX 4)
  ((run i keyed).coll 9).isSome || (run i keyed).collDone.contains 9
theorem wit_CollectivesStart : Writes keyed (.link 0) true mgr ∧ keyed.slotState 0 = 1 ∧
    (∀ op ∈ [1, 2, 3, 4], (collX op).length = 64 ∧ CollReq.op (collX op) = op ∧ CollReq.bad (collX op) = none ∧
      CollReq.key (collX op) = 9) := by decide +kernel
theorem wit_CollectivesStart_undisturbed : ∀ op ∈ [1, 2, 3, 4],
  LinkUndisturbed keyed (keyed.collRequest op (collX op)) := by
  decide +kernel
/-- A request whose SIG_EN is 1 with SIG_INCR 0 is refused, and so is one whose slot is not LOADED (R347). -/
theorem test_coll_refused : let bad := (collX 1).take 0x2A ++ [0, 0x80] ++ (collX 1).drop 0x2C
    (CollReq.bad bad).isSome = true ∧ (run (.barrier mgr bad) keyed).colls = [] ∧
    (run (.barrier mgr bad) keyed).g B.link0 F.link0_COLL_FAIL_CNT = 1 ∧
    (run (.barrier mgr (collX 1)) (keyed.p B.sec F.sec_JK_STATE 2 0)).colls = [] := by decide +kernel
theorem test_barrier : startedC 1 = true := by decide +kernel
theorem test_reduce : startedC 2 = true := by decide +kernel
theorem test_collTopkMerge : startedC 3 = true := by decide +kernel
theorem test_allToAll : startedC 4 = true := by decide +kernel
/-- A ninth request waits. -/
theorem test_barrier_waits : ((run (.barrier mgr (collX 1)) { keyed with
    colls := (List.range 8).map (fun i => (100 + i,
      { req := collX 1, since := 0, started := true })) }).coll 9).map (·.started) = some false := by
  decide +kernel

/-- Collective 9 is in flight, with or without its result, and a piece of it awaits its acknowledgement. -/
def flying (res : Option (Bytes × List Bool)) : Dev :=
  { keyed with colls := [(9, { req := collX 1, since := 0, started := true, mine := some ([], []), result := res })]
               collTx := [⟨9, 1, 0, 1, 0, 1, [], 0, 2, 0⟩] }
theorem wit_CollectivesEnd : let d := { flying none with varve := 100000000 }
    (d.coll 9).map (fun c => (c.result, c.since + CollReq.tmo c.req)) = some (none, 100000000) ∧
    (d.collTx[0]?).map (fun m => (m.resends, m.since)) = some (2, 0) ∧
    ((flying (some ([], []))).coll 9).map (·.result.isSome) = some true ∧
    ((came (flying none) pieceP).takePkt 0 (fun k => k.kind == 8)).isSome = true := by decide +kernel
theorem wit_CollectivesEnd_undisturbed : let late := { flying none with varve := 100000000 }
    LinkUndisturbed (flying none) ((came (flying none) pieceP).collPkt 0) ∧
    LinkUndisturbed (flying none) ((came (flying none) abortP).collAbortPkt 0) ∧
    LinkUndisturbed late (late.collTimeout 9) ∧
    LinkUndisturbed late ((flying (some ([], []))).collComplete 9) ∧ late.ctxState 0 = 1 ∧
      late.jobsLost = [] := by decide +kernel
theorem test_coll : (run (.coll 0)
  (came (flying none) pieceP)).collRx.map (fun r => (r.coll, r.dir, r.rank, r.chunk)) =
    [(9, 0, 1, 0)] := by decide +kernel
theorem test_collAbort : let d := run (.collAbort 0) (came (flying none) abortP)
    d.coll 9 = none ∧ d.collDone = [9] := by decide +kernel
theorem test_collRetransmit : let d := run (.collRetransmit 0) { flying none with varve := 1000000 }
    d.collTx.map (fun m => (m.resends, m.since)) = [(3, 1000000)] := by decide +kernel
theorem test_collTimeout : (run (.collTimeout 9) { flying none with varve := 100000000 }).coll 9 = none ∧
    ((run (.collTimeout 9) { flying none with varve := 99999999 }).coll 9).isSome = true := by decide +kernel
theorem test_collComplete : (run (.collComplete 9) (flying (some ([], [])))).g B.link0 F.link0_COLL_DONE_CNT = 1 := by
  decide +kernel

/-! ### Rime -/

/-- Rime runs; stream 15 is enabled. -/
def rimed : Dev := (on.pb B.rime F.rime_RUN true).pb B.rime F.rime_STR_EN true 15
/-- The publish request of a stream: request number 7, one granule at offset 0. -/
def pubQ (str : Nat) : Bytes :=
  natLE 2 str ++ natLE 2 0 ++ natLE 4 1 ++ natLE 8 1 ++ natLE 4 0 ++ natLE 4 64 ++ natLE 4 7 ++
  zeros 36
def asked (str : Nat) : Dev := { rimed with rime := { reqs := [(pubQ str, 0)] } }
theorem wit_RimePublishes : (asked 15).rimeRuns = true ∧ (pubQ 15).length = 64 ∧ (asked 15).pubBad (pubQ 15) = none ∧
    (asked 14).pubBad (pubQ 14) = some 0 ∧ (asked 15).pairsPending ((asked 15).g B.rime F.rime_CHECK_CTX 15) = false ∧
    ((asked 15).stream 15).due = none ∧ ((asked 15).stream 15).tLast = none ∧ Writes rimed .rime true mgr := by
  decide +kernel
/-- A pair post of the stream's context is pending; the stream's last output is later than the request's. -/
def pairing : Dev := { asked 15 with rime := { (asked 15).rime with
  posts := [⟨⟨511, 511, 0, 0x8000, 0, 1, 4, 0, 0, 0⟩, 0, false, true⟩] } }
def staleAsk : Dev := { (asked 15).pb B.rime F.rime_KIND true 15 with rime := { (asked 15).rime with
  streams := [(15, { tLast := some 1 })] } }
theorem wit_RimePublishes_waits : pairing.pairsPending (pairing.g B.rime F.rime_CHECK_CTX 15) = true ∧
    pairing.varve < 0 + 1000 * pairing.g B.rime F.rime_PAIR_WIN_US ∧ fieldN (pubQ 15) 8 8 = 1 ∧
    staleAsk.pairsPending (staleAsk.g B.rime F.rime_CHECK_CTX 15) = false := by decide +kernel
/-- An output time equal to the last one is stale (R395). -/
theorem test_pubReq_stale : (run .pubReq staleAsk).rime.rsps.map (fun r => fieldN r.1 4 2) = [0x0801] ∧
    (run .pubReq pairing).rime.rsps = [] := by decide +kernel
theorem test_pubReq : let d := run .pubReq (asked 15)
    (d.stream 15).seq = 1 ∧
      d.rime.rsps.map (fun r => (fieldN r.1 0 4, fieldN r.1 4 2)) = [(7, 0)] := by decide +kernel
theorem test_pubReq_bad : (run .pubReq (asked 14)).rime.rsps.map (fun r => fieldN r.1 4 2) = [0x0802] :=
  by decide +kernel
theorem test_pubRspPop : let d := { rimed with rime := { rsps := [(natLE 4 7 ++ zeros 60, 0)] } }
    (run (.pubRspPop mgr 7) d).rime.rsps = [] ∧
      (run (.pubRspPop mgr 8) d).rime.rsps = d.rime.rsps := by decide +kernel
/-- A publication that has come due at this very time. -/
def dueNow : Dev := { rimed with varve := 50, rime := { streams := [(15, { due := some 50, tLast := some 1 })] } }
theorem test_rimeDeadline : dueNow.rimeRuns = true ∧ (dueNow.stream 15).due = some 50 ∧
    ((run (.rimeDeadline 15) dueNow).stream 15).seq = 1 ∧
    (run (.rimeDeadline 15) { dueNow with varve := 49 }).rime = dueNow.rime := by decide +kernel

/-- A count-grid buffer waits for Whiteout; or Whiteout runs on it. -/
def white (run : Bool) : Dev := { (rimed.pb B.firn F.firn_GRID_VALID true) with
  rime := { woWait := !run, woRun := if run then some ⟨1, 1, 1, false⟩ else none } }
/-- A check post of core 511 that is read back and waits for its partner. -/
def posted : Dev := { rimed with rime := { posts := [⟨⟨511, 511, 0, 0x8000, 0, 1, 4, 0, 0, 0⟩, 0, true, true⟩] } }
theorem wit_RimeChecks : (white false).rime.woWait = true ∧ (white false).gb B.rime F.rime_WO_BUSY = false ∧
    (white false).gb B.firn F.firn_GRID_VALID = true ∧ (white true).rime.woRun.isSome = true ∧
    (posted.readback 0) = posted.rime.posts.head? ∧ posted.clusterUp 31 = true ∧
    (posted.rime.posts.find? (·.pair)) = posted.rime.posts.head? ∧
    0 + 1000 * posted.g B.rime F.rime_PAIR_WIN_US ≤ 2000000 := by decide +kernel
theorem test_whiteoutStart : (run .whiteoutStart (white false)).gb B.rime F.rime_WO_BUSY = true := by decide +kernel
theorem test_whiteoutDone : (run .whiteoutDone (white true)).rime.woRun = none ∧
    (run .whiteoutDone (white true)).rime.woNum = 2 := by decide +kernel
theorem test_checkPost : let d :=
  ((rimed.pb B.rime F.rime_READBACK_EN true).p B.rime F.rime_SAMPLE_SHIFT 0).setCore 511 { posts := [⟨511, 511, 0, 0, 0, 1, 4, 0, 0, 0⟩] }
    ((run (.checkPost 511) d).core 511).posts = [] ∧
      (run (.checkPost 511) d).rime.posts.length = 1 := by decide +kernel
theorem test_readbackDone : ((run (.readbackDone 0) posted).rime.posts.map (fun p => (p.rb, p.pair))) =
    [(false, true)] := by decide +kernel
theorem test_readbackTimeout : (run (.readbackTimeout 0) { posted with varve := 20000 }).g B.rime F.rime_CHECK_SKIP_CNT =
    1 ∧ (run (.readbackTimeout 0) { posted with varve := 19999 }).rime.posts = posted.rime.posts := by decide +kernel
theorem test_pairOrphan : let d := run .pairOrphan { posted with varve := 2000000 }
    d.rime.posts.map (fun p => (p.rb, p.pair)) = [(true, false)] ∧ d.g B.rime F.rime_PAIR_ORPHAN_CNT = 1 := by
  decide +kernel

/-- Rime supervises the four management cores, last kicked at time 0. -/
def kicked : Dev := { rimed with varve := 10000001, rime := { kicks := [0, 0, 0, 0] } }
theorem wit_RimeFaults : Writes kicked .rime true mgr ∧ kicked.rimeRuns = true ∧ kicked.rime.kicks.length = 4 ∧
    bit kicked.rime.silent 3 = false ∧ 0 + 1000 * kicked.g B.rime F.rime_HB_TMO_US < kicked.varve ∧
    Writes kicked .rime false app ∧ on.domUp Dom.rime = true ∧ on.gb B.rime F.rime_RUN = false ∧
    on.gb B.rime F.rime_RIME_RESET = false ∧ on.gb B.rime F.rime_LOCKSTEP = false := by decide +kernel
theorem test_hbKick : (run (.hbKick mgr) kicked).rime.kicks = [10000001, 0, 0, 0] := by decide +kernel
/-- A timer of exactly HB_TMO_US is no loss. -/
theorem test_hbLost : (run .hbLost kicked).rime.silent = 15 ∧
    (run .hbLost { kicked with varve := 10000000 }).rime.silent = 0 := by decide +kernel
theorem test_lockstep : (run .lockstep rimed).faultPin = true ∧
  (run .lockstep rimed).safePin = true := by decide +kernel
theorem test_rimeClk : bit ((run .rimeClk rimed).g B.rime F.rime_CAUSE) 0 = true := by decide +kernel
theorem test_rimeSram : bit ((run .rimeSram rimed).g B.rime F.rime_CAUSE) 1 = true := by decide +kernel
/-- The clock and memory causes are written 1; the clock's condition is still there. -/
theorem test_faultCauseClear : (run (.faultCauseClear app 6 2)
  (rimed.p B.rime F.rime_CAUSE 3)).g B.rime F.rime_CAUSE =
    1 := by decide +kernel
theorem test_safeMaskWrite : let d := rimed.p B.rime F.rime_SMASK 1
    (run (.safeMaskWrite mgr 64) d).g B.rime F.rime_SMASK = 65 := by decide +kernel
theorem test_rimeStart : (run .rimeStart on).gb B.rime F.rime_RUN = true := by decide +kernel
theorem test_rimeRestart : let d := { rimed with fence := [(Dom.rime, 16)] }
    bit (d.fence.getD Dom.rime 0) 4 = true ∧ (run .rimeRestart d).gb B.rime F.rime_RUN = false ∧
    (run .rimeRestart d).safePin = true := by decide +kernel

/-- Peer supervision of package 1 under slot 0. -/
def peered : Dev := { (linked rimed).pb B.rime F.rime_RIME_PEER_EN true with
  jobKeys := [(0, zeros 32)], varve := 50000000, rime := { peers := [(1, (zeros 64, 0))] } }
theorem wit_RimeSupervises : peered.rimeRuns = true ∧
    (members (peered.slotPeers (peered.g B.rime F.rime_RIME_SLOT))).filter (· != peered.pkgId) = [1] ∧
    peered.slotState (peered.g B.rime F.rime_RIME_SLOT) = 1 ∧ bit peered.rime.peerTold 1 = false ∧
    (peered.rime.peers.get? 1).map (·.2) = some 0 := by decide +kernel
/-- The record leaves under the next nonce and holds a tag of VC 0, or waits for one. -/
theorem wit_RimeSupervises_send : (stuffed peered).outPort 1 = some 0 ∧
  (stuffed peered).tagFree (.port 0) 0 = true := by
  decide +kernel
theorem test_rimePeerSend : let d := run .rimePeerSend (stuffed peered)
    d.nonceCtr.getD 0 0 = 1 ∧ d.tags.map (fun t => (t.owner, t.vc)) = [(.port 0, 0)] := by decide +kernel
theorem test_rimePeerSilent : bit ((run (.rimePeerSilent 1) peered).g B.rime F.rime_SILENT) 1 = true ∧
    (run (.rimePeerSilent 1) { peered with varve := 49999999 }).rime.peerTold = 0 := by decide +kernel
/-- Cluster 31 runs slice `n`, or none. -/
def slicing (n : Nat) : Dev := (((rimed.pb B.rime F.rime_ST_EN true).pb B.rime F.rime_SLICE_BUSY true).p B.rime
  F.rime_SLICE_CLUSTER 31).p B.rime F.rime_SLICE_NUM n
theorem wit_SelfTest : let d := rimed.pb B.rime F.rime_ST_EN true
    d.testable 31 = true ∧ d.gb B.pcc F.pcc_MEAS_BUSY 7 = false ∧ d.stReq = none ∧ d.clusterIdle 31 = true ∧
    d.g B.rime F.rime_NEXT_SLICE 31 = 0 ∧ d.windowEnd d.varve (sliceNs 0) = none ∧
    d.gb B.rime F.rime_OVERDUE 31 = false := by decide +kernel
/-- A safety task window that never ends meets the slice: it is deferred (R406). -/
def windowed : Dev := ((rimed.pb B.rime F.rime_ST_EN true).pb B.rime F.rime_WIN_EN true 3).p B.rime F.rime_WIN_PERIOD_US 1 3
  |>.p B.rime F.rime_LEN_US 1 3
theorem wit_SelfTest_deferred : (windowed.windowEnd windowed.varve (sliceNs 0)).isSome = true ∧
    windowed.deferredTo 31 0 = false ∧
      (rimed.pb B.rime F.rime_ST_EN true).deferredTo 31 0 = false := by decide +kernel
theorem test_slice_deferred : (run (.selfTestSliceStart 31) windowed).g B.rime F.rime_ST_DEFER_CNT = 1 ∧
    (run (.selfTestSliceStart 31) windowed).gb B.rime F.rime_SLICE_BUSY = false := by decide +kernel
theorem test_selfTestSliceStart : let d := run (.selfTestSliceStart 31) (rimed.pb B.rime F.rime_ST_EN true)
    d.g B.rime F.rime_SLICE_CLUSTER = 31 ∧ d.gb B.rime F.rime_SLICE_BUSY = true := by decide +kernel
theorem test_selfTestSliceEnd : (run (.selfTestSliceEnd true) (slicing 22)).g B.rime F.rime_NEXT_SLICE 31 = 23 ∧
    (run (.selfTestSliceEnd true) (slicing 23)).gb (B.core 511) F.core_ST_PASS = true := by decide +kernel
theorem test_selfTestSliceEnd_failed : bit ((run (.selfTestSliceEnd false) (slicing 0)).g B.rime F.rime_CAUSE) 4 =
    true := by decide +kernel
theorem test_stOverdue : (run (.stOverdue 31) { rimed with varve := 3600000000001 }).gb B.rime F.rime_OVERDUE 31 = true ∧
    (run (.stOverdue 31) { rimed with varve := 3600000000000 }).gb B.rime F.rime_OVERDUE 31 = false :=
      by decide +kernel
theorem test_stReq : (run (.stReq mgr (31 + 32 + 128)) rimed).stReq = some ⟨31, true, false,
  false⟩ := by decide +kernel
theorem test_streamEnable : let d := ((on.pb B.rime F.rime_RUN true).p B.rime F.rime_WO_OFF 0x1000000 0)
    d.streamFits 0 1 1 = true ∧ (run (.streamEnable mgr 0 0x10101) d).gb B.rime F.rime_STR_EN 0 = true ∧
    (run (.streamEnable mgr 0 0x10201) d).gb B.rime F.rime_STR_EN 0 = false ∧
    (run (.streamEnable mgr 15 0) rimed).gb B.rime F.rime_STR_EN 15 = false := by decide +kernel

/-! ### Security, boot and reset -/

/-- Firmware of SVN 2 signed under root 1 runs; a KEK and a management key are VALID. -/
def secured : Dev := { on with sec := { fwSvn := 2, fwRoot := 1, keks := [(3, zeros 32)], mkeys := [(7, zeros 32)] } }
def fused (i : Instr) (o : Otp) : Option (Otp × Nat) :=
  match exec i { st secured with otp := o } with
  | .next s => some (s.otp, s.dev.g B.sec F.sec_SEC_RESULT)
  | _ => none
theorem wit_FuseCommands : Writes secured .sec true mgr ∧ State.reset.otp.svnMin < 1 ∧ 1 ≤ secured.sec.fwSvn ∧
    State.reset.otp.lifecycle = 0 ∧ secured.sec.keks ≠ [] ∧ secured.sec.mkeys ≠ [] := by decide +kernel
theorem test_svnAdvance : fused (.svnAdvance mgr 2) { svnMin := 1 } = some ({ svnMin := 2 }, 0) ∧
    fused (.svnAdvance mgr 3) { svnMin := 1 } = some ({ svnMin := 1 }, 0x0905) := by decide +kernel
theorem test_revokeRoot : fused (.revokeRoot mgr 3) { rootRevoke := 1 } = some ({ rootRevoke := 9 }, 0) ∧
    fused (.revokeRoot mgr 1) { rootRevoke := 1 } = some ({ rootRevoke := 1 }, 0x0905) := by decide +kernel
theorem test_provisionLock : fused (.provisionLock mgr) {} = some ({ lifecycle := 1 }, 0) ∧
    fused (.provisionLock mgr) { lifecycle := 1 } = some ({ lifecycle := 1 }, 0x0905) := by decide +kernel
theorem test_retire : fused (.retire mgr) { lifecycle := 1 } = some ({ lifecycle := 2 }, 0) := by decide +kernel

/-- The entropy source has passed its tests. -/
def drbg : Dev := on.pb B.sec F.sec_DRBG_OK true
theorem wit_SecurityKeys : Writes drbg .sec true mgr ∧ drbg.ctxState 15 = 0 ∧ drbg.gb B.sec F.sec_DRBG_OK = true ∧
    drbg.ctxState 0 ≠ 0 ∧ drbg.domUp Dom.security = true ∧ (secured.sec.keks.get? 3).isSome = true ∧
    drbg.sec.keks.get? 3 = none := by decide +kernel
theorem test_ckGo : let d := run (.ckGo mgr 15) drbg
    d.ctxKey.getD 15 0 = drbg.keyDraws + 1 ∧ d.g B.sec F.sec_KEY_GEN 15 = 1 ∧
    (run (.ckGo mgr 0) drbg).g B.sec F.sec_SEC_RESULT = 0x0905 ∧
    (run (.ckGo mgr 15) on).g B.sec F.sec_SEC_RESULT = 0x0909 := by decide +kernel
theorem test_secEntropy : (run (.secEntropy 1) on).gb B.sec F.sec_DRBG_OK = false ∧
    (run .entropySourcePass (run (.secEntropy 1) on)).gb B.sec F.sec_DRBG_OK = true := by decide +kernel
theorem test_kekCommit : (run (.kekCommit 2) secured).sec.keks.map (·.1) = [2, 3] := by decide +kernel
theorem test_kekErase : (run (.kekErase 3) secured).sec.keks = [] := by decide +kernel
/-- Without a KEK the management key's slot is left EMPTY. -/
theorem test_managementKeyUnwrap : let d := run (.managementKeyUnwrap 7 2) secured
    d.sec.mkeys = [] ∧ d.g B.sec F.sec_UNWRAP_FAIL_CNT = 1 := by decide +kernel

/-- A blob for package 0 with peers 0 and 1, job number 7, key 00…1F, wrapped by OpenSSL under a KEK of zeros. -/
def blob : Bytes := [3] ++ zeros 7 ++ natBE 56
  (0x7010abdc5a851c76c3a1b356633be0a56cd71c1bbb59b61e28d8fc83db9c35cc * 2 ^ 192 +
    0x952fb470ba4f01fa9eb26bf20ec6cf31ba47b3679d5b82f3)
def keyBlob : Dev := { secured with sec := { secured.sec with jkData := blob } }
def failedS : Dev := secured.p B.sec F.sec_JK_STATE 1 255
theorem wit_JobKeySlots : Writes keyBlob .sec true mgr ∧ keyBlob.slotState 255 = 0 ∧ failedS.slotState 255 = 1 ∧
    failedS.remoteOps.filter (fun r => r.slot == 255) = [] ∧ (∀ c ∈ failedS.colls, c.2.started = true) ∧
    failedS.colls.filter (fun c => c.1 / 2 ^ 32 == 255) = [] := by decide +kernel
theorem wit_JobKeySlots_undisturbed : Undisturbed failedS ((failedS.jkSelect 1 255).slotErase 255) ∧
    Undisturbed failedS ((failedS.jkSelect 2 255).slotFail 255 0) := by decide +kernel
theorem test_load : let d := run (.load mgr 255 true) keyBlob
    d.slotState 255 = 1 ∧ d.slotPeers 255 = 3 ∧ (d.jobKeys.getD 255 []).take 3 = [0, 1, 2] := by decide +kernel
theorem test_load_refused : (run (.load mgr 255 true) failedS).g B.sec F.sec_JK_STATUS = 0x0905 ∧
    (run (.load mgr 0 true) secured).g B.sec F.sec_JK_STATUS = 0x0904 := by decide +kernel
theorem test_erase : (run (.erase mgr 255) failedS).slotState 255 = 0 := by decide +kernel
theorem test_fail : (run (.fail mgr 255) failedS).slotState 255 = 2 ∧
    (run (.fail mgr 254) failedS).g B.sec F.sec_JK_STATUS = 0x0905 := by decide +kernel

/-- Leaf 5 of a reserved block of leaves is next, and is ready. -/
def leaved (run : Option Bytes) : Dev :=
  { ((on.pb B.sec F.sec_ID_READY true).p B.sec F.sec_ID_NEXT_LEAF 5).p B.sec F.sec_BOOT_STEP 6 with
    sec := { blockEnd := 1024, tree := some 0, quoteRun := run, nonceAt := some 0, treeGen := some 0 }
    varve := 1000000000 }
theorem wit_QuotesAndLeaves : on.domUp Dom.security = true ∧ (leaved none).sec.exhausted = false ∧
    (leaved none).gb B.sec F.sec_ID_READY = true ∧
    0 + leNat ((leaved none).persD 0x1050 6 (natLE 2 1000)) * 1000000 ≤ (leaved none).varve ∧
    on.sec.blockEnd ≤ on.g B.sec F.sec_ID_NEXT_LEAF := by decide +kernel
/-- QUOTE_MIN_MS after the last nonce, and a nanosecond before. -/
theorem test_nonce_early : let t := leNat ((leaved none).persD 0x1050 6 (natLE 2 1000)) * 1000000
    (run (.nonceWrite [7]) { leaved none with varve := t - 1 }).sec.quoteRun = none ∧
    (run (.nonceWrite [7]) { leaved none with varve := t }).sec.quoteRun = some (7 :: zeros 31) := by decide +kernel
theorem test_nonceWrite : (run (.nonceWrite [7]) (leaved none)).sec.quoteRun = some (7 :: zeros 31) ∧
    (run (.nonceWrite [7]) (leaved (some []))).sec.quoteRun = some [] := by decide +kernel
theorem test_quoteComplete : let d := run .quoteComplete (leaved (some (zeros 32)))
    d.g B.sec F.sec_ID_NEXT_LEAF = 6 ∧ d.sec.quoteSeq = 1 ∧ d.sec.quoteRun = none := by decide +kernel
theorem test_lowerTreeDone : (run .lowerTreeDone (leaved none)).sec.treeGen = none ∧
    (run .lowerTreeDone ((leaved none).pb B.sec F.sec_ID_READY false)).gb B.sec F.sec_ID_READY = true :=
      by decide +kernel
/-- The first reservation begins at the epoch after the fused one. -/
theorem test_identityReserve : let d := on.p B.sec F.sec_BOOT_STEP 6
    (run (.identityReserve true) d).g B.sec F.sec_ID_NEXT_LEAF = 2 ^ 22 ∧
    (run (.identityReserve true) d).sec.blockEnd = 2 ^ 22 + 1024 ∧
    (run (.identityReserve false) d).sec.blockEnd = 0 := by decide +kernel

/-- No valid firmware image is in the flash. A valid one cannot be exhibited: the fused root hashes are opaque. -/
theorem wit_BootChain : on.pcc.poreset = false ∧ on.domOn Dom.boot = true ∧ on.g B.sec F.sec_BOOT_STEP = 0 ∧
    on.gb B.sec F.sec_BOOT_CAUSE = false ∧ on.bootSet {} = none := by decide +kernel
def boots (o : Otp) (entropy : Bool) : Option (Nat × Nat) :=
  match exec (.bootChain none entropy true []) { st on with otp := o } with
  | .next s => some (s.dev.g B.sec F.sec_BOOT_STEP, s.dev.g B.sec F.sec_BOOT_CAUSE)
  | _ => none
theorem test_bootChain : boots {} true = some (3, 0x0901) ∧ boots {} false = some (1, 0x0909) ∧
    boots { lifecycle := 2 } true = some (1, 0x0905) := by decide +kernel
theorem test_poresetNAssert : let d := run .poresetNAssert (on.p (B.core 511) F.core_SP_CE_CNT 7)
    d.pcc.poreset = true ∧ d.g (B.core 511) F.core_SP_CE_CNT = 0 ∧ d.domOn Dom.mgmt = false := by decide +kernel
theorem test_powerLoss_vddAonPor : (run .powerLoss on).pcc.poreset = true ∧
  (run .vddAonPor on).pcc.poreset = true := by
  decide +kernel
theorem test_poresetNRelease : let d := run .poresetNRelease (run .poresetNAssert on)
    d.pcc.poreset = false ∧ d.g B.pcc F.pcc_PWR_ON = 0xD000000000000000 := by decide +kernel
theorem test_warmReset : on.mgmtRuns = true ∧ (run .warmReset { on with varve := 77 }).varve = 77 ∧
    bit ((run .warmReset on).fence.getD Dom.rime 0) 4 = true := by decide +kernel

/-! ### Power, clocks and Creep -/

/-- Cluster 31 is disabled for software, and a transition of it may run. -/
def pwr : Dev := { run (.funcDisable mgr 0x3F false) on with pcc := { measured := 255 } }
theorem wit_PowerDomains : Writes pwr .pcc true mgr ∧ pwr.gb B.pcc F.pcc_PWR_BUSY = false ∧ pwr.domOn 31 = true ∧
    pwr.pwrReason 31 false = 0 ∧ on.pwrReason 31 false = 2 ∧ on.pwrReason 63 false = 4 ∧
    (run (.switchOff mgr 31) pwr).gb B.pcc F.pcc_PWR_BUSY = true ∧
    (run (.switchOff mgr 31) pwr).pcc.trans = some (31, false) ∧ pwr.pwrWaits 31 false = false ∧
    (pwr.pb B.pcc F.pcc_MEAS_BUSY true 7).pwrWaits 31 true = true := by decide +kernel
theorem test_switchOff : let d := run .pwrTransitionDone (run (.switchOff mgr 31) pwr)
    d.domOn 31 = false ∧ d.gb B.pcc F.pcc_PWR_DONE = true ∧
      (run .pwrTransitionDone (run (.switchOn mgr 31) d)).domOn 31 =
      true := by decide +kernel
theorem test_switchOff_refused : let d := run (.switchOff mgr 31) on
    d.domOn 31 = true ∧ d.g B.pcc F.pcc_PWR_REASON = 2 ∧ d.g B.pcc F.pcc_PWR_STATUS = 0x0A20 := by decide +kernel
/-- Every PLL and the reference clock are good. -/
def locked : Dev :=
  let d := ((on.p B.pcc F.pcc_ARITH_LOCK 255).p B.pcc F.pcc_FABRIC_LOCK 1).p B.pcc F.pcc_VAULT_LOCK 1
  ((d.p B.pcc F.pcc_MGMT_LOCK 1).p B.pcc F.pcc_PORT_LOCK 63).pb B.pcc F.pcc_REFCLK_OK true
theorem wit_Clocks : pllBit 7 = some (F.pcc_ARITH_LOCK, 7) ∧ bit (locked.g B.pcc F.pcc_ARITH_LOCK) 7 = true ∧
    pllBit 10 = some (F.pcc_MGMT_LOCK, 0) ∧ bit (locked.g B.pcc F.pcc_PORT_LOCK) 5 = true ∧
    locked.gb B.link0 F.link0_TOPO_EN = false ∧ locked.pcc.poreset = false ∧
    locked.gb B.pcc F.pcc_REFCLK_OK = true ∧ bit (locked.g B.pcc F.pcc_VAULT_LOCK) 0 = true := by decide +kernel
/-- The PLL of port 5, UP or not; and the loss of the reference clock of a package whose links are down. -/
theorem wit_Clocks_undisturbed : Undisturbed locked (locked.pllUnlock 21) ∧ locked.portState 5 = 0 ∧
    Undisturbed locked (locked.refclkLoss 0) ∧
    (let d := quiet (locked.p (B.link 5) F.link_STATE 3); d.portState 5 = 3 ∧ Undisturbed d (d.pllUnlock 21)) := by
  decide +kernel
theorem test_port_pll : (run (.pllUnlock 21) (quiet (locked.p (B.link 5) F.link_STATE 3))).portState 5 = 4 := by
  decide +kernel
theorem test_pllUnlock : let d := run (.pllUnlock 7) locked
    bit (d.g B.pcc F.pcc_ARITH_LOCK) 7 = false ∧ d.domFenced 31 = true ∧ d.domFenced 27 = false := by decide +kernel
theorem test_pllLock : (run (.pllLock 7) (run (.pllUnlock 7) locked)).domFenced 31 = true ∧
    bit ((run (.pllLock 7) (run (.pllUnlock 7) locked)).g B.pcc F.pcc_ARITH_LOCK) 7 = true := by decide +kernel
theorem test_refclkLoss : let d := run (.refclkLoss 0) locked
    d.domFenced 31 = true ∧ d.domFenced (Dom.vault 7) = true ∧ d.domFenced Dom.mgmt = false := by decide +kernel
/-- 120 °C in region 0 and −1 °C in region 7 under a THROTTLE_C of 120. -/
theorem test_tempSample : let o := on.pb B.pcc F.pcc_THROTTLE_EN true
    let d := run (.tempSample [960, 0, 0, 0, 0, 0, 0, 4088] [(85, 3)]) o
    d.gb B.pcc F.pcc_THROTTLED 0 = true ∧ d.gb B.pcc F.pcc_THROTTLED 7 = false ∧ d.g B.pcc F.pcc_TJ 7 = 4088 ∧
    d.g B.pcc F.pcc_HOT_TIER 0 = 3 ∧ o.g B.pcc F.pcc_THROTTLE_C = 120 := by decide +kernel
/-- Region 7 is due. -/
def due : Dev := { (on.pb B.pcc F.pcc_MEAS_DUE true 7).pb B.rime F.rime_ST_EN true with pcc := { due := [(7, (1, 0))] } }
theorem wit_CreepDue : on.pcc.poreset = false ∧ on.pcc.due.get? 7 = none ∧ on.gb B.pcc F.pcc_MEAS_BUSY 7 = false ∧
    Writes on .pcc true mgr ∧ due.pcc.due.get? 7 = some (1, 0) ∧ due.gb B.pcc F.pcc_THROTTLED 7 = false ∧
    due.gb B.rime F.rime_SLICE_BUSY = false ∧ due.regionFenced 7 = false ∧ due.measDeferred 7 = false ∧
    due.gb B.rime F.rime_ST_EN = true ∧
    (∀ c ∈ List.range 128, c / 4 = 7 → due.clusterIdle c = true) ∧ due.windowEnd due.varve 2000000 = none ∧
    due.gb B.pcc F.pcc_MEAS_OVERDUE 7 = false := by decide +kernel
/-- A safety task window that has begun defers the measurement. -/
theorem wit_CreepDeferred : let d := (((due.pb B.rime F.rime_WIN_EN true 3).p B.rime F.rime_WIN_PERIOD_US 1000 3).p
      B.rime F.rime_LEN_US 10 3)
    d.windowEnd d.varve 2000000 = some 10000 := by decide +kernel
theorem test_poweredSecond : let d := (on.p B.pcc F.pcc_INTERVAL_H 1).p B.pcc F.pcc_POWERED_S 3599
    (run .poweredSecond d).gb B.pcc F.pcc_MEAS_DUE 7 = true ∧
    (run .poweredSecond (d.p B.pcc F.pcc_POWERED_S 3598)).gb B.pcc F.pcc_MEAS_DUE 7 = false := by decide +kernel
theorem test_reqGo : let d := run (.reqGo mgr 7 true) on
    d.gb B.pcc F.pcc_MEAS_DUE 7 = true ∧ (d.pcc.due.get? 7).map (·.1) = some 2 ∧ bit d.pcc.drain 7 = true := by
  decide +kernel
theorem test_creepMeasureStart : (run (.creepMeasureStart 7) due).pcc.meas.map (fun m => (m.1, m.2.cause, m.2.v)) =
    [(7, 1, 650)] := by decide +kernel
theorem test_creepOverdue : let d := (due.p B.pcc F.pcc_INTERVAL_H 1).p B.pcc F.pcc_POWERED_S 3600
    (run (.creepOverdue 7) d).gb B.pcc F.pcc_MEAS_OVERDUE 7 = true ∧
    (run (.creepOverdue 7)
      (d.p B.pcc F.pcc_POWERED_S 3599)).gb B.pcc F.pcc_MEAS_OVERDUE 7 = false := by decide +kernel
def sweeping (v : Nat) (swept : Bool) : Dev :=
  { on.pb B.pcc F.pcc_CREEP_EN true with pcc := { meas := [(7, ⟨1, v, some (v + 5), swept⟩)] } }
theorem wit_CreepMeasures : (sweeping 505 false).pcc.avs.get? 7 = none ∧
    (sweeping 505 false).pcc.meas.get? 7 = some ⟨1, 505, some 510, false⟩ ∧
    (sweeping 600 true).pcc.meas.get? 7 = some ⟨1, 600, some 605, true⟩ ∧
    ({ on with pcc := { logQ := [⟨1, 7, 0, [605], [620], [30]⟩] } } : Dev).mgmtRuns = true ∧
      on.pcc.ioDead = false := by decide +kernel
theorem test_creepSweepStep : (run (.creepSweepStep 7 true) (sweeping 505 false)).pcc.meas.get? 7 =
    some ⟨1, 500, some 505, false⟩ ∧ (run (.creepSweepStep 7 true) (sweeping 500 false)).pcc.meas.get? 7 =
    some ⟨1, 500, some 500, true⟩ ∧ (run (.creepSweepStep 7 false) (sweeping 505 false)).pcc.meas.get? 7 =
    some ⟨1, 505, some 510, true⟩ := by decide +kernel
theorem test_creepMeasureEnd : let d := run (.creepMeasureEnd 7) ((sweeping 600 true).p B.pcc F.pcc_GUARD_MV 12)
    d.g B.pcc F.pcc_VMIN_MV 7 = 605 ∧ d.g B.pcc F.pcc_VTGT_MV 7 = 620 ∧ d.g B.pcc F.pcc_HEADROOM_MV 7 = 30 := by
  decide +kernel

/-- The rail of region 7 stands at 650 and moves to 600; an AVSBus command of 600 mV is unanswered. -/
def railed : Dev := { on with varve := 100000, pcc := { railTo := [(7, 600)], avs := [(7, ⟨600, 0, 0⟩)] } }
theorem wit_Rails : railed.setPoint 7 ≠ railed.railTo 7 ∧ railed.pcc.poreset = false ∧
    railed.pcc.avs.get? 7 = some ⟨600, 0, 0⟩ ∧
      (on.pb B.pcc F.pcc_VWIN_OK true 7).gb B.pcc F.pcc_VWIN_OK 7 = true ∧ on.voltFenced 7 = false := by
  decide +kernel
theorem test_railRampStep : (run (.railRampStep 7) railed).setPoint 7 = 649 := by decide +kernel
theorem test_voltWindow : let d := on.pb B.pcc F.pcc_VWIN_OK true 7
    (run (.voltWindow 7 675) d).gb B.pcc F.pcc_VWIN_OK 7 = true ∧ (run (.voltWindow 7 676) d).domFenced 31 = true ∧
    (run (.voltWindow 7 700) on).domFenced 28 = true ∧
    (run (.voltWindow 7 625) d).domFenced 31 = false ∧ (run (.voltWindow 7 624) d).g B.pcc F.pcc_VWIN_CNT = 1 := by
  decide +kernel
theorem test_avsAck : (run (.avsAck 7) railed).pcc.avs = [] ∧
  (run (.avsAck 7) railed).railTo 7 = 600 := by decide +kernel
theorem test_avsRetry : (run (.avsRetry 7) railed).pcc.avs.get? 7 = some ⟨600, 1, 100000⟩ ∧
    (run (.avsRetry 7) { railed with varve := 99999 }).pcc.avs.get? 7 = some ⟨600, 0, 0⟩ := by decide +kernel
theorem test_railOutOfRange : (run (.railOutOfRange 1) on).domFenced (Dom.vault 7) = true ∧
    (run (.railOutOfRange 4) on).pcc.mmpIoDead = true ∧
      (run (.railOutOfRange 7) on).pcc.ioDead = true := by decide +kernel
theorem test_vddSafeDip : (run .vddSafeDip on).domUp Dom.rime = false ∧ (run .vddSafeDip on).safePin = true := by
  decide +kernel

/-! ### Dictionary, field networks, time -/

/-- 0x5001:02 is an unsigned 16-bit entry that the secure world writes; 0x1000:01 is constant. -/
theorem wit_DictionaryItems : (dictRow 0x2FFF = none) ∧ dictEnt 0x1000 200 = none ∧ (dictEnt 0x5001 2).isSome = true ∧
    ((dictEnt 0x1000 1).map (fun e => decide (e.acc ≤ 1))) = some true ∧
    ((dictEnt 0x5001 2).map (fun e => e.acc)) = some 4 := by decide +kernel
theorem test_dictItem : (on.dictItem {} true ⟨4, 0, 0x1000, 0, 0, []⟩).2.2.1 = 0x0B ∧
    (on.dictItem {} false ⟨1, 1, 0x8010, 0, 0, []⟩).2.2.1 = 4 ∧
      (on.dictItem {} true ⟨1, 1, 0x2FFF, 0, 0, []⟩).2.2.1 = 1 ∧
    (on.dictItem {} true ⟨1, 200, 0x1000, 0, 0, []⟩).2.2.1 = 2 ∧
      (on.dictItem {} true ⟨2, 1, 0x1000, 7, 0, [1]⟩).2.2.1 = 3 ∧
    (on.dictItem {} false ⟨2, 2, 0x5001, 6, 0, [1, 0]⟩).2.2.1 = 4 := by decide +kernel

/-- The dictionary service runs. -/
def served13 : Dev := ready.pb B.dictm F.dictm_DM_READY true
theorem wit_MirrorServes : served13.domUp Dom.mgmt = true ∧ served13.chWrites 1 = true ∧
    served13.gb B.dictm F.dictm_DM_READY = true ∧ (served13.mirSlot 7).busy = false ∧ served13.dictReady = true ∧
    (served13.pb B.dictm F.dictm_SNAP_EN true).gb B.dictm F.dictm_SNAP_EN = true ∧
    ((run (.reqSeqWrite 7 1 false) served13).mirSlot 7).busy = true := by decide +kernel
theorem test_reqSeqWrite : ((run (.reqSeqWrite 7 2 false) served13).mirSlot 7).busy = false ∧
    (run (.reqSeqWrite 7 1 false) served13).dcnt 0x7004 2 = 1 := by decide +kernel
/-- A slot whose request is not the oldest message is not answered yet (R365). -/
theorem test_mirror_in_turn : let d := run (.reqSeqWrite 6 1 false) (run (.reqSeqWrite 7 1 false) served13)
    d.dict.arrived = [.slot 7, .slot 6] ∧ ((run (.mirrorResponse 6) d).mirSlot 6).busy = true ∧
    Undisturbed d (d.mirrorResponse {} 7) := by decide +kernel
theorem test_mirrorResponse : ((run (.mirrorResponse 7)
  (run (.reqSeqWrite 7 1 false) served13)).mirSlot 7).rspSeq = 1 := by
  decide +kernel
theorem test_heartbeat : let d := { on.setChan 0 (fun c => { c with cpState := 2 }) with varve := 2 ^ 32 + 5 }
    d.mgmtRuns = true ∧ ((run .heartbeat d).chan 1).heartbeat = 5 := by decide +kernel
theorem test_snapshot : ((run .snapshot served13).dict.snaps.get? 1).map (·.gen) = some 2 := by decide +kernel

/-- A valid copy of generation 3 in place 1. -/
def stored : Flash := { stores := [(1, storeCopy 3 [])] }
theorem wit_StoreAndRestore : on.dictReady = false ∧ served13.dict.store = none ∧ on.pcc.ioDead = false ∧
    on.flash.storeCurrent = none := by decide +kernel
theorem wit_StoreAndRestore_current : stored.storeCurrent = some (1, storeCopy 3 []) := by
  simp [stored, Flash.storeCurrent, Flash.storeAt, Option.filter, StoreCopy.valid, storeCopy, Tab.get?]
/-- The first store goes to place 0, as generation 1; one whose write fails leaves none. -/
theorem test_dictStore : (run (.dictStoreDone true)
  (run .dictStore served13)).flash.stores.get? 0 = some (storeCopy 1 []) := rfl
theorem test_dictStore_failed : let d := run (.dictStoreDone false) (run .dictStore served13)
    d.dict.storeState = 3 ∧ d.flash.stores = [] ∧ (run .dictStore on).dict.store = none := by decide +kernel
theorem test_dictRestore : (run .dictRestore (served13.p B.pcc F.pcc_WARN_C 1)).g B.pcc F.pcc_WARN_C = 0x73 ∧
    (run .dictRestore (on.p B.pcc F.pcc_WARN_C 1)).g B.pcc F.pcc_WARN_C = 1 := by decide +kernel

/-- The Ethernet link is up. -/
def eth : Dev := { served13 with dict := { ethUp := true } }
/-- An ARP request for the package's own address. -/
def arp : Bytes := List.replicate 6 255 ++ natBE 6 0x020000000001 ++ natBE 2 0x0806 ++ natBE 2 1 ++ natBE 2 0x0800 ++
  [6, 4] ++ natBE 2 1 ++ natBE 6 0x020000000001 ++ natBE 4 0x0A000001 ++ zeros 6 ++
  natBE 4 (eth.inForce {} 0x1030 1)
theorem wit_EthernetServes : eth.macUp = true ∧ eth.dictReady = true ∧ 14 ≤ arp.length ∧ beField arp 12 2 = 0x0806 ∧
    beField (arp.drop 14) 24 4 = eth.inForce {} 0x1030 1 := by decide +kernel
theorem test_ethernetFrame : (run (.ethernetFrame arp true) eth).dict.ethOut = [.arpReply 0x020000000001 0x0A000001] ∧
    (run (.ethernetFrame arp false) eth).dcnt 0x7005 3 = 1 := by decide +kernel
theorem test_ethernetLinkChange : (run (.ethernetLinkChange false) eth).dcnt 0x7005 4 = 1 ∧
    (run (.ethernetLinkChange true) on).dict.ethUp = true := by decide +kernel
/-- A request of one item that reads 0x1000:01. -/
def kop : Bytes := [0x4B, 0x4E, 1, 0] ++ zeros 8 ++ [1, 0] ++ natLE 2 8 ++ [1, 1, 0, 0x10, 0, 0, 0, 0]
theorem wit_KopMessage : (kopItems kop 0).isSome = true ∧ kopItems [] 0 = none := by decide +kernel
/-- A malformed datagram has come in, before a slot's request (R365). -/
def datagram : Dev := { eth with dict := { arrived := [.udp ⟨1, 2, 3, []⟩, .slot 7] } }
theorem wit_KopMessage_undisturbed : eth.dictReady = true ∧
  Undisturbed datagram (datagram.kopMessage {}) := by decide +kernel
theorem test_kopMessage : (run .kopMessage datagram).dict.arrived = [.slot 7] ∧
    (run .kopMessage datagram).dcnt 0x7001 4 = 1 := by decide +kernel

/-- Controller 1 is error-active. -/
def canned : Dev := { served13 with dict := { cans := [(1, { state := 0 })] } }
def canNum : Nat := canned.canId {} 1
theorem wit_CanServes : canned.dictReady = true ∧ (canned.can 1).state = 0 ∧ (canned.can 1).part = none ∧
    canned.pcc.ioDead = false ∧ canned.mgmtRuns = true ∧
    ((run (.canFrame 1 canNum true (64 :: zeros 63)) canned).can 1).part = some ⟨zeros 63, 1, 0⟩ := by decide +kernel
/-- A whole request of no item. -/
theorem wit_CanServes_request : let d := canned
    d.dict.arrived = [] ∧ (canItems []).isSome = false ∧
    Undisturbed d (d.canFrame {} 1 canNum true (0 :: [])) := by decide +kernel
theorem test_canFrame : (run (.canFrame 1 canNum false [0]) canned).dcnt 0x7003 3 = 1 ∧
    (run (.canFrame 1 canNum true (129 :: zeros 63)) canned).dcnt 0x7003 2 = 1 ∧
    ((run (.canFrame 1 canNum true (129 :: zeros 63))
      (run (.canFrame 1 canNum true (64 :: zeros 63)) canned)).can 1).part =
      some ⟨zeros 126, 2, 0⟩ := by decide +kernel
theorem test_canSegmentTimeout : let d := run (.canFrame 1 canNum true (64 :: zeros 63)) canned
    ((run (.canSegmentTimeout 1) { d with varve := 100000001 }).can 1).part = none ∧
    ((run (.canSegmentTimeout 1) { d with varve := 100000000 }).can 1).part.isSome = true := by decide +kernel
theorem test_canErrorState : ((run (.canErrorState 1 2) canned).can 1).state = 2 ∧
    ((run (.canBusOffRecovery 1) (run (.canErrorState 1 2) canned)).can 1).state = 0 := by decide +kernel

/-- TIME_SOURCE is 0 since the last reset. -/
def alone : Dev := { on with dict := { inForce := [(0x500101, [0])] } }
theorem test_aonTick : (run .aonTick on).varve = 40 ∧
    (run .aonTick (on.p B.mgmt F.mgmt_RATE_ADJ (2 ^ 32 - 1))).varve = 39 := by decide +kernel
theorem wit_RateAdjustment : on.pcc.poreset = false ∧ Writes on .mgmt true mgr ∧ on.mgmtRuns = true ∧
    on.varveFrac < 2 ^ 32 ∧ on.timeSource ≠ 0 ∧ leNat (on.storedValues.getD (0x5001 * 256 + 1) [1]) ≠ 0 := by
  decide +kernel
theorem wit_VarveClock : Writes on .mgmt true mgr ∧ on.gb B.mgmt F.mgmt_STEPPED = false ∧
    on.varveFrac < 2 ^ 32 ∧ on.timeSource ≠ 0 ∧ alone.timeSource = 0 := by decide +kernel
/-- A store in the flash that holds TIME_SOURCE 0. -/
theorem wit_VarveClock_store : (∃ d : Dev, d.mgmtRuns = true ∧
    leNat (d.storedValues.getD (0x5001 * 256 + 1) [1]) = 0) :=
  ⟨{ on with flash := { stores := [(0, storeCopy 1 [(0x500101, [0])])] } }, by decide +kernel, by
    simp [Dev.storedValues, Flash.storeCurrent, Flash.storeAt, storeCopy, StoreCopy.valid, Tab.get?, Tab.getD, Option.filter, leNat]⟩
/-- With no time source the rate stays 0 and the clock is not stepped (R380). -/
theorem test_no_source : (run (.rateAdjWrite mgr 5) alone).g B.mgmt F.mgmt_RATE_ADJ = 0 ∧
    (run (.stepGo mgr) alone).gb B.mgmt F.mgmt_STEPPED = false ∧
    (run (.rateAdjWrite mgr 5) on).g B.mgmt F.mgmt_RATE_ADJ = 5 := by decide +kernel
/-- A sync object and a mailbox of a package that is on; a warm reset may take place. -/
theorem wit_SyncAndMailboxesAtReset : on.domUp (Dom.region 7) = true ∧ on.answers (.sync 16383) = true ∧
    on.answers (.mbx 63) = true ∧ on.domFenced Dom.spine = false ∧ on.mgmtRuns = true ∧
    State.reset.dev.answers (.mbx 0) = false := by decide +kernel
/-- R359: an entry of each access code, and the ends of the secure range. -/
theorem wit_DictionaryAccess : [dictEnt 0x1000 1, dictEnt 0x1F00 3, dictEnt 0x1050 1, dictEnt 0x8010 3,
  dictEnt 0x5001 2].map
    (fun e => e.map (·.acc)) = [some 0, some 1, some 2, some 3, some 4] ∧
    (on.dictItem {} false ⟨1, 1, 0x8FFF, 0, 0, []⟩).2.2.1 = 4 ∧
    (on.dictItem {} false ⟨1, 1, 0x9000, 0, 0, []⟩).2.2.1 = 1 := by decide +kernel
theorem test_rateAdjWrite : (run (.rateAdjWrite mgr 858993) on).gb B.mgmt F.mgmt_LIMIT_HIT = false ∧
    (run (.rateAdjWrite mgr 858994) on).g B.mgmt F.mgmt_RATE_ADJ = 858993 ∧
    (run (.rateAdjWrite mgr (2 ^ 32 - 1)) on).g B.mgmt F.mgmt_RATE_ADJ = 2 ^ 32 - 1 := by decide +kernel
theorem test_stepGo : let d := run (.stepGo mgr) (on.p B.mgmt F.mgmt_STEP_OFFSET (2 ^ 64 - 1))
    d.varve = 2 ^ 64 - 1 ∧ d.gb B.mgmt F.mgmt_STEPPED = true ∧
      (run (.stepGo mgr) d).varve = 2 ^ 64 - 1 := by decide +kernel

/-- The 802.1AS station runs, as an entry stored before the last reset asked. -/
def timed : Dev := { eth with dict := { eth.dict with inForce := [(0x500101, [1])] }, varve := 10 ^ 9 }
theorem wit_TimeServes : timed.timeRuns = true ∧ timed.dict.meanDelay ≤ 800 ∧ timed.follows 0 = true ∧
    timed.gb B.mgmt F.mgmt_STEPPED = false ∧
    (let d := { timed with dict := { timed.dict with syncState := 2 } }
     d.mgmtRuns = true ∧ d.timeSource = 1 ∧
     d.dict.lastSync + 1000000 * leNat (d.persV {} 0x5001 2) ≤ 10 ^ 18) := by decide +kernel
/-- A Sync whose Follow_Up is to come: the clock is being acquired. On a link that is too long it is not heeded. -/
theorem test_sync : (run (.sync ⟨9, 0, none⟩) timed).dict.syncState = 1 ∧
    (run (.sync ⟨9, 0, none⟩) { timed with dict := { timed.dict with meanDelay := 801 } }).dict.syncState = 0 := by
  decide +kernel
theorem test_syncLoss : let d := { timed with varve := 10 ^ 18, dict := { timed.dict with syncState := 2 } }
    (run .syncLoss d).dict.syncState = 3 := by decide +kernel
theorem test_pdelay : (run (.pdelayReq 7) timed).dict.ethOut.length = 1 ∧
    (run (.pdelayResp 7 0 0) { timed with dict := { timed.dict with pdReq := some (7, 0) } }).dict.pdReq = none ∧
    (run (.pdelayResp 8 0 0) { timed with dict := { timed.dict with pdReq := some (7, 0) } }).dict.pdReq = some (7,
      0) ∧
    (run (.announce [1, 2]) timed).dict.announce = [1, 2] := by decide +kernel
end Sys2Proof.Tests
end

section
/-!
PROOF. Sync objects and mailboxes at reset (R298, R305). Their registers lie below the power, clock and Creep block.
What a cold or a warm reset keeps or writes lies in that block or above it, so every register below it reads its reset
value afterwards.
-/

namespace Sys2Proof.Tab

variable {α : Type}

/-- No entry stands at a key below all those listed. -/
theorem get?_of_below (t : Tab α) (lo i : Nat) (h : ∀ e ∈ t, lo ≤ e.1) (hi : i < lo) : t.get? i = none := by
  induction t with
  | nil => rfl
  | cons e t ih =>
    obtain ⟨he, ht⟩ := List.forall_mem_cons.mp h
    rw [get?, if_neg (by omega), ih ht]

end Sys2Proof.Tab

namespace Sys2Proof.Safety
open Sys2Proof.Machine

/-! ### When a block answers -/

/-- With the spine not fenced, a block answers when its domain is on and not fenced (R22, R298, R305). -/
theorem domUp_iff_answers {d : Dev} {b : Blk} {k : Nat} (hb : b.dom = some k) (hs : d.domFenced Dom.spine = false) :
    d.domUp k = true ↔ d.answers b = true := by
  simp [Dev.answers, Dev.blkUp, hb, hs]

/-! ### A device whose sync objects and mailboxes are as reset leaves them -/

/-- Every register field below the power, clock and Creep block reads its reset value, and no mailbox slot holds
anything. -/
structure ResetBelowPcc (d : Dev) : Prop where
  g : ∀ (b : Nat) (F : Fld) (k : Nat), F.key b k < B.pcc * 8 → d.g b F k = F.reset k
  mbxSlots : d.mbxSlots = []

namespace ResetBelowPcc

theorem of_regs {d : Dev} (hr : ∀ e ∈ d.regs, B.pcc * 8 ≤ e.1) (hm : d.mbxSlots = []) : ResetBelowPcc d where
  g b F k h := by rw [Dev.g, Tab.getD, Tab.get?_of_below _ _ _ hr h, Option.getD_none]
  mbxSlots := hm

/-- It rests on the registers and the mailbox slots alone. -/
theorem congr {d e : Dev} (h : ResetBelowPcc d) (hr : e.regs = d.regs) (hm : e.mbxSlots = d.mbxSlots) :
    ResetBelowPcc e where
  g b F k hk := (Dev.g_congr hr b F k).trans (h.g b F k hk)
  mbxSlots := hm.trans h.mbxSlots

/-- A field write at or above that block keeps it. -/
theorem write_above {d : Dev} (h : ResetBelowPcc d) {b : Nat} (F : Fld) (v : Nat) {k : Nat}
    (hk : B.pcc * 8 ≤ F.key b k) : ResetBelowPcc (d.p b F v k) where
  g c G j hj := by rw [Dev.g_p_other _ _ _ _ _ _ _ _ (by omega), h.g c G j hj]
  mbxSlots := h.mbxSlots

/-- So does a write of a field of that block itself. -/
theorem write_pcc {d : Dev} (h : ResetBelowPcc d) (F : Fld) (v k : Nat) : ResetBelowPcc (d.p B.pcc F v k) :=
  h.write_above F v (by simp only [Fld.key]; omega)

theorem drawKeys {d : Dev} (h : ResetBelowPcc d) (c : Nat) : ResetBelowPcc (d.drawKeys c) := h.congr rfl rfl

theorem fenceDom {d : Dev} (h : ResetBelowPcc d) (k cause : Nat) : ResetBelowPcc (d.fenceDom k cause) :=
  h.congr rfl rfl

/-- R298: every sync object has COUNT 0 and OBJ_EN 0. -/
theorem sync_disabled {d : Dev} (h : ResetBelowPcc d) {o : Nat} (ho : o < 16384) :
    d.g (B.sync o) F.sync_COUNT = 0 ∧ d.gb (B.sync o) F.sync_OBJ_EN = false := by
  have key_lt (F : Fld) (hF : F.off < 16) (hl : F.lo < 64) : F.key (B.sync o) 0 < B.pcc * 8 := by
    simp only [Fld.key, B.sync, B.pcc]; omega
  constructor
  · exact h.g _ _ _ (key_lt _ (by decide) (by decide))
  · rw [Dev.gb, h.g _ _ _ (key_lt _ (by decide) (by decide))]; rfl

/-- R305: every mailbox is disabled. -/
theorem mbx_disabled {d : Dev} (h : ResetBelowPcc d) {m : Nat} (hm : m < 64) : d.gb (B.mbx m) F.mbx_MBX_EN = false := by
  have key_lt : F.mbx_MBX_EN.key (B.mbx m) 0 < B.pcc * 8 := by
    simp only [Fld.key, F.mbx_MBX_EN, B.mbx, B.pcc]; omega
  rw [Dev.gb, h.g _ _ _ key_lt]; rfl

/-- R305: every slot is EMPTY. -/
theorem mbxSlot_empty {d : Dev} (h : ResetBelowPcc d) (m c : Nat) : (d.mbxSlot m c).full = false := by
  rw [Dev.mbxSlot, h.mbxSlots]; rfl

end ResetBelowPcc

/-! ### The resets -/

/-- Every cold reset leaves the registers below the power, clock and Creep block at their reset values (R460, R468,
R469). -/
theorem coldState_resetBelowPcc (d : Dev) : ResetBelowPcc d.coldState :=
  (ResetBelowPcc.of_regs (fun _ he => absurd he List.not_mem_nil) rfl).write_pcc _ _ _

/-- The registers of the Varve counter, which a warm reset keeps, lie above the power, clock and Creep block. -/
theorem warmKept_key_ge : ∀ F ∈ warmKept, B.pcc * 8 ≤ F.key B.mgmt 0 := by decide

/-- A warm reset leaves them so too (R459): what it keeps of the registers lies in that block or in the management
block. -/
theorem warmReset_resetBelowPcc (d : Dev) (h : d.mgmtRuns = true) : ResetBelowPcc d.warmReset := by
  have kept : ∀ e ∈ d.regs.filter (fun (e : Nat × Nat) =>
      (decide (B.pcc * 8 ≤ e.1) && decide (e.1 < B.pcc * 8 + 0x80000)) ||
        warmKept.any (fun fld => fld.key B.mgmt 0 == e.1)), B.pcc * 8 ≤ e.1 := by
    intro e he
    have hk := (List.mem_filter.mp he).2
    simp only [Bool.or_eq_true, Bool.and_eq_true, decide_eq_true_eq, List.any_eq_true, beq_iff_eq] at hk
    rcases hk with ⟨hlo, -⟩ | ⟨F, hF, hk⟩
    · exact hlo
    · exact hk ▸ warmKept_key_ge F hF
  unfold Dev.warmReset
  rw [if_neg (by simp [h])]
  extract_lets lo keep fence pcc begun dict restored dict' synced rated measured powered
  have hsynced : ResetBelowPcc synced := .of_regs kept rfl
  have hrated : ResetBelowPcc rated := by
    unfold rated
    split
    · exact hsynced.write_above _ _ (by decide)
    · exact hsynced
  have hmeasured : ResetBelowPcc measured := List.foldlRecOn _ _ hrated (fun _ he _ _ => he.write_pcc _ _ _)
  have hpowered : ResetBelowPcc powered := (hmeasured.write_pcc _ _ _).write_pcc _ _ _
  have hkeyed : ResetBelowPcc ((List.range 16).foldl (fun e c => e.drawKeys c) powered) :=
    List.foldlRecOn _ _ hpowered (fun _ he _ _ => he.drawKeys _)
  exact hkeyed.fenceDom _ _

/-- Settles O33: a block answers as its domain does, and each of the resets leaves the registers of the sync objects and
mailboxes at their reset values and the slots empty. -/
theorem syncAndMailboxesAtReset : Obligations.SyncAndMailboxesAtReset := by
  unfold Obligations.SyncAndMailboxesAtReset
  refine ⟨fun d o m _ hs => ⟨domUp_iff_answers rfl hs, domUp_iff_answers rfl hs⟩, fun s i hi hw => ?_⟩
  obtain ⟨d, hx, hd⟩ : ∃ d, exec i s = s.done d ∧ ResetBelowPcc d := by
    simp only [List.mem_cons, List.not_mem_nil, or_false] at hi
    rcases hi with rfl | rfl | rfl | rfl
    · exact ⟨_, rfl, coldState_resetBelowPcc s.dev⟩
    · exact ⟨_, rfl, coldState_resetBelowPcc s.dev⟩
    · exact ⟨_, rfl, coldState_resetBelowPcc s.dev⟩
    · exact ⟨_, rfl, warmReset_resetBelowPcc s.dev (hw rfl)⟩
  exact runs_done d hx ⟨fun _ ho => hd.sync_disabled ho,
    fun m hm => ⟨hd.mbx_disabled hm, fun c _ => hd.mbxSlot_empty m c⟩⟩

end Sys2Proof.Safety
end

section
/-!
PROOF. The access codes of dictionary entries (R359): what an access item is answered with by its operation, its entry's
access code and its world, and which results an admitted write can have.
-/

namespace Sys2Proof.Safety
open Sys2Proof.Machine

/-! ### The results of the writes that an entry's description governs -/

/-- The result of a write is success, KR_STATE or KR_BUSY. -/
def Carried (r : Dev × Nat) : Prop := r.2 = 0 ∨ r.2 = 8 ∨ r.2 = 9

theorem carried_ok (d : Dev) : Carried (d, 0) := .inl rfl

theorem carried_state (d : Dev) : Carried (d, 8) := .inr (.inl rfl)

theorem carried_busy (d : Dev) : Carried (d, 9) := .inr (.inr rfl)

theorem carried_ite {c : Prop} [Decidable c] {r q : Dev × Nat} (hr : Carried r) (hq : Carried q) :
    Carried (if c then r else q) :=
  iteInduction (motive := Carried) (fun _ => hr) (fun _ => hq)

/-- A nonce is taken, or refused with KR_STATE or KR_BUSY (R427). -/
theorem nonceWrite_carried (d : Dev) (b : Bytes) : Carried (d.nonceWrite b) :=
  carried_ite (carried_state d) (carried_ite (carried_busy d) (carried_ok _))

/-- A store begins, or KR_BUSY (R362). -/
theorem dictStore_carried (d : Dev) : Carried d.dictStore :=
  carried_ite (carried_busy d) (carried_ok _)

/-- The external step and rate answer KR_WORLD in the non-secure world alone, else success or KR_STATE (R380). -/
theorem extTime_code (d : Dev) (sub n : Nat) (secure : Bool) :
    Carried (d.extTime sub n secure) ∨ ((d.extTime sub n secure).2 = 4 ∧ secure = false) := by
  unfold Dev.extTime
  cases secure with
  | false => exact .inr ⟨rfl, rfl⟩
  | true =>
    rw [if_neg (by decide)]
    exact .inl (carried_ite (carried_state d)
      (carried_ite (carried_ite (carried_state d) (carried_ok _)) (carried_ok _)))

/-- An admitted write succeeds or is answered with KR_STATE or KR_BUSY; but the external step and rate are refused in the
non-secure world. -/
theorem dictPut_code (d : Dev) (o : Otp) (idx sub : Nat) (v : Bytes) (secure : Bool) :
    Carried (d.dictPut o idx sub v secure) ∨
      ((d.dictPut o idx sub v secure).2 = 4 ∧ secure = false ∧ idx = 0x5001 ∧ (sub = 5 ∨ sub = 6)) := by
  unfold Dev.dictPut
  extract_lets n kept
  split
  · exact .inl (nonceWrite_carried d v)
  · exact .inl (dictStore_carried d)
  · exact .inl (carried_ok _)
  · exact (extTime_code d 5 n secure).imp_right (fun ⟨hc, hs⟩ => ⟨hc, hs, rfl, .inl rfl⟩)
  · exact (extTime_code d 6 n secure).imp_right (fun ⟨hc, hs⟩ => ⟨hc, hs, rfl, .inr rfl⟩)
  · exact .inl (carried_ok _)
  · exact .inl (carried_ok _)
  · exact .inl (carried_ok _)
  · exact .inl (carried_ite (carried_state d) (carried_ite (carried_ok _) (carried_ite (carried_ok _)
      (carried_ite (carried_ok _) (carried_ok _)))))

/-- The external step and rate are WO. -/
theorem extTime_ent_acc {sub : Nat} (hsub : sub = 5 ∨ sub = 6) {e : DEnt} (he : dictEnt 0x5001 sub = some e) :
    e.acc = 3 := by
  obtain rfl | rfl := hsub
  · cases he; rfl
  · cases he; rfl

/-! ### A write, by the access code of its entry -/

section
variable (d : Dev) (o : Otp) (secure : Bool) {i : Item} {e : DEnt}

/-- A write of a CONST or RO entry: KR_ACCESS. -/
theorem dictSet_readOnly (he : dictEnt i.idx i.sub = some e) (ha : e.acc ≤ 1) :
    d.dictSet o i.idx i.sub i.ty i.data secure = (d, 3) := by
  simp only [Dev.dictSet, he]
  rw [if_pos (by omega)]

/-- A non-secure write of an RWS entry: KR_WORLD. -/
theorem dictSet_nonSecure (he : dictEnt i.idx i.sub = some e) (ha : e.acc = 4) :
    d.dictSet o i.idx i.sub i.ty i.data false = (d, 4) := by
  simp [Dev.dictSet, he, ha]

/-- A write that the access code admits, with type, length and range right, is carried out; a BOOL above 1 is out of
range. -/
theorem dictSet_admitted (he : dictEnt i.idx i.sub = some e) (ha : 2 ≤ e.acc) (hw : e.acc = 4 → secure = true)
    (hty : i.ty = e.ty) (hlen : i.data.length = e.size) (hrng : dictInRange i.idx i.sub i.data = true) :
    d.dictSet o i.idx i.sub i.ty i.data secure =
      if e.ty = 1 ∧ 1 < leNat i.data then (d, 7) else d.dictPut o i.idx i.sub i.data secure := by
  have hwr : ¬ (e.acc = 0 ∨ e.acc = 1) := by omega
  have hworld : ¬ (e.acc = 4 ∧ (!secure) = true) := by simpa using hw
  simp only [Dev.dictSet, he, if_neg hwr, if_neg hworld, hty, hlen, hrng, ne_eq, not_true_eq_false, if_false,
    Bool.not_true, Bool.false_eq_true, or_false]

/-- Such a write answers neither KR_ACCESS nor KR_WORLD; but a WO entry may answer KR_WORLD by its description. -/
theorem dictSet_admitted_code (he : dictEnt i.idx i.sub = some e) (ha : 2 ≤ e.acc) (hw : e.acc = 4 → secure = true)
    (hty : i.ty = e.ty) (hlen : i.data.length = e.size) (hrng : dictInRange i.idx i.sub i.data = true) :
    (d.dictSet o i.idx i.sub i.ty i.data secure).2 ≠ 3 ∧
      (e.acc ≠ 3 → (d.dictSet o i.idx i.sub i.ty i.data secure).2 ≠ 4) := by
  rw [dictSet_admitted d o secure he ha hw hty hlen hrng]
  split
  · exact ⟨(by decide : (7 : Nat) ≠ 3), fun _ => (by decide : (7 : Nat) ≠ 4)⟩
  · obtain hc | ⟨hc, -, hidx, hsub⟩ := dictPut_code d o i.idx i.sub i.data secure
    · unfold Carried at hc
      omega
    · have hwo : e.acc = 3 := extTime_ent_acc hsub (hidx ▸ he)
      exact ⟨by omega, fun h => absurd hwo h⟩

/-! ### An item, by its operation and world -/

/-- R359: a non-secure item on 0x8000–0x8FFF is answered with KR_WORLD, whether or not the entry exists. -/
theorem dictItem_secureRange (hop : i.op = 1 ∨ i.op = 2) (hres : i.result = 0) (hlo : 0x8000 ≤ i.idx)
    (hhi : i.idx < 0x9000) : d.dictItem o false i = (d, i.ty, 4, []) := by
  have hwf : ¬ (i.op = 0 ∨ 3 < i.op ∨ i.result ≠ 0) := by omega
  simp [Dev.dictItem, hwf, inRow, hlo, hhi]

/-- A secure item, or one outside 0x8000–0x8FFF, is not refused for its index. -/
theorem not_shutOut (hin : secure = true ∨ i.idx < 0x8000 ∨ 0x9000 ≤ i.idx) :
    (inRow i.idx 0x8000 0x1000 && !secure) = false := by
  obtain rfl | hlo | hhi := hin
  · exact Bool.and_false _
  · rw [inRow, decide_eq_false (by omega)]; rfl
  · rw [inRow, decide_eq_false (p := i.idx < 0x8000 + 0x1000) (by omega), Bool.and_false]; rfl

variable (hres : i.result = 0) (hin : secure = true ∨ i.idx < 0x8000 ∨ 0x9000 ≤ i.idx)
  (he : dictEnt i.idx i.sub = some e)
include hres hin he

/-- A READ is answered with KR_ACCESS of a WO entry, and with the value of any other. -/
theorem dictItem_read (hop : i.op = 1) (hty : i.ty = 0 ∨ i.ty = e.ty) (hdata : i.data = []) :
    d.dictItem o secure i =
      if e.acc = 3 then (d, i.ty, 3, []) else (d, e.ty, 0, d.dictGet o i.idx i.sub) := by
  have hworld := not_shutOut secure hin
  have hty' : ¬ (i.ty ≠ 0 ∧ i.ty ≠ e.ty) := fun ⟨h0, h⟩ => hty.elim h0 h
  simp [Dev.dictItem, hop, hres, hworld, he, hty', hdata]

/-- A WRITE has the effect and the result of the write of its entry. -/
theorem dictItem_write (hop : i.op = 2) :
    d.dictItem o secure i = ((d.dictSet o i.idx i.sub i.ty i.data secure).1, i.ty,
      (d.dictSet o i.idx i.sub i.ty i.data secure).2, []) := by
  have hworld := not_shutOut secure hin
  simp [Dev.dictItem, hop, hres, hworld, he]

end

/-- Settles O56: the secure range first, then a READ and a WRITE by the entry's access code. -/
theorem dictionaryAccess : Obligations.DictionaryAccess := by
  unfold Obligations.DictionaryAccess
  intro d o secure i hop hres
  refine ⟨fun hlo hhi hs => ?_, fun e hin he => ⟨fun hop hty hdata => ?_, fun hop hty hlen hrng => ?_⟩⟩
  · subst hs
    rw [dictItem_secureRange d o hop hres hlo hhi]
    exact ⟨rfl, rfl⟩
  · rw [dictItem_read d o secure hres hin he hop hty hdata]
    split <;> exact ⟨rfl, rfl⟩
  · rw [dictItem_write d o secure hres hin he hop]
    have admitted := fun ha hw => dictSet_admitted_code d o secure he ha hw hty hlen hrng
    refine ⟨fun ha => ?_, fun ha hs => ?_, fun ha => ?_, fun ha => (admitted (by omega) (by omega)).1⟩
    · rw [dictSet_readOnly d o secure he ha]
      exact ⟨rfl, rfl⟩
    · subst hs
      rw [dictSet_nonSecure d o he ha]
      exact ⟨rfl, rfl⟩
    · obtain ⟨hacc, hworld⟩ := admitted (by omega) (fun h4 => ha.elim (fun h2 => absurd h4 (by omega)) And.right)
      exact ⟨hacc, hworld (by omega)⟩

end Sys2Proof.Safety
end

section
/-!
PROOF. The rate of the Varve clock (R377, R378, R380): what a write of RATE_ADJ stores, how far one AON tick moves the
counter, and what a warm reset keeps of both.
-/

namespace Sys2Proof

/-- The signed value of a field rests on its low bits alone. -/
theorem sint_mod (w v : Nat) : sint w (v % 2 ^ w) = sint w v := by
  simp only [sint, Nat.mod_mod]

/-- An integer of 32 bits, stored and read back. -/
theorem sint_unsint_32 {r : Int} (hlo : -2 ^ 31 ≤ r) (hhi : r < 2 ^ 31) : sint 32 (unsint 32 r) = r := by
  simp only [sint, unsint]
  omega

end Sys2Proof

namespace Sys2Proof.Tab

variable {α : Type}

/-- A filter that every entry at a key passes leaves what is read there. -/
theorem get?_filter (t : Tab α) (p : Nat × α → Bool) (i : Nat) (h : ∀ v, p (i, v) = true) :
    get? (t.filter p) i = t.get? i := by
  induction t with
  | nil => rfl
  | cons e t ih =>
    obtain ⟨k, v⟩ := e
    by_cases hk : k = i
    · subst hk
      rw [List.filter_cons_of_pos (h v), get?, get?, if_pos rfl, if_pos rfl]
    · rw [List.filter_cons]
      split
      · rw [get?, get?, if_neg hk, if_neg hk, ih]
      · rw [ih, get?, if_neg hk]

end Sys2Proof.Tab

namespace Sys2Proof.Safety
open Sys2Proof.Machine

/-- Naming more fields says less. -/
theorem regsBut_mono {d e : Dev} {l m : List Nat} (h : RegsBut d e l) (hlm : l ⊆ m) : RegsBut d e m :=
  fun b G k hk => h b G k (fun hl => hk (hlm hl))

/-! ### A write of RATE_ADJ -/

/-- RATE_ADJ and LIMIT_HIT as a write of the rate `x` leaves them, the counter not moved (R378). -/
def RateWritten (d e : Dev) (x : Int) : Prop :=
  sint 32 (e.g B.mgmt F.mgmt_RATE_ADJ) = max (-858993) (min 858993 x) ∧
  e.gb B.mgmt F.mgmt_LIMIT_HIT = (d.gb B.mgmt F.mgmt_LIMIT_HIT || decide (x < -858993) || decide (858993 < x)) ∧
  e.varve = d.varve ∧ e.varveFrac = d.varveFrac ∧
  RegsBut d e [F.mgmt_RATE_ADJ.key B.mgmt 0, F.mgmt_LIMIT_HIT.key B.mgmt 0]

/-- The two fields stand at different places. -/
theorem limitHit_key_ne_rateAdj_key : F.mgmt_LIMIT_HIT.key B.mgmt 0 ≠ F.mgmt_RATE_ADJ.key B.mgmt 0 := by decide

/-- Beyond the limit: the limit nearer to `x` is stored, and LIMIT_HIT is set. -/
theorem rateWritten_limit (d : Dev) {x r : Int} (hr : r = max (-858993) (min 858993 x)) (hx : x < -858993 ∨ 858993 < x) :
    RateWritten d ((d.p B.mgmt F.mgmt_RATE_ADJ (unsint 32 r)).pb B.mgmt F.mgmt_LIMIT_HIT true) x := by
  have hit : (decide (x < -858993) || decide (858993 < x)) = true := by simpa using hx
  refine ⟨?_, ?_, rfl, rfl, regsBut_trans (regsBut_p _ _ _ _ _) (regsBut_p _ _ _ _ _)⟩
  · rw [Dev.pb_eq, Dev.g_p_other _ _ _ _ _ _ _ _ limitHit_key_ne_rateAdj_key, Dev.g_p_same, ← hr]
    exact (sint_mod _ _).trans (sint_unsint_32 (by omega) (by omega))
  · rw [Dev.pb_eq, Dev.gb_p_same, Bool.or_assoc, hit, Bool.or_true]
    rfl

/-- Within the limit: the value itself is stored, and LIMIT_HIT stays. -/
theorem rateWritten_within (d : Dev) {v : Nat} (hlo : -858993 ≤ sint 32 v) (hhi : sint 32 v ≤ 858993) :
    RateWritten d (d.p B.mgmt F.mgmt_RATE_ADJ v) (sint 32 v) := by
  refine ⟨?_, ?_, rfl, rfl, regsBut_mono (regsBut_p _ _ _ _ _) (List.cons_subset_cons _ (List.nil_subset _))⟩
  · rw [Dev.g_p_same]
    exact (sint_mod _ _).trans (by omega)
  · rw [Dev.gb_p_other _ _ _ _ _ _ _ _ limitHit_key_ne_rateAdj_key.symm, decide_eq_false (Int.not_lt.mpr hlo),
      decide_eq_false (Int.not_lt.mpr hhi), Bool.or_false, Bool.or_false]

/-- R378, where TIME_SOURCE lets a rate be written. -/
theorem rateWrite_rateWritten (d : Dev) (v : Nat) (ht : d.timeSource ≠ 0) :
    RateWritten d (d.rateWrite v) (sint 32 v) := by
  have limit : rateLimit = 858993 := rfl
  unfold Dev.rateWrite
  rw [if_neg ht]
  split
  · next below => exact rateWritten_limit d (by omega) (.inl (by omega))
  · next notBelow =>
    split
    · next above => exact rateWritten_limit d (by omega) (.inr (by omega))
    · next notAbove => exact rateWritten_within d (by omega) (by omega)

/-! ### An AON tick -/

/-- The counter, its fraction included, moves by the units added, modulo 2⁶⁴ ns. -/
theorem varveAdd_time (d : Dev) (units : Int) :
    (((d.varveAdd units).varve * 2 ^ 32 + (d.varveAdd units).varveFrac : Nat) : Int) =
      (((d.varve * 2 ^ 32 + d.varveFrac : Nat) : Int) + units) % 2 ^ 96 := by
  simp only [Dev.varveAdd]
  omega

/-- The second device is the first but for the state of the dictionary service and the number of the next free value. -/
def OnlyDict (d e : Dev) : Prop := ∃ dict serial, e = { d with dict := dict, serial := serial }

/-- A Pdelay_Req that is due changes the state of the dictionary service alone, and takes a free value (R381). -/
theorem pdelayDue_onlyDict (d : Dev) (o : Otp) : OnlyDict d (d.pdelayDue o) :=
  iteInduction (motive := OnlyDict d) (fun _ => ⟨_, _, rfl⟩) (fun _ => ⟨_, _, rfl⟩)

/-- Out of cold reset a tick moves the counter by 40 ns at the rate in force, and leaves all else but the dictionary
service as it was (R377). -/
theorem aonTick_onlyDict (d : Dev) (o : Otp) (hp : d.pcc.poreset = false) :
    OnlyDict (d.varveAdd (40 * (2 ^ 32 + sint 32 (d.g B.mgmt F.mgmt_RATE_ADJ)))) (d.aonTick o) := by
  rw [Dev.aonTick, hp, if_neg Bool.false_ne_true]
  exact pdelayDue_onlyDict _ _

/-! ### A warm reset -/

/-- The counter and its rate are the same in both devices. -/
structure SameVarve (d e : Dev) : Prop where
  varve : e.varve = d.varve
  rate : e.g B.mgmt F.mgmt_RATE_ADJ = d.g B.mgmt F.mgmt_RATE_ADJ

namespace SameVarve
variable {d e : Dev}

/-- A field write elsewhere keeps them. -/
theorem write (h : SameVarve d e) {b : Nat} {G : Fld} {k : Nat} (v : Nat)
    (hk : G.key b k ≠ F.mgmt_RATE_ADJ.key B.mgmt 0) : SameVarve d (e.p b G v k) where
  varve := h.varve
  rate := (Dev.g_p_other _ _ _ _ _ _ _ _ hk).trans h.rate

theorem drawKeys (h : SameVarve d e) (c : Nat) : SameVarve d (e.drawKeys c) := ⟨h.varve, h.rate⟩

theorem fenceDom (h : SameVarve d e) (k cause : Nat) : SameVarve d (e.fenceDom k cause) := ⟨h.varve, h.rate⟩

end SameVarve

/-- MEAS_BUSY stands elsewhere in every region. -/
theorem measBusy_key_ne_rateAdj_key : ∀ r < 8, F.pcc_MEAS_BUSY.key B.pcc r ≠ F.mgmt_RATE_ADJ.key B.mgmt 0 := by decide

/-- A warm reset keeps the counter and, under a stored TIME_SOURCE other than 0, its rate (R378, R459). -/
theorem warmReset_sameVarve (d : Dev) (hm : d.mgmtRuns = true)
    (ht : leNat (d.storedValues.getD (0x5001 * 256 + 1) [1]) ≠ 0) : SameVarve d d.warmReset := by
  unfold Dev.warmReset
  rw [if_neg (by simp [hm])]
  extract_lets lo keep fence pcc begun dict restored dict' synced rated measured powered
  have hsynced : SameVarve d synced := by
    refine ⟨rfl, ?_⟩
    have hkept : Tab.get? keep (F.mgmt_RATE_ADJ.key B.mgmt 0) = d.regs.get? (F.mgmt_RATE_ADJ.key B.mgmt 0) :=
      Tab.get?_filter _ _ _ (fun _ => by simp [warmKept])
    show Tab.getD keep _ _ = d.regs.getD _ _
    rw [Tab.getD, hkept, Tab.getD]
  have hrated : SameVarve d rated := by
    unfold rated
    rw [if_neg (show synced.timeSource ≠ 0 from ht)]
    exact hsynced
  have hmeasured : SameVarve d measured := List.foldlRecOn _ _ hrated
    (fun _ he r hr => he.write _ (measBusy_key_ne_rateAdj_key r (List.mem_range.mp hr)))
  have hpowered : SameVarve d powered := (hmeasured.write _ (by decide)).write _ (by decide)
  have hkeyed : SameVarve d ((List.range 16).foldl (fun e c => e.drawKeys c) powered) :=
    List.foldlRecOn _ _ hpowered (fun _ he _ _ => he.drawKeys _)
  exact hkeyed.fenceDom _ _

/-- Settles O59: a write of RATE_ADJ case by case over its limit, a tick by the rate in force, and a warm reset block by
block. -/
theorem rateAdjustment : Obligations.RateAdjustment := by
  unfold Obligations.RateAdjustment
  refine fun s who v => ⟨fun hw ht => ?_, fun hp => ?_, fun hm ht => ?_⟩
  · refine runs_done _ (congrArg s.done (regCmd_writes hw)) ?_
    have h := rateWrite_rateWritten s.dev (v % 2 ^ 32) ht
    rwa [sint_mod] at h
  · obtain ⟨dict, serial, htick⟩ := aonTick_onlyDict s.dev s.otp hp
    refine runs_done _ (congrArg s.done htick) ⟨?_, rfl, rfl⟩
    exact varveAdd_time s.dev (40 * (2 ^ 32 + sint 32 (s.dev.g B.mgmt F.mgmt_RATE_ADJ)))
  · have h := warmReset_sameVarve s.dev hm ht
    exact runs_done _ rfl ⟨h.varve, h.rate⟩

end Sys2Proof.Safety
end
